-- ==== Sys2Proof/Word.lean ====
section
/-! DEFINITION. Word.lean: the word types of the block (spec/00 R6: little-endian bytes, 64-bit words). -/
namespace Sys2Proof

/-- A byte. -/
abbrev Byte := BitVec 8
/-- A 32-bit register or message word. -/
abbrev Word32 := BitVec 32
/-- A 64-bit word. -/
abbrev Word := BitVec 64
/-- A vector register: 2,048 bits (spec/02 R41). -/
abbrev VWord := BitVec 2048
/-- Plain data by number: pairs in rising order of key, no key twice. -/
abbrev Map (α : Type) := List (Nat × α)

end Sys2Proof
end

