-- ==== Sys2Proof/Operand.lean ====
section
/-! DEFINITION. Operand.lean: the operands of the block's commands: requests, messages and what an event finds (log 9). -/
namespace Sys2Proof

/-- A command channel (spec/12 R355): an out-of-band request names its peer and CHAN_SEQ, a fabric-manager one its package and FM_SEQ. -/
inductive Chan where
  | pcie
  | oob (peer seq : Nat)
  | smbus
  | fm (pkg seq : Nat)
  deriving DecidableEq, Repr

/-- A request that has passed the checks of the message (spec/12 R357): A0 to A12 and, on the FM channel, the payload. -/
structure Req where
  chan : Chan
  tag : Nat
  force : Bool := false
  args : List Word32
  payload : List Byte := []
  deriving DecidableEq, Repr

/-- An FM message with its envelope (spec/12 R362). -/
structure FmMsg where
  fmSeq : Nat
  srcPkg : Nat
  term : Nat
  epoch : Nat
  words : List Word32
  payload : List Byte := []
  deriving DecidableEq, Repr

/-- The readings of a comb in a housekeeping round (spec/05 R171), in nW: its number on the tile; for each of its lines λ0 to λ17 the readings at the
modulator input taps of its lit bundles; and its total output. -/
structure CombRead where
  comb : Nat
  taps : List (List Nat) := []
  total : Nat := 0
  deriving DecidableEq, Repr

/-- The readings of a CW source of the hub tile (spec/05 R177), in nW: its port, and the power at the modulator tap of each lane. -/
structure CwRead where
  port : Nat
  taps : List Nat := []
  deriving DecidableEq, Repr

/-- What a calibration measures of a channel (spec/05 R160): the heater codes, the bias and the modulator's set point. -/
structure CalMeas where
  tx : Nat
  rx : Nat
  bias : Nat
  setpt : Nat
  deriving DecidableEq, Repr

/-- What a start finds (spec/17 R469; log 9): the flash under SFDP, the SD card's image file, the sites whose controller
does not answer or whose PLL does not lock, the sites whose calibration record fails CAL_CRC, whether both processors
fail their self-check, the bundles that do not come up, the HBM4 channels (stack * 32 + channel) that fail training, the
down ports (stack * 12 + port) that fail, and after how many fuses a fuse write fails. Of the photonic start-up (spec/05 R178): the sensors of each tile in 1/16 °C, the
combs' readings by tile, the channels (bundle * 32 + λ) whose identity cannot be found, what the sweep of a channel measures where its tile starts on
the design-default calibration, and the channels that were mislocked and have been found: the attempts and the codes of the two rings. -/
structure StartFind where
  flashGood : Bool := true
  sdImage : Option (List Byte) := none
  silent : List Nat := []
  calBad : List Nat := []
  selfFail : Bool := false
  bundlesDown : List Nat := []
  hbmBad : List Nat := []
  portsBad : List Nat := []
  fuseWriteFails : Option Nat := none
  temps : List (Nat × List (Option Int)) := []
  combs : List (Nat × CombRead) := []
  chansBad : List Nat := []
  sweeps : List (Nat × CalMeas) := []
  cleared : List (Nat × Nat × Nat × Nat) := []
  deriving DecidableEq, Repr

/-- A worker command of which the standby manager holds a copy (spec/14 R417): its FM_SEQ, package, opcode, the job or ticket that it serves, arguments and
payload. -/
structure HeldCmd where
  seq : Nat
  pkg : Nat
  op : Nat
  serves : Nat := 0
  args : List Nat := []
  payload : List Byte := []
  deriving DecidableEq, Repr

/-- An on-package packet as received (spec/06 R187, R188) with its virtual channel and its number of flits; `reserved` stands for every
reserved bit and field. -/
structure OPkt where
  op : Nat
  flags : Nat := 0
  dst : Nat
  final : Nat
  dmask : Nat := 0
  src : Nat
  part : Nat
  tag : Nat := 0
  addr : Nat := 0
  poison : Nat := 0
  arg : Nat := 0
  reserved : Nat := 0
  payload : List Byte := []
  len : Nat := 0
  vc : Nat
  flits : Nat := 1
  deriving DecidableEq, Repr

/-- A training message of a down port (spec/06 R202) as it comes in, with its CRC; the row gives its TYPE. -/
structure TrainMsg where
  flags : Nat := 0
  epoch : BitVec 16
  echo : BitVec 16 := 0
  width : Nat := 0
  cap : Nat := 0
  spares : Nat := 0
  crc : BitVec 32 := 0
  deriving DecidableEq, Repr

/-- The readings of one housekeeping round of one controller (spec/13 R389; log 9). Temperatures are in 1/16 °C. -/
structure Round where
  /-- The die's own sensors in order; `none` where the conversion fails its self-check. -/
  temps : List (Option Int) := []
  /-- For a KC site the KS sensors; for a compute tile the sensors of its four HBM4 stacks. -/
  temps2 : List (Option Int) := []
  /-- Draw of the die in W; for the KH site, the draw of every consumer other than the KC dies. -/
  draw : Nat := 0
  /-- Draw of each cluster rood in mW. -/
  roodDraw : List Nat := []
  combs : List CombRead := []
  cw : List CwRead := []
  /-- Coolant inlet and outlet in 1/16 °C, pressure flow in mL/min, VIN12 power in W. -/
  inlet : Int := 0
  outlet : Int := 0
  pFlow : Nat := 0
  power : Nat := 0
  deriving DecidableEq, Repr

/-- What the code of an SRAM array finds in a read (spec/04 R116): some word corrected, and the byte offsets, from where
the access begins, at which words cannot be corrected. -/
structure Ecc where
  corr : Bool := false
  bad : List Nat := []
  deriving DecidableEq, Repr

/-- What a lane test of a vertical channel finds (spec/04 R119 to R121): a failed control lane, and the failed lanes of groups D0 to D7. -/
structure LaneFind where
  ctrl : Bool := false
  failed : List Nat := []
  deriving DecidableEq, Repr

/-- Errors in the stored codeword of an HBM4 line that a command reads (spec/04 R129, R130): the line's device physical address; the symbols in error,
each a position and the bits that differ; and the interface line that two of them share. -/
structure LineFind where
  addr : Nat
  errs : List (Nat × Nat)
  ifLine : Option Nat := none
  deriving DecidableEq, Repr

/-- A fabric packet (spec/09 R278) with its payload; `reserved` stands for every reserved field. -/
structure FabPkt where
  ver : Nat := 1
  type : Nat
  flags : Nat := 0
  dstEp : Nat := 0
  srcEp : Nat := 0
  chan : Nat := 0
  srcPkg : Nat := 0
  dstPkg : Nat := 0
  seq : Nat := 0
  job : Nat := 0
  dseq : Nat := 0
  oseq : Nat := 0
  pkt : Nat := 0
  npkt : Nat := 1
  addr : Nat := 0
  arg : Nat := 0
  poison : Nat := 0
  saddr : Nat := 0
  reserved : Nat := 0
  payload : List Byte := []
  deriving DecidableEq, Repr

/-- How a frame arrives (spec/09 R277, R279, R292): the port, whether its checksums hold, its UDP port, a CE mark, whether its stream is
older than the sender's address entry, and the bytes of its priority that the port's receive buffer then holds. -/
structure Arr where
  port : Nat
  ok : Bool := true
  udp : Nat
  ce : Bool := false
  stale : Bool := false
  rxBuf : Nat := 0
  deriving DecidableEq, Repr

/-- How a test ends (spec/16 R453, R457): the units found failed, by number; whether some units were skipped; whether it was pre-empted;
the VALUE measured; and for HBM_BIST the failing rows, by stack and row. -/
structure TestFind where
  failed : List Nat := []
  skipped : Bool := false
  value : Nat := 0
  rows : List (Nat × Nat) := []
  deriving DecidableEq, Repr

/-- What an IEEE 1588 message says (R231; log 43): an announce with its sender's dataset in the order of comparison, a sync with its timestamp of sending
where it carries one (one-step) and the GTC of its receipt, the timestamp that follows a two-step sync, a delay request with the GTC of its receipt and its
sender, the answer to a delay request with its timestamp of receipt, and a port on which no announce is heard any more. Timestamps are grains of the PTP
timescale; those of receipt are taken at the PCS and corrected for the port's delays. -/
inductive PtpKind where
  | announce (dataset : List Nat)
  | sync (t1 : Option Nat) (rx : BitVec 64)
  | followUp (t1 : Nat)
  | delayReq (sender : Nat) (rx : BitVec 64)
  | delayResp (t4 : Nat)
  | silent
  deriving DecidableEq, Repr

/-- An IEEE 1588 message on an Ethernet port, with its domain and its transport as TIME_CFG codes it (R230, R231). -/
structure PtpMsg where
  port : Nat
  domain : Nat
  transport : Nat
  kind : PtpKind
  deriving DecidableEq, Repr

/-- A time mark (spec/07 R226) with its reserved fields. -/
structure Mark where
  frameGtc : BitVec 64
  rate : Int
  mseq : Nat
  step : Bool
  srcLocked : Bool
  reserved : Nat := 0
  deriving DecidableEq, Repr

end Sys2Proof
end

