-- ==== Sys2Proof/Syntax.lean ====
section
/-! DEFINITION. Syntax.lean: the commands of the block, one constructor for each row of spec/opcode_table.json. -/
namespace Sys2Proof

/-- A command of the block. -/
inductive Instr where
  /-- PACKAGE_START (R469): At the start moment (latest of PWRGD rising, HWRST# release and the always-on domain up) the package samples straps, checks trip latches and runs the start from OFF. -/
  | packageStart (testmode a1 a0 : Bool) (f : StartFind)
  /-- ROOT_PLL_FIRST_LOCK (R212): When a die's root PLL first locks, SLOW moves to ROOT/32, TIME starts and every crossing is aligned once. -/
  | rootPllFirstLock (site : Nat)
  /-- PWRGD_FALL (R470): PWRGD falling removes every rail except VAON within 200 µs and abandons any start, DEEP entry or flash write. -/
  | pwrgdFall
  /-- HWRST_ASSERT (R470): HWRST# asserted takes the package to OFF and releases latched trips. -/
  | hwrstAssert
  /-- PERST_ASSERT (R333): PERST#, hot reset or Function Level Reset resets only the PCI Express function and emits HOST_RESET. -/
  | perstAssert (kind : Nat)
  /-- VIN12_REMOVAL (R467): Removal of VIN12 clears the always-on domain, its GTC, TIME_ORIGIN and trip latches. -/
  | vin12Removal
  /-- WAKE_IN_EDGE (R471): A WAKE_IN rising edge wakes a DEEP package, is recorded during DEEP entry, counted in RUN and IDLE, and ignored in OFF. -/
  | wakeInEdge
  /-- COOLANT_INLET_TRIP (R397): The inlet comparator trips above 50 °C for 10 ms and sets every thermal cap to 140 W or holds wake. -/
  | coolantInletTrip
  /-- HOT_SPOT_TRIP (R397): An analogue hot-spot diode reaches 125 °C; every rail except VAON is removed and the package enters OFF, latched. -/
  | hotSpotTrip
  /-- VIN12_WINDOW_TRIP (R397): VIN12 leaves 10.8 V to 13.2 V for 2 µs; every thermal cap is set to 140 W. -/
  | vin12WindowTrip
  /-- VIN12_TRIP_TIMEOUT (R397): A VIN12 window trip that lasts 10 ms takes the package to OFF, latched. -/
  | vin12TripTimeout
  /-- JTAG_INSTRUCTION (R460): An IEEE 1149.1 instruction acts on the test access port by instruction and reset state. -/
  | jtagInstruction (i : Nat)
  /-- NOP (R57): The instruction NOP does nothing. -/
  | nop (c : Nat) (w : BitVec 64)
  /-- END (R49): A core executes END and halts; when every named core has done so the partition enters ENDING. -/
  | endInstr (c : Nat) (w : BitVec 64)
  /-- RDCYC (R235): Writes the issuing cycle's rood cycle count to gD. -/
  | rdcyc (c : Nat) (w : BitVec 64)
  /-- RDGTC (R235): Writes the die's GTC, sampled two or three TIME cycles after issue, to gD. -/
  | rdgtc (c : Nat) (w : BitVec 64)
  /-- WAITCYC (R57): Stalls the core for IMM cycles. -/
  | waitcyc (c : Nat) (w : BitVec 64)
  /-- WAITCYC_EXPIRY (R57): The WAITCYC cycle count expires and the core issues again. -/
  | waitcycExpiry (c : Nat)
  /-- BR (R57): Unconditional branch by a signed word offset, raising ADDR_RANGE for a target outside the schedule. -/
  | br (c : Nat) (w : BitVec 64)
  /-- BEQZ (R57): Branches when gA is zero. -/
  | beqz (c : Nat) (w : BitVec 64)
  /-- BNEZ (R57): Branches when gA is not zero. -/
  | bnez (c : Nat) (w : BitVec 64)
  /-- LOOP (R57): Decrements gA and branches when the result is not zero. -/
  | loopInstr (c : Nat) (w : BitVec 64)
  /-- SALU (R480): Performs the scalar integer function that the minor selects and writes gD. -/
  | salu (c : Nat) (w : BitVec 64)
  /-- SIMM (R57): Loads IMM into the low or high half of gD. -/
  | simm (c : Nat) (w : BitVec 64)
  /-- SLS_LOAD (R57): Loads 32 or 64 bits from local scratch into gD. -/
  | slsLoad (c : Nat) (w : BitVec 64) (e : Ecc)
  /-- SLS_STORE (R117): Stores 32 or 64 bits of gB to local scratch, merging a partial word through the code. -/
  | slsStore (c : Nat) (w : BitVec 64) (e : Ecc)
  /-- SCM_LOAD (R42): Loads from cluster memory, sampling at t+7 and delivering at t+14. -/
  | scmLoad (c : Nat) (w : BitVec 64) (e : Ecc)
  /-- SCM_STORE (R42): Stores to cluster memory, committing at t+8. -/
  | scmStore (c : Nat) (w : BitVec 64) (e : Ecc)
  /-- VLS_LD (R57): Loads 256 bytes of local scratch into vD. -/
  | vlsLd (c : Nat) (w : BitVec 64) (e : Ecc)
  /-- VLS_ST (R57): Stores vB as 256 bytes into local scratch. -/
  | vlsSt (c : Nat) (w : BitVec 64)
  /-- VCM_LD (R42): Loads 256 bytes of cluster memory into vD, sampling at t+10. -/
  | vcmLd (c : Nat) (w : BitVec 64) (e : Ecc)
  /-- VCM_ST (R42): Stores vB as 256 bytes into cluster memory, committing at t+11. -/
  | vcmSt (c : Nat) (w : BitVec 64)
  /-- VF32 (R481): Performs a lane-wise FP32 function selected by the minor. -/
  | vf32 (c : Nat) (w : BitVec 64)
  /-- VF64 (R481): Performs a lane-wise FP64 function selected by the minor. -/
  | vf64 (c : Nat) (w : BitVec 64)
  /-- VINT (R482): Performs a lane-wise integer function at the selected lane width. -/
  | vint (c : Nat) (w : BitVec 64)
  /-- CVT (R483): VCVT CVT converts a group of elements between formats with the named rounding. -/
  | cvt (c : Nat) (w : BitVec 64)
  /-- BLOCK (R90): VCVT BLOCK converts 64 FP32 elements into two block-scaled blocks and writes the scale codes to gC. -/
  | blockCvt (c : Nat) (w : BitVec 64)
  /-- VRED (R484): Reduces vA by the fixed pairwise tree and writes the result to gD. -/
  | vred (c : Nat) (w : BitVec 64)
  /-- TZERO (R67): Clears an accumulator tile and sets it to FP or INT mode. -/
  | tzero (c : Nat) (w : BitVec 64) (e : Ecc)
  /-- TMMA (R99): Queues a tensor multiply-accumulate of chunk-exact sums into an FP-mode tile. -/
  | tmma (c : Nat) (w : BitVec 64)
  /-- TSLICE (R106): Queues an INT8 slice multiply-accumulate into an INT-mode tile with shift and saturation. -/
  | tslice (c : Nat) (w : BitVec 64)
  /-- TSTORE (R72): Converts or raw-stores an accumulator tile to scratch, optionally clearing it. -/
  | tstore (c : Nat) (w : BitVec 64) (e : Ecc)
  /-- TENSOR_QUEUE_ADVANCE (R70): The tensor engine's occupancy ends and the next queued instruction starts, freeing a queue place for a stalled scalar unit. -/
  | tensorQueueAdvance (c : Nat) (e : Ecc)
  /-- TENSOR_RESULT_READY (R111): A tensor result becomes ready 8 cycles after occupancy and its flags are set. -/
  | tensorResultReady (c : Nat)
  /-- VCX (R63): Starts a transfer between scratch and the private vertical slice, making its token PENDING. -/
  | vcx (c : Nat) (w : BitVec 64)
  /-- HMX (R65): Starts a transfer between scratch and a device physical address, checked per line against windows. -/
  | hmx (c : Nat) (w : BitVec 64)
  /-- DPOST (R66): Posts a 64-byte fabric descriptor to a die or hub queue, waiting when the queue or credits are full. -/
  | dpost (c : Nat) (w : BitVec 64) (e : Ecc)
  /-- DPOST_RESUME (R66): A waiting DPOST finds room or a hub credit and its descriptor is accepted. -/
  | dpostResume (c : Nat)
  /-- VCX_COMPLETION (R64): A VCX finishes moving its beats; its token becomes DONE and its semaphore is increased. -/
  | vcxCompletion (c : Nat) (e : Ecc)
  /-- HMX_COMPLETION (R65): An HMX finishes all its lines; its token becomes DONE with OK, BAD_WINDOW, FENCED or UNCORRECTABLE. -/
  | hmxCompletion (c tok : Nat) (e : Ecc) (fs : List LineFind)
  /-- WAITT (R61): Waits for a token to be DONE, returns its completion value and frees it. -/
  | waitt (c : Nat) (w : BitVec 64)
  /-- WAITT_RESUME (R61): A waiting WAITT finds its token DONE and proceeds. -/
  | waittResume (c : Nat)
  /-- TSTAT (R61): Reads a token's status or completion value without waiting. -/
  | tstat (c : Nat) (w : BitVec 64)
  /-- WAITALL (R61): Waits until no token of the core is PENDING. -/
  | waitall (c : Nat) (w : BitVec 64)
  /-- WAITALL_RESUME (R61): The last PENDING token completes and a waiting WAITALL proceeds. -/
  | waitallResume (c : Nat)
  /-- CSRR (R74): Reads a core CSR into gD. -/
  | csrr (c : Nat) (w : BitVec 64)
  /-- CSRW (R74): Writes gA to a core CSR; a write to SR_SEED clears the generator counter. -/
  | csrw (c : Nat) (w : BitVec 64)
  /-- BRK (R60): Acts as NOP and counts, or halts the core when a privileged debugger is attached. -/
  | brk (c : Nat) (w : BitVec 64)
  /-- SINIT (R245): Sets a semaphore to N. -/
  | sinit (c : Nat) (w : BitVec 64)
  /-- SPOST (R245): Adds N to a semaphore, saturating. -/
  | spost (c : Nat) (w : BitVec 64)
  /-- SWAIT (R245): Waits until a semaphore is at least N and subtracts N. -/
  | swait (c : Nat) (w : BitVec 64)
  /-- SWAIT_RESUME (R246): A waiting SWAIT is satisfied in the cycle after an increase and subtracts N. -/
  | swaitResume (c : Nat)
  /-- STRY (R245): Subtracts N if available and reports success without waiting. -/
  | stry (c : Nat) (w : BitVec 64)
  /-- SREAD (R245): Writes a semaphore count to gD. -/
  | sread (c : Nat) (w : BitVec 64)
  /-- SPOSTR (R247): Posts N to a semaphore of another core of the partition, waiting when 8 posts are outstanding. -/
  | spostr (c : Nat) (w : BitVec 64)
  /-- SPOSTR_RESUME (R247): A remote post is delivered, freeing a place for a waiting SPOSTR. -/
  | spostrResume (c : Nat)
  /-- POST (R247): A remote post reaches its target core and increases its semaphore. -/
  | post (src target : Nat)
  /-- BCFG (R251): Waits until OUT is 0 and writes the slot configuration. -/
  | bcfg (c : Nat) (w : BitVec 64)
  /-- BARR (R251): Sends a barrier arrival under SENSE, inverts SENSE and increments OUT, stalling while OUT is 2. -/
  | barr (c : Nat) (w : BitVec 64)
  /-- BWAIT (R251): Waits until the oldest outstanding ply is released. -/
  | bwait (c : Nat) (w : BitVec 64)
  /-- BAR (R251): Arrives and waits until OUT is 0. -/
  | bar (c : Nat) (w : BitVec 64)
  /-- BSTAT (R251): Writes the barrier slot to gD. -/
  | bstat (c : Nat) (w : BitVec 64)
  /-- ARRIVE (R253): A barrier arrival reaches a combiner, which counts it, checks its configuration and completes or forwards the ply. -/
  | arrive (lv unit slot sender : Nat)
  /-- RELEASE (R255): A barrier release reaches a combiner or cluster unit, which passes it down and releases its cores in one cycle. -/
  | release (lv unit slot : Nat)
  /-- PLAN_BOUNDARY (R50): An ENDING or ABORTING partition enters LOADED once tokens, descriptors and remote posts have completed, starting a repeat if runs remain. -/
  | planBoundary (pt : Nat) (spares : List (Nat × LaneFind))
  /-- SRAM_SCRUB (R118): The scrubber reads an SRAM word in an unused array cycle and rewrites it if corrected. -/
  | sramScrub (kind unit : Nat) (corr bad : Bool)
  /-- SRAM_SCRUB_TIMEOUT (R118): A scrub pass not complete after 60 s raises SCRUB_SLOW. -/
  | sramScrubTimeout (kind unit : Nat)
  /-- VC_BEAT_REPLAY (R120): A vertical-channel beat arrives with a CRC mismatch and is replayed. -/
  | vcBeatReplay (p : Nat) (again : Bool)
  /-- LANE_TEST (R120): The die controller stops the vertical channel and drives patterns over every lane. -/
  | laneTest (p : Nat)
  /-- LANE_TEST_DONE (R121): The lane test ends and the controller spares lanes, halves the channel or fences the core. -/
  | laneTestDone (p : Nat) (ctrl : Bool) (failed : List Nat) (spare : LaneFind)
  /-- VLANE_RECAL (R123): A vertical lane is recalibrated in an idle cycle. -/
  | vlaneRecal (p : Nat)
  /-- HBM_PATROL_READ (R132): The patrol scrubber reads the next line of its stack and decodes it. -/
  | hbmPatrolRead (m : Nat) (fs : List LineFind)
  /-- HBM_ROW_SPARING (R133): The controller holds the bank, reads the row, applies post-package repair, writes back and releases the bank. -/
  | hbmRowSparing (m row : Nat) (fs : List LineFind)
  /-- HBM_CHANNEL_COPY_LINE (R136): The copy moves the line at the watermark to the spare channel and advances. -/
  | hbmChannelCopyLine (m : Nat) (fs : List LineFind)
  /-- HBM_SPARE_FAILED (R136): The spare channel fails during a copy, idle or in service. -/
  | hbmSpareFailed (m : Nat)
  /-- HBM_SPARE_TEST (R490): The controller tests an idle spare channel by writing and reading a pattern. -/
  | hbmSpareTest (m : Nat) (pass : Bool)
  /-- RING_LOOP_UPDATE (R147): Each ring loop updates its heater every 250 ns and changes loop state. -/
  | ringLoopUpdate (b l ring cur : Nat)
  /-- RING_NO_LIGHT (R148): A loop NO_LIGHT for 1 ms emits RING_NO_LIGHT, treated as a mislock when the comb line is healthy. -/
  | ringNoLight (b l ring : Nat)
  /-- HOUSEKEEPING_ROUND (R389): Every 1 ms each controller reads sensors, rails, combs and coolant and acts on thresholds. -/
  | housekeepingRound (site : Nat) (r : Round)
  /-- CASTLING_LAMBDA16_SWITCH (R172): After 20 ms the λ16 line selectors switch to the spare. -/
  | castlingLambda16Switch (t c : Nat) (pow : List Nat)
  /-- CASTLING_LINE_MOVE (R172): One line moves to the spare comb, its lane riding λ16 make-before-break. -/
  | castlingLineMove (t c : Nat) (pass : Bool)
  /-- BUNDLE_UP (R176): A bundle completes retraining and returns to service. -/
  | bundleUp (b : Nat) (bad : List Nat) (cleared : List (Nat × Nat × Nat × Nat))
  /-- CAL_DUE (R159): A channel becomes due by temperature or time and a calibration run starts when allowed. -/
  | calDue (b l : Nat)
  /-- CAL_BEGIN (R160): The transmitting controller claims λ16 and sends CAL_BEGIN, moving the lane to λ16. -/
  | calBegin (b l : Nat)
  /-- CAL_MEASUREMENT_DONE (R161): After the two measurements the acceptance test is applied and values written or the run rejected. -/
  | calMeasurementDone (b l : Nat) (m1 m2 : CalMeas)
  /-- CAL_LANE_RETURN (R160): The lane returns from λ16 to its channel and λ16 returns to SPARE. -/
  | calLaneReturn (b l : Nat)
  /-- CAL_STORE_WRITE (R162): Updated calibration entries are written to the store once per hour. -/
  | calStoreWrite (t : Nat) (ok : Bool)
  /-- IDENTITY_WORD_RECEIVED (R150): A receiver decodes an identity word and counts errors, steering errors or mismatches. -/
  | identityWordReceived (b l : Nat) (w : Word32)
  /-- TRAINING_FRAME_REQUEST (R151): A receiver asks for immediate training frames and the transmitter sends them within 1 µs. -/
  | trainingFrameRequest (b : Nat)
  /-- MISLOCK_ATTEMPT_DONE (R168): A sweep attempt ends, clearing the mislock or retrying or retiring the channel. -/
  | mislockAttemptDone (b l : Nat) (tr rr : List Nat)
  /-- FLIT_RECEIVED (R184): A flit is decoded, checked, accepted in order or NAKed, and its ACK and credits applied. -/
  | flitReceived (b : Nat) (svc : Bool) (bs : List Byte)
  /-- NAK_RECEIVED (R194): A NAK makes the transmitter replay every buffered flit after the one named. -/
  | nakReceived (b : Nat) (svc : Bool) (ack : Nat)
  /-- NAK_REPEAT_TIMEOUT (R194): The receiver repeats its NAK every 250 ns until the expected flit arrives. -/
  | nakRepeatTimeout (b : Nat) (svc : Bool)
  /-- WRITE (R189): A WRITE packet is checked and its payload written, answered by COMPLETION. -/
  | write (p : OPkt)
  /-- READ (R189): A READ packet is checked and answered with READ_DATA. -/
  | read (p : OPkt) (fs : List LineFind) (e : Ecc)
  /-- READ_DATA (R188): READ_DATA for a tag is received and its payload delivered. -/
  | readData (p : OPkt)
  /-- SIGNAL (R198): A SIGNAL packet adds ARG to the counter after earlier ordered writes. -/
  | signal (p : OPkt) (fs : List LineFind) (e : Ecc)
  /-- COMPLETION (R188): A COMPLETION for a tag is received and completes its request. -/
  | completion (p : OPkt)
  /-- MGMT (R196): A management message is received on VC7 and handled. -/
  | mgmt (p : OPkt) (term kind : Nat) (fields : List Nat)
  /-- PORT_PARTIAL_RESET (R201): A side's port logic is reset, incrementing LOCAL_EPOCH and starting retraining. -/
  | portPartialReset (port side : Nat)
  /-- START (R203): A training START is accepted or ignored as stale, starting the handshake. -/
  | start (port side : Nat) (m : TrainMsg)
  /-- START_REPEAT (R204): A side repeats START every 1 µs until it accepts the peer's. -/
  | startRepeat (port side : Nat)
  /-- PORT_LANE_TEST_DONE (R204): The 4 µs PRBS lane test ends; spares are assigned and PROPOSE is sent. -/
  | portLaneTestDone (port side : Nat) (failed : List (Nat × Nat))
  /-- PROPOSE (R204): A PROPOSE is received and compared, leading to CONFIRM or a capped restart. -/
  | propose (port side : Nat) (m : TrainMsg)
  /-- CONFIRM (R204): A CONFIRM makes the port ACTIVE at the agreed width at the next flit boundary. -/
  | confirm (port side : Nat) (m : TrainMsg)
  /-- HANDSHAKE_TIMEOUT (R204): A handshake not confirmed within 100 µs fails. -/
  | handshakeTimeout (port side : Nat)
  /-- PORT_FAIL_COUNT_RESET (R205): A port ACTIVE for 1 s resets its failed-handshake count. -/
  | portFailCountReset (port : Nat)
  /-- PLL_LOSS_OF_LOCK (R210): The active PLL loses lock and the tree switches to the other PLL. -/
  | pllLossOfLock (site cause : Nat)
  /-- PLL_STANDBY_READY (R210): A relocked PLL that held lock for 10 s becomes standby. -/
  | pllStandbyReady (site : Nat)
  /-- PLL_FAIL (R210): A PLL that fails to relock within 1 s is given up. -/
  | pllFail (site : Nat)
  /-- REF_FALLBACK (R211): The hub tone is lost and the PLL falls back to a peer's service framing. -/
  | refFallback (site : Nat)
  /-- REF_RESTORED (R211): 10 ms after the hub tone reappears the PLL returns to it. -/
  | refRestored (site : Nat)
  /-- REF_LOST (R211): No usable input remains and the PLL holds its frequency. -/
  | refLost (site : Nat)
  /-- DROOP_TRIP (R217): A rood's droop detector trips and its next period is stretched, or denied at the limit. -/
  | droopTrip (site id : Nat)
  /-- ROOD_HOLD_EXPIRY (R218): 10 ms without a denied stretch returns the rood to its set frequency. -/
  | roodHoldExpiry (site id : Nat)
  /-- ROOD_STOP (R220): A cluster rood stops at its period boundary to load a new ROOD_DIV. -/
  | roodStop (site id : Nat)
  /-- ROOD_FREQ (R220): The rood restarts at the new frequency with its cycle counter unchanged. -/
  | roodFreq (site id : Nat)
  /-- TIME_MARK_SEND (R226): The hub sends a time mark on each hub bundle every 1 µs of GTC. -/
  | timeMarkSend
  /-- TIME_MARK_RECEIVED (R226): A receiver accepts a time mark, computes its offset and adopts the rate. -/
  | timeMarkReceived (site : Nat) (m : Mark) (own : Bool) (latched : Word)
  /-- DELAY_ECHO (R227): A receiver echoes a mark and the hub measures DELAY as half the round trip. -/
  | delayEcho (site roundTrip turnaround : Nat) (lambda16 : Bool)
  /-- GTC_HOLDOVER (R229): A die that cannot accept marks holds over at its last rate. -/
  | gtcHoldoverEv (site cause : Nat)
  /-- TIME_SRC_CHANGE (R230): The hub switches between primary and fallback time sources by their timers. -/
  | timeSrcChange (toPrimary : Bool)
  /-- PTP_MESSAGE (R231): The hub processes an IEEE 1588 message as a boundary clock. -/
  | ptpMessage (m : PtpMsg)
  /-- PTM_DIALOGUE (R232): Every 1 ms the device runs a PTM dialogue and disciplines GTC. -/
  | ptmDialogue (ok : Bool) (master : Nat)
  /-- COUNTER_EXTENSION_POLL (R240): Controller firmware reads every raw counter at least each 60 s and extends it. -/
  | counterExtensionPoll
  /-- STALEMATE (R261): The detector reports a partition whose cores have made no progress for its window. -/
  | stalemate (pt st : Nat)
  /-- DESC_ENGINE_TURN (R271): A descriptor engine serves one packet from the next queue in rotation, waiting for handles or thresholds. -/
  | descEngineTurn (unit : Nat) (fs : List LineFind) (e : Ecc)
  /-- DESCRIPTOR_COMPLETION (R271): A descriptor completes and its token becomes DONE with the completion status. -/
  | descriptorCompletion (st h : Nat)
  /-- DESC (R274): The hub receives a DESC packet, assigns a DSEQ and enqueues the descriptor. -/
  | desc (p : OPkt)
  /-- TXDATA (R274): The hub receives put data from a die and sends fabric DATA. -/
  | txdata (p : OPkt)
  /-- COMP (R274): A die receives a completion value for a handle. -/
  | comp (p : OPkt)
  /-- RXDATA (R274): A die writes arriving data and answers with a COMPLETION commit. -/
  | rxdata (p : OPkt)
  /-- RXSIGNAL (R283): A die performs an atomic signal addition and answers with a commit. -/
  | rxsignal (p : OPkt) (fs : List LineFind) (e : Ecc)
  /-- RXREAD (R274): A die reads local data for the hub and answers with RDDATA. -/
  | rxread (p : OPkt) (fs : List LineFind) (e : Ecc)
  /-- RDDATA (R274): The hub receives data read for an RXREAD. -/
  | rddata (p : OPkt)
  /-- HQCREDIT (R66): A die receives hub-queue credits, releasing a waiting DPOST. -/
  | hqcredit (p : OPkt)
  /-- FAB_DATA (R283): A fabric DATA packet is checked, committed and its held signal released when ordering allows. -/
  | fabData (p : FabPkt) (a : Arr) (grp : Nat)
  /-- FAB_READ (R282): A fabric READ is performed after lower DSEQs commit and answered with READ_DATA. -/
  | fabRead (p : FabPkt) (a : Arr)
  /-- FAB_READ_DATA (R278): A fabric READ_DATA is written to the GET's local destination. -/
  | fabReadData (p : FabPkt) (a : Arr)
  /-- FAB_COMPLETE (R296): A fabric COMPLETE arrives and completes its descriptor or child of a tree. -/
  | fabComplete (p : FabPkt) (a : Arr)
  /-- FAB_ACK (R286): An ACK updates cumulative and selective acknowledgement and the peer's RATE. -/
  | fabAck (p : FabPkt) (a : Arr)
  /-- FAB_BARRIER (R297): A fabric barrier arrival or release is received from the tree. -/
  | fabBarrier (p : FabPkt) (a : Arr)
  /-- FAB_MGMT (R298): A MGMT packet between packages is received and its command taken once. -/
  | fabMgmt (p : FabPkt) (a : Arr) (m : FmMsg) (isAnswer : Bool)
  /-- ACK_SEND_TIMEOUT (R286): The receiver sends an ACK 1 µs after the oldest unacknowledged arrival or after 64 arrivals. -/
  | ackSendTimeout (pkg stream : Nat)
  /-- RETRANSMIT_TIMEOUT (R287): A packet's ACK timer expires and it is retransmitted on another port. -/
  | retransmitTimeout (pkg stream seq : Nat)
  /-- PATH_PROBE (R288): While a path is FAILED the oldest packet is retransmitted every 1 ms. -/
  | pathProbe (pkg : Nat)
  /-- RATE_INCREASE (R291): Every 10 µs without CE a peer's RATE rises by 256 Gbit/s. -/
  | rateIncrease (pkg : Nat)
  /-- PFC_PAUSE_RECEIVED (R292): A received 802.1Qbb pause or resume frame halts or restarts a priority. -/
  | pfcPauseReceived (port prio : Nat) (pause : Bool)
  /-- DRAIN_COMPLETE (R281): A draining port's queue empties or 50 µs pass and the port goes down. -/
  | drainComplete (port : Nat)
  /-- TEARDOWN_REPORT_TIMEOUT (R299): The manager emits JOB_TORN after all members report or 10 ms, fencing non-reporters. -/
  | teardownReportTimeout (id : Nat)
  /-- TELEMETRY_RECORD (R304): Every 1 ms the fabric engine writes one telemetry record per port. -/
  | telemetryRecord (port : Nat)
  /-- REQUEST_FRAME (R312): A UDP frame at REQ_PORT is checked and its records admitted in order. -/
  | requestFrame (port ip peerPort : Nat) (bs : List Byte) (fs : List LineFind)
  /-- OPEN (R317): An OPEN record takes the lowest FREE session and replies with session and nonce. -/
  | openRec (host : Bool) (ip port session nonce : Nat) (rec : List Byte) (fs : List LineFind)
  /-- CLOSE (R317): A CLOSE record moves its session to CLOSING and is answered OK. -/
  | closeRec (host : Bool) (ip port session nonce : Nat) (rec : List Byte) (fs : List LineFind)
  /-- PING (R322): A PING record is answered by the engine. -/
  | ping (host : Bool) (ip port session nonce : Nat) (rec : List Byte) (fs : List LineFind)
  /-- INFER (R322): An INFER record is admitted through the checks into the open batch or answered. -/
  | infer (host : Bool) (ip port session nonce : Nat) (rec : List Byte) (fs : List LineFind)
  /-- UPDATE (R322): An UPDATE record is admitted through the checks into the open batch or answered. -/
  | updateRec (host : Bool) (ip port session nonce : Nat) (rec : List Byte) (fs : List LineFind)
  /-- HOST_RING_PIP (R315): A ring of host-to-device pip 31 makes the engine take host ring entries while reply room allows. -/
  | hostRingPip (fs : List LineFind)
  /-- BATCH_CLOSE (R323): The open batch closes at its span, when full, or at its deadline less EST. -/
  | batchClose
  /-- BATCH_DISPATCH (R325): A closed batch whose slot is free is written, numbered and signalled to the plan. -/
  | batchDispatch
  /-- BATCH_RETURN (R326): A signal to a return counter marks the batch returned; replies are sent and the slot freed. -/
  | batchReturn (fs : List LineFind)
  /-- DEADLINE_MISS (R324): A request without a reply at its deadline is answered DEADLINE_MISS. -/
  | deadlineMiss
  /-- SESSION_IDLE_TIMEOUT (R317): A session idle for IDLE ms with nothing outstanding becomes FREE. -/
  | sessionIdleTimeout (n : Nat) (fs : List LineFind)
  /-- MW15_WRITE (R338): A write of MW15 with FULL clear sends the mailbox message and interrupts the receiver. -/
  | mw15Write (v : Word32)
  /-- M2H_RELEASE (R338): Writing M2H_RELEASE releases a held answer. -/
  | m2hRelease (v : Word32)
  /-- H2D_RING (R341): Rings host-to-device pips, which post to their bound semaphores unless held. -/
  | h2dRing (v : Word32)
  /-- D2H_TAKE (R343): The host takes device-to-host pips, clearing their pending bits. -/
  | d2hTake (v : Word32)
  /-- D2H_MASK_WRITE (R344): Writing D2H_MASK masks or unmasks pip vectors, sending any whose cause stands. -/
  | d2hMaskWrite (v : Word32)
  /-- VEC_MASK_WRITE (R344): Writing VEC_MASK masks or unmasks vectors 32 to 36, sending any whose cause stands. -/
  | vecMaskWrite (v : Word32)
  /-- WV_READ (R346): WV_SELECT with WRITE 0 copies a wide item into WV_DATA. -/
  | wvRead (v : Word32)
  /-- WV_WRITE (R346): WV_SELECT with WRITE 1 applies WV_DATA to a wide item, or ends REFUSED. -/
  | wvWrite (v : Word32)
  /-- WV_COMPLETE (R346): A wide-value access leaves BUSY and vector 36 is sent. -/
  | wvComplete
  /-- EVQ_CONS_WRITE (R351): Writing EVQ_CONS frees records and writes an EVQ_LOST record when records were lost. -/
  | evqConsWrite (v : Word32)
  /-- REGISTER_WRITE (R334): A BAR0 write to a register with no row of its own is applied or rejected. -/
  | registerWrite (off be : Nat) (v : Word32)
  /-- BAR2_READ (R331): A host read through BAR2 returns HBM4 data, poison, or an error by line. -/
  | bar2Read (x n : Nat) (fs : List LineFind)
  /-- BAR2_WRITE (R331): A host write through BAR2 writes HBM4 lines or is discarded by line. -/
  | bar2Write (x : Nat) (bs : List Byte) (ep : Bool) (fs : List LineFind)
  /-- PARITY_SWEEP (R335): Every 1 ms configuration parity is checked; a mismatch puts the block in its safe state and rewrites it. -/
  | paritySweep (found : Option (Nat × Nat × Nat)) (rewriteFails : Nat)
  /-- OOB_DATAGRAM (R361): An out-of-band datagram is deduplicated by CHAN_SEQ and its command taken or answered from the kept answer. -/
  | oobDatagram (peer port seq ver : Nat) (ws : List Word32)
  /-- OOB_PEER_EXPIRY (R361): A peer silent for 60 s loses its slot. -/
  | oobPeerExpiry (peer : Nat)
  /-- FM_MESSAGE (R362): A fabric-manager message is checked for term and FM_SEQ and acted on once. -/
  | fmMessage (m : FmMsg) (isAnswer : Bool)
  /-- SMB_BLOCK_WRITE (R476): SMBus code 0x01 submits a request. -/
  | smbBlockWrite (count : Nat) (pecOk : Bool) (ws : List Word32)
  /-- SMB_BLOCK_READ (R475): SMBus code 0x02 reads and releases the held answer. -/
  | smbBlockRead
  /-- SMB_READ_BYTE (R475): SMBus code 0x03 reads the status byte. -/
  | smbReadByte
  /-- SMB_ALERT_RESPONSE (R476): The package answers the Alert Response Address with its own address. -/
  | smbAlertResponse
  /-- PREPARE (R364): A controller receives PREPARE, checks the command and holds it. -/
  | prepare (site term op : Nat) (r : Req) (accepts : Bool)
  /-- COMMIT (R364): A controller applies a held command on a COMMIT of a current term. -/
  | commit (site term : Nat)
  /-- ABORT (R364): A controller discards a held command on ABORT. -/
  | abortCmd (site term : Nat)
  /-- PREPARE_TIMEOUT (R364): A controller that does not answer PREPARE within 1 ms abandons the command as FAILED. -/
  | prepareTimeout (site : Nat)
  /-- CONTROLLER_STATUS (R354): A controller's periodic status message reaches the active processor and carries the term. -/
  | controllerStatus (site : Nat)
  /-- CONTROLLER_UNRESPONSIVE (R405): A controller silent for 1 ms is declared unresponsive and reloaded. -/
  | controllerUnresponsive (site : Nat)
  /-- CTRL_RESTART (R405): A reloaded controller answers and passes its checks within 100 ms, or its unit is fenced. -/
  | ctrlRestart (site us : Nat) (pass : Bool)
  /-- JOURNAL_RESOLUTION (R366): 2 ms after a takeover the new processor resolves every unanswered journal entry. -/
  | journalResolution
  /-- NOP_COMMAND (R368): Command NOP does nothing and answers OK. -/
  | nopCommand (r : Req)
  /-- CMD_RESULT (R360): Reads a finished ticket's outcome and frees it. -/
  | cmdResult (r : Req)
  /-- MP_STATUS (R368): Returns processor, role, pod state, term and ticket status. -/
  | mpStatus (r : Req)
  /-- IDENT_READ (R368): Returns a site's identity fuse block. -/
  | identRead (r : Req)
  /-- PART_FORM (R371): Forms a partition on whole stacks with a mode and owner channel. -/
  | partForm (r : Req)
  /-- PART_DISSOLVE (R77): Dissolves a partition with no job and no running plan. -/
  | partDissolve (r : Req)
  /-- PART_WINDOW (R125): Sets or clears a partition address window, held for the job boundary. -/
  | partWindow (r : Req)
  /-- PART_OVERLAY (R374): Holds a new overlay mode for the partition's job boundary. -/
  | partOverlay (r : Req)
  /-- PART_STALEMATE (R262): Holds a new STALEMATE_CFG for the job boundary. -/
  | partStalemate (r : Req)
  /-- PART_APPLY (R371): Makes a job boundary on a partition that holds no job, applying held values. -/
  | partApply (r : Req)
  /-- PART_REPORT (R368): Returns a partition's stacks, mode, plan and job state, RUN and cores. -/
  | partReport (r : Req)
  /-- PLAN_LOAD (R48): Loads a plan from HBM4 onto a partition or refuses it. -/
  | planLoad (r : Req) (fs : List LineFind)
  /-- PLAN_START (R52): Starts a loaded plan for a run count, resetting barrier state and advancing RUN. -/
  | planStart (r : Req)
  /-- PLAN_STOP (R51): Stop-lane command that aborts a running plan with STOPPED. -/
  | planStop (r : Req)
  /-- PLAN_UNLOAD (R368): Unloads a loaded plan. -/
  | planUnload (r : Req)
  /-- CTX_SAVE (R75): Saves a core's context and optionally scratch and slice to HBM4. -/
  | ctxSave (r : Req) (es el : Ecc)
  /-- CTX_RESTORE (R76): Restores a core's context, flags included, from HBM4. -/
  | ctxRestore (r : Req) (fs : List LineFind)
  /-- CTX_RESET (R76): Resets a core's context to zero with FP-mode tiles. -/
  | ctxReset (r : Req)
  /-- CORE_RETIRE (R80): Retires a core at a plan boundary by copying it to its pool's spare. -/
  | coreRetire (r : Req) (spare : LaneFind)
  /-- SYNC_READ (R368): Reads a semaphore, barrier slot or combiner state. -/
  | syncRead (r : Req)
  /-- SYNC_WRITE (R259): A privileged write to a synchronisation object or combiner, emitting SYNC_FORCED. -/
  | syncWrite (r : Req)
  /-- DEBUG_CTL (R449): Attaches, detaches or resumes a debugger on a core of a DIAG partition. -/
  | debugCtl (r : Req)
  /-- MEM_STATUS (R368): Returns a stack's memory sparing status. -/
  | memStatus (r : Req)
  /-- MEM_GRANULES (R137): Writes a stack's published granule list to a buffer. -/
  | memGranules (r : Req)
  /-- MEM_SCRUB (R126): Sets a group's patrol pass time. -/
  | memScrub (r : Req)
  /-- PHO_CHANNEL (R156): Returns a channel status word. -/
  | phoChannel (r : Req)
  /-- PHO_CAL (R163): Places a channel calibration at the head of the order. -/
  | phoCal (r : Req)
  /-- PORT_STATUS (R207): Returns a down port's status word. -/
  | portStatus (r : Req)
  /-- PORT_RETRAIN (R205): Starts retraining of a down port. -/
  | portRetrain (r : Req)
  /-- TIME_STATUS (R238): Returns a site's time status word. -/
  | timeStatus (r : Req)
  /-- PIP_IN_BIND (R341): Binds or unbinds a host-to-device pip to a core semaphore. -/
  | pipInBind (r : Req)
  /-- PIP_OUT_BIND (R342): Binds or unbinds a device-to-host pip to an HBM4 counter. -/
  | pipOutBind (r : Req)
  /-- HQ_ASSIGN (R66): Assigns or unassigns a hub queue to a partition or the request engine, sharing credits. -/
  | hqAssign (r : Req)
  /-- ETH_PORT_CFG (R277): Sets an Ethernet port's mode and NEXT_HOP MAC at a packet boundary. -/
  | ethPortCfg (r : Req)
  /-- ETH_PORT_DRAIN (R281): Drains an Ethernet port or returns it to service. -/
  | ethPortDrain (r : Req)
  /-- ENG_DIR_PUT (R320): Puts a directory entry, effective at moment M, finishing when older batches return. -/
  | engDirPut (r : Req) (fs : List LineFind)
  /-- ENG_DIR_DELETE (R320): Deletes a directory entry under the rules of moment M. -/
  | engDirDelete (r : Req) (fs : List LineFind)
  /-- ENG_DIR_GET (R319): Returns a directory entry. -/
  | engDirGet (r : Req) (fs : List LineFind)
  /-- ENG_BUCKET_CLEAR (R327): Rewrites a bucket with four invalid ways, clearing poison and STATE_FAULT answers. -/
  | engBucketClear (r : Req)
  /-- ENG_SESSION_READ (R316): Returns a session entry. -/
  | engSessionRead (r : Req) (fs : List LineFind)
  /-- ENG_SESSION_CLOSE (R317): Closes a session as a CLOSE record would. -/
  | engSessionClose (r : Req) (fs : List LineFind)
  /-- POD_FORM (R489): The manager forms a pod from a checked pod description. -/
  | podForm (r : Req) (fs : List LineFind)
  /-- JOB_LAUNCH (R489): The manager checks a job description, builds tables and trees and launches the job. -/
  | jobLaunch (r : Req) (fs : List LineFind)
  /-- JOB_END (R299): Stop-lane command that ends a job by teardown, forwarded to the manager from a worker. -/
  | jobEnd (r : Req)
  /-- CAP_ADD (R300): Adds a package to the pod in a new epoch. -/
  | capAdd (r : Req) (fs : List LineFind)
  /-- CAP_REMOVE (R302): Removes a package or die, refused while jobs hold ranks there unless FORCE. -/
  | capRemove (r : Req)
  /-- POD_STATE (R375): Sets the pod state at the manager. -/
  | podState (r : Req)
  /-- FAB_MAP (R305): Collects a package's congestion map into a buffer. -/
  | fabMap (r : Req)
  /-- ROLE_SET (R375): Names the pod's manager and standby and sets this package's role. -/
  | roleSet (r : Req)
  /-- FAB_ADDR_WRITE (R267): Worker writes an address table entry. -/
  | fabAddrWrite (r : Req)
  /-- FAB_RANK_WRITE (R266): Worker writes rank table entries. -/
  | fabRankWrite (r : Req)
  /-- FAB_GROUP_WRITE (R293): Worker writes group table entries. -/
  | fabGroupWrite (r : Req)
  /-- FAB_JOB_SET (R265): Worker writes a job record. -/
  | fabJobSet (r : Req)
  /-- FAB_JOB_ACTIVATE (R371): Worker makes a job ACTIVE, a job boundary of its partition. -/
  | fabJobActivate (r : Req)
  /-- FAB_TEARDOWN (R299): Worker tears down a job and reports TORN_DONE. -/
  | fabTeardown (r : Req)
  /-- FAB_FENCE (R295): Worker adopts a new fence generation and fence state. -/
  | fabFence (r : Req)
  /-- FAB_EPOCH (R300): Worker adopts a new fabric epoch. -/
  | fabEpoch (r : Req)
  /-- FAB_POD_STATE (R375): Worker adopts the pod state. -/
  | fabPodState (r : Req)
  /-- FAB_HEARTBEAT (R376): Worker answers the manager's heartbeat with HEALTH and CORES. -/
  | fabHeartbeat (r : Req)
  /-- FAB_MAP_REQ (R305): Worker answers a congestion map request. -/
  | fabMapReq (r : Req)
  /-- FAB_DRAIN_NOTICE (R302): Worker emits JOB_DRAIN_REQUEST for its host. -/
  | fabDrainNotice (r : Req)
  /-- FAB_PATH_REPORT (R289): Manager receives a worker's path failure or restore report. -/
  | fabPathReport (r : Req)
  /-- JOB_END_FWD (R370): Manager receives a forwarded JOB_END and tears the job down. -/
  | jobEndFwd (r : Req)
  /-- CFG_READ (R368): Returns an item's effective and held values. -/
  | cfgRead (r : Req)
  /-- CFG_WRITE (R368): Writes a configuration item at run time under its access codes. -/
  | cfgWriteCmd (r : Req)
  /-- CTR_READ (R448): Reads an extended counter, subject to scope privilege. -/
  | ctrRead (r : Req)
  /-- TEST_RUN (R454): Runs, defers or forces a channel, die-granular, measurement or trace test. -/
  | testRun (r : Req)
  /-- TEST_DONE (R457): A test finishes, its result word is set and TEST_FAIL emitted per failed unit. -/
  | testDone (tk : Nat) (f : TestFind)
  /-- TRACE_SAMPLE (R451): Every 10 µs TRACE_PC samples one core, stalling its cluster 2 cycles. -/
  | traceSample (site : Nat)
  /-- ATB_DISCONNECT (R459): A measured node disconnects from its test land after 10 s. -/
  | atbDisconnect (die bus : Nat)
  /-- MP_DRILL (R414): Hands control to the standby, runs its four checks and returns the result. -/
  | mpDrill (r : Req) (failed site heldMs : Nat)
  /-- POWER_STATE (R384): Moves the package between RUN, IDLE and DEEP. -/
  | powerState (r : Req) (edge : Bool) (storeBad : List Nat)
  /-- WAKE (R388): A DEEP package powers up, restarts photonics, trains memory, clears memories and trains ports. -/
  | wake (f : StartFind)
  /-- POWER_BUDGET (R380): Sets the package budget. -/
  | powerBudget (r : Req)
  /-- BUDGET_RECOMPUTE (R381): Each second, or on change, the processor divides the KC pool among dies. -/
  | budgetRecompute
  /-- GRANT (R382): A die applies an increased or decreased budget grant and acknowledges decreases. -/
  | grant (n w seq : Nat)
  /-- GRANT_ACK (R382): The processor receives a decrease acknowledgement and frees the watts. -/
  | grantAck (n seq : Nat)
  /-- REQUEST (R382): The processor receives a die's request for 38 W and grants it from unallocated pool. -/
  | request (n w : Nat)
  /-- RETURN (R382): The processor receives a die's returned watts. -/
  | returnWatts (n w : Nat)
  /-- PWR_PHASE_LOST (R379): A regulator phase fails and a spare takes over, or the grant ceiling is lowered. -/
  | pwrPhaseLost (site kind phases : Nat)
  /-- ROOD_REGATE (R385): An IDLE rood ungated by an external access gates again after 100 µs. -/
  | roodRegate (site id : Nat)
  /-- THERMAL_CAP_STEP (R391): Every 10 ms a throttled or recovering cap or budget moves by one step. -/
  | thermalCapStep (site : Nat)
  /-- THERMAL_RESTART (R391): A unit shut down for temperature restarts after its neighbours stay cool for 1 s. -/
  | thermalRestart (site : Nat) (pass : Bool)
  /-- MP_HEARTBEAT (R409): Each processor increments its heartbeat word every 500 µs. -/
  | mpHeartbeat (b : Bool)
  /-- MP_TAKEOVER (R409): The active heartbeat stalls 5 ms and the standby takes control with a new term. -/
  | mpTakeover
  /-- STANDBY_FAULT (R409): The standby heartbeat stalls 5 ms and the standby is held in reset. -/
  | standbyFault
  /-- TAKEOVER_RESET_TIMER (R410): 2 ms after a takeover the hub holds the former processor in reset. -/
  | takeoverResetTimer
  /-- STANDBY_READY (R411): A processor's self-check completes, making it standby or retrying after 60 s. -/
  | standbyReady (pass : Bool)
  /-- MP_RETURN (R412): A processor healthy as standby for 10 s takes control back. -/
  | mpReturn
  /-- MP_WATCHDOG (R413): With no healthy standby, 50 ms of missed heartbeats reset the active processor. -/
  | mpWatchdog
  /-- FM_HEARTBEAT_SEND (R376): The manager sends FAB_HEARTBEAT to every worker each 1 ms and judges silent workers dead. -/
  | fmHeartbeatSend
  /-- MANAGER_LOST (R376): A worker without heartbeats for 5 ms raises MANAGER_LOST. -/
  | managerLost
  /-- FM_LEASE_EXPIRY (R418): The manager's lease expires 3 ms after its last acknowledgement and it stops commanding. -/
  | fmLeaseExpiry
  /-- FM_TAKEOVER (R418): After 5 missing heartbeats the standby manager takes the role and resends outstanding commands. -/
  | fmTakeover (held : List HeldCmd)
  /-- FM_RETURN (R419): The former manager package takes the role back after 10 s of health. -/
  | fmReturn
  /-- GUEST_PACKET (R422): The firewall checks a guest packet and forwards or refuses it. -/
  | guestPacket (p : OPkt) (fs : List LineFind) (e : Ecc)
  /-- GUEST_LINK_DOWN (R423): The UCIe link goes down and the loss is counted. -/
  | guestLinkDown
  /-- UPD_STAGE (R430): Verifies a set from the SD card and copies it into the inactive bank. -/
  | updStage (r : Req) (sd : Option (List Byte)) (writeOk : Bool)
  /-- UPD_ACTIVATE (R432): Switches the selector and reloads every controller and processor in service. -/
  | updActivate (r : Req)
  /-- ACTIVATION_RELOAD_DONE (R432): One reload of the roll passes its checks and the next reload begins, or the roll reverts. -/
  | activationReloadDone (pass : Bool) (fuseFails : Option Nat)
  /-- UPD_LOCK (R439): Sets or clears the update lock. -/
  | updLock (r : Req)
  /-- ATTEST (R443): Writes a signed attestation report to a buffer. -/
  | attest (r : Req)
  /-- RCV_BEGIN (R440): Recovery: begins a mailbox image of the given size. -/
  | rcvBegin (r : Req)
  /-- RCV_DATA (R440): Recovery: writes image bytes at an offset. -/
  | rcvData (r : Req)
  /-- RCV_END (R440): Recovery: checks the image, writes the selector and restarts. -/
  | rcvEnd (r : Req) (f : StartFind)
  /-- RCV_FROM_SD (R440): Recovery: installs the image from the SD card and restarts. -/
  | rcvFromSd (r : Req) (f : StartFind)
  /-- ALWAYS_ON_DOMAIN_UP (R469): VIN12 is applied and the always-on domain comes up within 2 ms, counting GTC and holding its latches in OFF whether or not a start follows. -/
  | alwaysOnDomainUp
  /-- PERST_RELEASE (R469): Release of PERST# lets PCI Express link training begin. -/
  | perstRelease
  /-- PCIE_LINK_CHANGE (R469): The PCI Express link comes up or goes down, or changes rate or width, which starts or stops BAR0 service and updates LINKS bit 18. -/
  | pcieLinkChange (up rated : Bool)
  /-- ETH_LINK_DOWN (R280): An Ethernet port loses its link, for example when its fibre block is disconnected, so flows move to other ports and queued frames are lost. -/
  | ethLinkDown (port : Nat)
  /-- ETH_LINK_UP (R177): An Ethernet port completes 802.3dj training with its partner and returns to service. -/
  | ethLinkUp (port : Nat)
  /-- OOB_LINK_CHANGE (R347): The out-of-band port's link goes up or down, changing LINKS bit 16 and the FM and OOB command paths. -/
  | oobLinkChange (up : Bool)
  /-- GUEST_LINK_UP (R423): The UCIe link to the guest die comes up, setting LINKS bit 17. -/
  | guestLinkUp
  /-- HBM_INTERFACE_ERROR (R135): An HBM4 interface error makes a channel retrain, and the channel is spared when it fails training. -/
  | hbmInterfaceError (m ch : Nat) (trains : Bool)
  /-- LANE_MONITOR_FAILURE (R205): The lane monitors of either side of a down port find a failed lane and the port retrains. -/
  | laneMonitorFailure (port side : Nat)
  /-- COMPARATOR_CLEAR (R388): A tripped coolant inlet or VIN12 window comparator clears, releasing a held wake and ending the trip. -/
  | comparatorClear (vin : Bool)
  /-- REFCLK_RETURN (R211): REFCLK returns to the KH die after a loss and its root PLL leaves holdover. -/
  | refclkReturn
  /-- MSIX_TABLE_WRITE (R344): A host write to the MSI-X table in BAR4 unmasks a vector and sends it when its cause stands. -/
  | msixTableWrite (vec w : Nat) (v : Word32)
  /-- FENCE_BITMAP_RESEND (R489): The manager receives a worker's request to resend the full fence bitmap after a generation gap. -/
  | fenceBitmapResend (pkg gen eps : Nat) (pkgs : List Nat)
  /-- EGRESS_FRAME_SENT (R290): A frame leaves an Ethernet port, lowering the queue so that closed BULK or ORDERED thresholds reopen and waiting packets proceed. -/
  | egressFrameSent (port : Nat)
  deriving DecidableEq, Repr

end Sys2Proof
end

