-- ==== Sys2Proof/Config.lean ====
section
/-! DEFINITION. Config.lean: what the spec leaves open, as constants without a body (notes/assumptions/8 and 10). -/
namespace Sys2Proof.Config

/-- A 64-bit free value, drawn at a place of the counter `fresh` of State (log 8). -/
opaque freeWord : Nat → BitVec 64
/-- A byte left open (log 8). -/
opaque freeByte : Nat → BitVec 8
/-- A choice left open (log 8). -/
opaque freeBit : Nat → Bool
/-- SLH-DSA-SHA2-128s verification of a signature over a message under a public key (spec/15 R426; log 10). -/
opaque slhVerify : List (BitVec 8) → List (BitVec 8) → List (BitVec 8) → Bool
/-- The package's identity public key, derived from the device secret (R441; log 10). -/
opaque identityPk : List (BitVec 8)
/-- The identity signature over a message (R443; log 10). -/
opaque identitySign : List (BitVec 8) → List (BitVec 8)
/-- The ROM's SHA-256 hashes of the four image-signing keys (R427; log 10). -/
opaque romKeyHash : Nat → List (BitVec 8)
/-- The format number of the settings record that an image's version reads and writes (spec/15 R438). -/
opaque settingsFormat : Nat → Nat
/-- The rood that a region of a KC die's timing-margin map lies in, by silicon revision and region (spec/01 R38). -/
opaque regionRood : Nat → Nat → Nat
/-- The sensors of its tile by their distance from a ring, nearest first, of a bundle, a wavelength and its modulator 0 or filter 1: places that the spec
does not give (spec/05 R149; log 23). -/
opaque ringNear : Nat → Nat → Nat → List Nat
/-- The design-default calibration of a channel, by bundle, wavelength and field: TX_FSR, RX_FSR, TX_SPC, RX_SPC, and then the values of the five points (spec/01 R27,
spec/05 R178; log 23). -/
opaque designCal : Nat → Nat → Nat → Nat
/-- The correction in heater codes that a ring's loop takes for an error of its photocurrent (spec/05 R147; log 32). -/
opaque ringGain : Nat → Nat
/-- The 96 bits that open a training frame (spec/05 R151; log 32). -/
opaque trainPattern : BitVec 96
/-- The periods of SLOW on a die's start-up oscillator in 1 ms, trimmed to 250 MHz within 3 % (spec/07 R212; log 49). -/
opaque oscSlow : Nat → Nat
/-- The rate of the hub master that its discipline sets, in 2^-24 grain per TIME cycle (spec/07 R225, R230; log 43). -/
opaque hubRate : Nat → Int
/-- The hub's own dataset in the best master clock algorithm of IEEE 1588, behind its priority1 (spec/07 R231; log 43). -/
opaque ptpOwn : List Nat
/-- A port of IEEE 1588 sends its Sync in two steps (spec/07 R231; log 43). -/
opaque ptpTwoStep : Nat → Bool
/-- The body of a management message other than a time mark, by its kind and fields (spec/06 R196; log 49). -/
opaque mgmtBody : Nat → List Nat → List (BitVec 8)
/-- The DETAIL value FLASH_BAD (R424). -/
opaque flashBadDetail : Nat
/-- Izurrin's vendor ID on PCI Express (spec/11 R330; log 10). -/
opaque vendorId : BitVec 16
/-- Izurrin's manufacturer identity in IDCODE (spec/16 R460). -/
opaque manufacturerId : BitVec 11

/-- The bank in which a row of a pseudo-channel lies, and the number that reports give the row: internal to the controller and
fixed for each silicon revision (spec/04 R128). -/
opaque bankOf : Nat → Nat
opaque rowNumber : Nat → Nat

/-- The hash by which flows other than BULK choose a port, of the package and the class (spec/09 R280). -/
opaque flowHash : Nat → Nat → Nat
/-- The hash of the source package, the destination package and the class for UDP source ports (spec/09 R277; log 42). -/
opaque udpHash : Nat → Nat → Nat → Nat
/-- How far the number behind a BULK packet's UDP source port moves on, by its SEQ and FLAGS (spec/09 R277; log 42). -/
opaque sprayHash : Nat → Nat → Nat
/-- The flow label, or the identification, of an IP header by its datagram's length, which the spec leaves open (log 42). -/
opaque ipOpen : Nat → Nat
/-- Which die of a package a change of its CORES stands for, by the lower count and a number (spec/09 R289; log 41). -/
opaque diedOf : Nat → Nat → Nat → Nat
/-- The Ethernet address of a port (log 42). -/
opaque portMac : Nat → BitVec 48

end Sys2Proof.Config
end

