-- ==== Sys2Proof/Machine/Maps.lean ====
section
/-! DEFINITION. Maps.lean: reading and writing plain data held by number, and the bit-field and byte-order helpers. -/
namespace Sys2Proof.Machine

/-- The entry of key `k`, where there is one. -/
def mfind {α : Type} (m : Map α) (k : Nat) : Option α :=
  match m with
  | [] => none
  | (j, a) :: r => if j = k then some a else mfind r k

/-- The entry of key `k`, or `d`. -/
def mget {α : Type} (m : Map α) (d : α) (k : Nat) : α := (mfind m k).getD d

/-- `m` with key `k` holding `a`, in rising order. -/
def mset {α : Type} (m : Map α) (k : Nat) (a : α) : Map α :=
  match m with
  | [] => [(k, a)]
  | (j, b) :: r => if k < j then (k, a) :: (j, b) :: r else if k = j then (k, a) :: r else (j, b) :: mset r k a

/-- `m` without key `k`. -/
def mdel {α : Type} (m : Map α) (k : Nat) : Map α := m.filter (fun p => !(p.1 == k))

/-- `m` with the entry of `k` (or `d`) changed by `f`. -/
def mmod {α : Type} (m : Map α) (d : α) (k : Nat) (f : α → α) : Map α := mset m k (f (mget m d k))

/-- Every entry changed by `f`. -/
def mmap {α : Type} (m : Map α) (f : Nat → α → α) : Map α := m.map (fun p => (p.1, f p.1 p.2))

/-- Bits `lo` to `lo + n - 1` of a number. -/
def bitsN (w lo n : Nat) : Nat := w / 2 ^ lo % 2 ^ n

/-- Bit `i` of a number. -/
def bitN (w i : Nat) : Bool := w / 2 ^ i % 2 == 1

/-- 1 or 0. -/
def b2n (b : Bool) : Nat := if b then 1 else 0

/-- Bytes cut or filled with zeros to a length. -/
def fitBytes (n : Nat) (bs : List Byte) : List Byte := (bs ++ List.replicate n 0).take n

/-- The bytes of a number, least significant first (R6). -/
def leBytes (n : Nat) (w : Nat) : List Byte :=
  match n with
  | 0 => []
  | k + 1 => BitVec.ofNat 8 w :: leBytes k (w / 256)

/-- The number that bytes spell, least significant first (R6). -/
def leNat (bs : List Byte) : Nat :=
  match bs with
  | [] => 0
  | b :: r => b.toNat + 256 * leNat r

/-- A field of a list of bytes. -/
def fieldAt (bs : List Byte) (off n : Nat) : Nat := leNat ((bs.drop off).take n)

/-- A number in two's complement on `n` bits, read as signed. -/
def sext (n w : Nat) : Int := if w % 2 ^ n < 2 ^ (n - 1) then (w % 2 ^ n : Int) else (w % 2 ^ n : Int) - 2 ^ n

/-- An integer as `n` bits of two's complement. -/
def ofInt (n : Nat) (i : Int) : Nat := (i % (2 ^ n : Int)).toNat

/-- `i` limited to the range `lo` to `hi`. -/
def clampI (lo hi i : Int) : Int := if i < lo then lo else if hi < i then hi else i

/-- Serial-number comparison (R241): `a` is newer than `b` on `n` bits. -/
def newer (n a b : Nat) : Bool :=
  let d := (a % 2 ^ n + 2 ^ n - b % 2 ^ n) % 2 ^ n
  decide (1 ≤ d ∧ d ≤ 2 ^ (n - 1) - 1)

/-- `x` up to a multiple of `n`. -/
def ceilDiv (x n : Nat) : Nat := (x + n - 1) / n

/-- A list cut into pieces of `n`, for at most `fuel` pieces. -/
def chunks {α : Type} (fuel n : Nat) (l : List α) : List (List α) :=
  match fuel with
  | 0 => []
  | f + 1 => if l.isEmpty then [] else l.take n :: chunks f n (l.drop n)

/-- `a` put at the end of `l` unless it is there. -/
def addOnce (l : List Nat) (a : Nat) : List Nat := if l.contains a then l else l ++ [a]

/-- `l` without `a`. -/
def dropEl (l : List Nat) (a : Nat) : List Nat := l.filter (fun b => !(b == a))

/-- The number of set bits among the low `n`. -/
def popN (n w : Nat) : Nat := ((List.range n).filter (fun i => bitN w i)).length

/-- A bit mask of the listed numbers. -/
def maskOf (l : List Nat) : Nat := l.foldl (fun m i => if bitN m i then m else m + 2 ^ i) 0

/-- The numbers below `n` whose bit is set. -/
def onesOf (n w : Nat) : List Nat := (List.range n).filter (fun i => bitN w i)

end Sys2Proof.Machine
end

