-- ==== Sys2Proof/Machine/Crc.lean ====
section
/-! DEFINITION. Crc.lean: the check codes of the manual (spec/01 R477) and the hash of spec/02 R45. -/
namespace Sys2Proof.Machine

/-- One bit of a most-significant-bit-first CRC on 16 bits, polynomial `p`. -/
def crc16Bit (p : BitVec 16) (c : BitVec 16) : BitVec 16 := if c.msb then (c <<< 1) ^^^ p else c <<< 1

/-- `n` bits of the CRC. -/
def crc16Bits (n : Nat) (p c : BitVec 16) : BitVec 16 :=
  match n with
  | 0 => c
  | k + 1 => crc16Bits k p (crc16Bit p c)

/-- One input byte, most significant bit first (R477). -/
def crc16Byte (c : BitVec 16) (b : Byte) : BitVec 16 := crc16Bits 8 0x1021#16 (c ^^^ (b.zeroExtend 16 <<< 8))

/-- CRC-16 of R477: polynomial 0x1021, initial value 0xFFFF, nothing reflected, no final XOR. -/
def crc16 (bs : List Byte) : BitVec 16 := bs.foldl crc16Byte 0xFFFF#16

/-- One byte of CRC-8, most significant bit first, polynomial `p`. -/
def crc8Byte (p : Byte) (c b : Byte) : Byte :=
  (List.range 8).foldl (fun x _ => if x.msb then (x <<< 1) ^^^ p else x <<< 1) (c ^^^ b)

/-- One byte of the reflected CRC-32 of IEEE 802.3. -/
def crc32Byte (c : Word32) (b : Byte) : Word32 :=
  (List.range 8).foldl (fun x _ => if x.getLsbD 0 then (x >>> 1) ^^^ 0xEDB88320#32 else x >>> 1)
    (c ^^^ b.zeroExtend 32)

/-- CRC-32 (IEEE 802.3 form) of a byte string. -/
def crc32 (bs : List Byte) : Word32 := ~~~ (bs.foldl crc32Byte 0xFFFFFFFF#32)

/-- The largest root whose `k`-th power is at most `x`, found bit by bit from bit `n - 1`. -/
def rootBits (k x n r : Nat) : Nat :=
  match n with
  | 0 => r
  | m + 1 => rootBits k x m (if (r + 2 ^ m) ^ k ≤ x then r + 2 ^ m else r)

/-- The first 64 primes. -/
def shaPrimes : List Nat := (List.range 312).filter (fun p => decide (2 ≤ p) && (List.range p).all (fun q => decide (q < 2) || p % q != 0))

/-- 32 bits of the fraction of the `k`-th root of a prime. -/
def rootFrac (k p : Nat) : Word32 := BitVec.ofNat 32 (rootBits k (p * 2 ^ (32 * k)) 37 0)

/-- The round constants of SHA-256 (R45; FIPS 180-4): fractions of cube roots. -/
def shaK : List Word32 := shaPrimes.map (rootFrac 3)

/-- The eight words that SHA-256 starts from: fractions of square roots. -/
def shaH0 : List Word32 := (shaPrimes.take 8).map (rootFrac 2)

/-- The sum of rotations of a word. -/
def spin (w : Word32) (ns : List Nat) : Word32 := ns.foldl (fun a n => a ^^^ w.rotateRight n) 0

/-- The message schedule, newest first, `n` words longer. -/
def shaSched (n : Nat) (w : List Word32) : List Word32 :=
  match n with
  | 0 => w
  | k + 1 =>
    let old := w.getD 14 0
    let new := w.getD 1 0
    shaSched k ((w.getD 15 0 + w.getD 6 0 + (spin old [7, 18] ^^^ (old >>> 3)) + (spin new [17, 19] ^^^ (new >>> 10))) :: w)

/-- The working words of a round: two runs of four, newest first. -/
structure ShaRun where
  top : List Word32
  low : List Word32

/-- One round: `m` is its word of the message with its constant added. -/
def shaRound (r : ShaRun) (m : Word32) : ShaRun :=
  let a (i : Nat) : Word32 := r.top.getD i 0
  let e (i : Nat) : Word32 := r.low.getD i 0
  let pick := e 2 ^^^ (e 0 &&& (e 1 ^^^ e 2))
  let vote := (a 0 &&& (a 1 ||| a 2)) ||| (a 1 &&& a 2)
  let t := m + e 3 + spin (e 0) [25, 11, 6] + pick
  { top := (t + vote + spin (a 0) [22, 13, 2]) :: r.top.take 3, low := (a 3 + t) :: r.low.take 3 }

/-- A 32-bit word from four bytes, most significant first. -/
def beWord32 (bs : List Byte) : Word32 := BitVec.ofNat 32 (leNat bs.reverse)

/-- One 64-byte block of SHA-256. -/
def shaBlock (h : List Word32) (blk : List Byte) : List Word32 :=
  let w := (shaSched 48 ((chunks 16 4 blk).map beWord32).reverse).reverse
  let r := (List.zipWith (· + ·) shaK w).foldl shaRound { top := h.take 4, low := h.drop 4 }
  List.zipWith (· + ·) h (r.top ++ r.low)

/-- The padded message of SHA-256. -/
def shaPad (bs : List Byte) : List Byte :=
  let n := bs.length
  bs ++ [0x80#8] ++ List.replicate ((119 - n % 64) % 64) 0#8 ++ (leBytes 8 (8 * n)).reverse

/-- SHA-256 of a byte string, as 32 bytes, first byte first. -/
def sha256 (bs : List Byte) : List Byte :=
  let p := shaPad bs
  let h := (chunks (p.length / 64 + 1) 64 p).foldl shaBlock shaH0
  h.flatMap (fun w => (leBytes 4 w.toNat).reverse)

end Sys2Proof.Machine
end

