-- ==== Sys2Proof/Machine/EventCodes.lean ====
section
/-! DEFINITION. EventCodes.lean: the CODE of each event, CLASS * 0x1000 + SUBSYSTEM * 0x100 + INDEX (spec/14 R406, R407; spec/15 R444; spec/16 R461). -/
namespace Sys2Proof.Machine.Ev

/-- FUSE_CRC. -/
def fuseCrc : Nat := 0x5000
/-- FUSE_BLANK. -/
def fuseBlank : Nat := 0x5001
/-- IDENT_MISMATCH. -/
def identMismatch : Nat := 0x5002
/-- SITE_MISPLACED. -/
def siteMisplaced : Nat := 0x5003
/-- CAL_CRC. -/
def calCrc : Nat := 0x3004
/-- MARGIN_LOW. -/
def marginLow : Nat := 0x3005
/-- MARGIN_CRC. -/
def marginCrc : Nat := 0x3006
/-- PLAN_ABORT. -/
def planAbort : Nat := 0x1100
/-- CORE_FENCED. -/
def coreFenced : Nat := 0x5101
/-- CORE_SPARED. -/
def coreSpared : Nat := 0x2102
/-- CORE_ABSENT. -/
def coreAbsent : Nat := 0x3103
/-- SRAM_UNCORRECTABLE. -/
def sramUncorrectable : Nat := 0x4200
/-- SCRUB_SLOW. -/
def scrubSlow : Nat := 0x1201
/-- VLANE_SPARED. -/
def vlaneSpared : Nat := 0x2202
/-- VC_HALF_WIDTH. -/
def vcHalfWidth : Nat := 0x3203
/-- HBM_UNCORRECTABLE. -/
def hbmUncorrectable : Nat := 0x4204
/-- HBM_ROW_SPARED. -/
def hbmRowSpared : Nat := 0x2205
/-- HBM_ROW_FENCED. -/
def hbmRowFenced : Nat := 0x5206
/-- HBM_CHANNEL_SPARING. -/
def hbmChannelSparing : Nat := 0x1207
/-- HBM_CHANNEL_SPARED. -/
def hbmChannelSpared : Nat := 0x2208
/-- HBM_SPARE_FAILED. -/
def hbmSpareFailed : Nat := 0x3209
/-- HBM_CHANNEL_RETIRED. -/
def hbmChannelRetired : Nat := 0x520A
/-- MISLOCK. -/
def mislock : Nat := 0x2300
/-- MISLOCK_CLEARED. -/
def mislockCleared : Nat := 0x1301
/-- CHANNEL_RETIRED. -/
def channelRetired : Nat := 0x3302
/-- CAL_UNSTABLE. -/
def calUnstable : Nat := 0x3303
/-- CAL_STORE_FAIL. -/
def calStoreFail : Nat := 0x3304
/-- RING_NO_LIGHT. -/
def ringNoLight : Nat := 0x3305
/-- COMB_WEAK. -/
def combWeak : Nat := 0x1306
/-- CASTLING_START. -/
def castlingStart : Nat := 0x1307
/-- CASTLING_DONE. -/
def castlingDone : Nat := 0x2308
/-- COMB_FAILED. -/
def combFailed : Nat := 0x3309
/-- LINE_DROPPED. -/
def lineDropped : Nat := 0x330A
/-- BUNDLE_REDUCED. -/
def bundleReduced : Nat := 0x330B
/-- BUNDLE_DOWN. -/
def bundleDown : Nat := 0x330C
/-- BUNDLE_UP. -/
def bundleUp : Nat := 0x130D
/-- BUNDLE_FAILED. -/
def bundleFailed : Nat := 0x530E
/-- CW_WEAK. -/
def cwWeak : Nat := 0x130F
/-- CW_REPLACED. -/
def cwReplaced : Nat := 0x2310
/-- CW_FAILED. -/
def cwFailed : Nat := 0x5311
/-- PORT_RETRAIN. -/
def portRetrain : Nat := 0x1400
/-- PORT_WIDTH. -/
def portWidth : Nat := 0x1401
/-- PORT_FENCED. -/
def portFenced : Nat := 0x5402
/-- LINK_STUCK. -/
def linkStuck : Nat := 0x3403
/-- PLL_SWITCH. -/
def pllSwitch : Nat := 0x2500
/-- PLL_FAIL. -/
def pllFail : Nat := 0x3501
/-- REF_FALLBACK. -/
def refFallback : Nat := 0x3502
/-- REF_RESTORED. -/
def refRestored : Nat := 0x1503
/-- REF_LOST. -/
def refLost : Nat := 0x3504
/-- STRETCH_DENIED. -/
def stretchDenied : Nat := 0x1505
/-- ROOD_FREQ. -/
def roodFreq : Nat := 0x1506
/-- GTC_STEP. -/
def gtcStep : Nat := 0x1507
/-- GTC_HOLDOVER. -/
def gtcHoldover : Nat := 0x3508
/-- GTC_OFFSET_LARGE. -/
def gtcOffsetLarge : Nat := 0x1509
/-- TIME_SRC_CHANGE. -/
def timeSrcChange : Nat := 0x150A
/-- SEM_SATURATED. -/
def semSaturated : Nat := 0x1600
/-- BAR_MISMATCH. -/
def barMismatch : Nat := 0x1601
/-- BAR_GROUP_BAD. -/
def barGroupBad : Nat := 0x1602
/-- SYNC_FORCED. -/
def syncForced : Nat := 0x1603
/-- STALEMATE. -/
def stalemate : Nat := 0x1604
/-- STALEMATE_END. -/
def stalemateEnd : Nat := 0x1605
/-- FAB_DESC_MALFORMED. -/
def fabDescMalformed : Nat := 0x1700
/-- FAB_PATH_FAILED. -/
def fabPathFailed : Nat := 0x3701
/-- FAB_PATH_RESTORED. -/
def fabPathRestored : Nat := 0x1702
/-- FAB_PORT_DRAIN. -/
def fabPortDrain : Nat := 0x1703
/-- FAB_FENCE_UPDATE. -/
def fabFenceUpdate : Nat := 0x1704
/-- FAB_EPOCH. -/
def fabEpoch : Nat := 0x1705
/-- JOB_TORN. -/
def jobTorn : Nat := 0x1706
/-- ENG_STATE. -/
def engState : Nat := 0x1800
/-- ENG_BUSY. -/
def engBusy : Nat := 0x1801
/-- ENG_PLAN_ERROR. -/
def engPlanError : Nat := 0x1802
/-- ENG_SESSION_LOST. -/
def engSessionLost : Nat := 0x4803
/-- ENG_DIR_FAULT. -/
def engDirFault : Nat := 0x4804
/-- CFG_PARITY. -/
def cfgParity : Nat := 0x2900
/-- HOST_RESET. -/
def hostReset : Nat := 0x1901
/-- EVQ_LOST. -/
def evqLost : Nat := 0x1902
/-- CMD_DONE. -/
def cmdDone : Nat := 0x1903
/-- CFG_ITEM_BAD. -/
def cfgItemBad : Nat := 0x3904
/-- MANAGER_LOST. -/
def managerLost : Nat := 0x3905
/-- JOB_DRAIN_REQUEST. -/
def jobDrainRequest : Nat := 0x1906
/-- PWR_PHASE_LOST. -/
def pwrPhaseLost : Nat := 0x2A00
/-- BUDGET_OVER. -/
def budgetOver : Nat := 0x1A01
/-- PWR_STATE. -/
def pwrState : Nat := 0x1A02
/-- THERMAL_WARN. -/
def thermalWarn : Nat := 0x1A03
/-- THERMAL_THROTTLE. -/
def thermalThrottle : Nat := 0x3A04
/-- THERMAL_SHUTDOWN. -/
def thermalShutdown : Nat := 0x5A05
/-- SENSOR_BROKEN. -/
def sensorBroken : Nat := 0x3A06
/-- SENSOR_FENCE. -/
def sensorFence : Nat := 0x5A07
/-- SENSOR_DISAGREE. -/
def sensorDisagree : Nat := 0x3A08
/-- COOLANT_MARGIN. -/
def coolantMargin : Nat := 0x3A09
/-- COOLANT_WARM. -/
def coolantWarm : Nat := 0x3A0A
/-- COOLANT_LOW_FLOW. -/
def coolantLowFlow : Nat := 0x3A0B
/-- COOLANT_LOST. -/
def coolantLost : Nat := 0x3A0C
/-- FLOW_DISAGREE. -/
def flowDisagree : Nat := 0x1A0D
/-- AON_TRIP. -/
def aonTrip : Nat := 0x6A0E
/-- DIE_FENCED. -/
def dieFenced : Nat := 0x5B00
/-- DIE_RETURNED. -/
def dieReturned : Nat := 0x1B01
/-- CTRL_RESTART. -/
def ctrlRestart : Nat := 0x1B02
/-- MP_TAKEOVER. -/
def mpTakeover : Nat := 0x2B03
/-- STANDBY_FAULT. -/
def standbyFault : Nat := 0x3B04
/-- STANDBY_READY. -/
def standbyReady : Nat := 0x1B05
/-- FM_TAKEOVER. -/
def fmTakeover : Nat := 0x2B06
/-- GUEST_VIOLATION. -/
def guestViolation : Nat := 0x1B07
/-- GUEST_FENCED. -/
def guestFenced : Nat := 0x5B08
/-- MP_WATCHDOG. -/
def mpWatchdog : Nat := 0x3B09
/-- UPD_STAGED. -/
def updStaged : Nat := 0x1C00
/-- UPD_STAGE_FAILED. -/
def updStageFailed : Nat := 0x1C01
/-- UPD_ACTIVATING. -/
def updActivating : Nat := 0x1C02
/-- UPD_ACTIVATED. -/
def updActivated : Nat := 0x1C03
/-- UPD_REVERTED. -/
def updReverted : Nat := 0x3C04
/-- RB_ADVANCED. -/
def rbAdvanced : Nat := 0x1C05
/-- SETTINGS_RESET. -/
def settingsReset : Nat := 0x3C06
/-- BANK_INVALID. -/
def bankInvalid : Nat := 0x3C07
/-- RECOVERY_ENTERED. -/
def recoveryEntered : Nat := 0x6C08
/-- UPD_LOCK_CHANGED. -/
def updLockChanged : Nat := 0x1C09
/-- MEAS_LOG_FULL. -/
def measLogFull : Nat := 0x3C0A
/-- FUSE_WRITE_FAIL. -/
def fuseWriteFail : Nat := 0x3C0B
/-- TEST_DONE. -/
def testDone : Nat := 0x1D00
/-- TEST_FAIL. -/
def testFail : Nat := 0x3D01
/-- TRACE_RECORD. -/
def traceRecord : Nat := 0x1D02
/-- TRACE_PAUSED. -/
def tracePaused : Nat := 0x1D03
/-- TRACE_RESUMED. -/
def traceResumed : Nat := 0x1D04
/-- DBG_ATTACH. -/
def dbgAttach : Nat := 0x1D05
/-- DBG_HALT. -/
def dbgHalt : Nat := 0x1D06
/-- DBG_DETACH. -/
def dbgDetach : Nat := 0x1D07

end Sys2Proof.Machine.Ev
end

