-- ==== Sys2Proof/Machine/StClk.lean ====
section
/-! DEFINITION. StClk.lean: the state of clocks, roods and global time (spec/07). Dies are numbered by SITE_ID (R26). -/
namespace Sys2Proof.Machine

/-- One rood (R215 to R220). -/
structure Rood where
  /-- The cycle counter (R216). -/
  cyc : BitVec 64 := 0
  /-- Cycles that commands have carried the counter ahead of the clock: the periods that follow are those (log 3). -/
  lead : Nat := 0
  /-- ROOT cycles of the period in progress. -/
  phase : Nat := 0
  /-- ROOT cycles of the crossing clock's cycle in progress, and whether a cycle of it ended in the last ns (R221). -/
  xPhase : Nat := 0
  xEdge : Bool := false
  /-- ROOD_DIV in force (R219). -/
  div : Nat := 0
  /-- ROOD_DIV written and not yet applied (R219). -/
  heldDiv : Option Nat := none
  /-- The ROOD_DIV that a stop in progress loads (R220). -/
  loading : Option Nat := none
  /-- The supply set point, as the ROOD_DIV that it suffices for (R220). -/
  supply : Nat := 0
  /-- The set frequency, to which a denied-stretch hold returns (R218). -/
  setDiv : Nat := 0
  /-- The cause of the held change: 0 budget, 1 denied stretch, 2 margin (R242). -/
  cause : Nat := 0
  stopped : Bool := false
  /-- Gated in IDLE (R385). -/
  gated : Bool := false
  /-- When the last external access ungated it. -/
  ungatedAt : Option Nat := none
  /-- Numbers of the last stretched periods, newest first, counted from the rood's first (R217, R218). -/
  stretches : List Nat := []
  /-- The end of the hold of a denied stretch, as `now` (R218). -/
  holdUntil : Option Nat := none
  /-- GTC values of the denied stretches of the last second (R485). -/
  denials : List Nat := []
  /-- The second in which STRETCH_DENIED was last emitted (R485). -/
  deniedSec : Option Nat := none
  /-- Droop trip point in mV (R39). -/
  tripMv : Nat := 0
  /-- Limited to 1.6 GHz (R40). -/
  limited : Bool := false
  deriving DecidableEq, Repr

/-- One root PLL (R210): since when it has lost lock, whether it has been given up, and the cause of its last loss: 0 phase, 1 frequency (R242). -/
structure Pll where
  lost : Option Nat := none
  failed : Bool := false
  cause : Nat := 0
  deriving DecidableEq, Repr

/-- The clocks and the GTC of one die (R209 to R212, R223 to R229, R238). -/
structure DieClk where
  locked : Bool := false
  /-- SLOW runs from the start-up oscillator (R212). -/
  osc : Bool := false
  pllA : Pll := {}
  pllBeta : Pll := {}
  /-- True while PLL B drives the tree. -/
  pllB : Bool := false
  /-- Neither PLL is locked: the frequency is held. -/
  unlocked : Bool := false
  /-- REF of R238. -/
  ref : Nat := 4
  slow : BitVec 64 := 0
  slowPhase : Nat := 0
  timeRun : Bool := false
  aligned : Bool := false
  gtc : BitVec 64 := 0
  /-- Fraction of a grain, in units of 2^-24 (R225). -/
  frac : Nat := 0
  stepped : Bool := false
  hold : Bool := true
  /-- Rate adjustment in 2^-24 grain per TIME cycle (R225). -/
  rate : Int := 0
  /-- Grains still to correct (R225). -/
  corr : Int := 0
  lastMseq : Option Nat := none
  /-- OFFSET at the last accepted mark. -/
  offset : Int := 0
  markAt : Option Nat := none
  /-- DELAY for lambda 17 and lambda 16 (R227). -/
  delay17 : Option Nat := none
  delay16 : Option Nat := none
  deriving DecidableEq, Repr

/-- What an IEEE 1588 port of the hub has heard (R231): its best master's dataset in the order of comparison, and the timestamps of the exchange in
progress: a sync sent and received, a delay request sent. -/
structure PtpPort where
  master : Option (List Nat) := none
  t1 : Option Nat := none
  t2 : Option Nat := none
  t3 : Option Nat := none
  deriving DecidableEq, Repr

/-- A crossing FIFO of a rood (R221, R222): what its sender still holds, the entries written with the reader's cycles since each, the sender's
cycles since each credit left the reader, and whether the sender has spent its 5 writes and waits for a credit. -/
structure Xing where
  wait : List Nat := []
  cells : List (Nat × Nat) := []
  back : List Nat := []
  spent : Bool := false
  deriving DecidableEq, Repr

/-- The hub master and its discipline (R224 to R232). -/
structure HubTime where
  /-- Next MSEQ to send (R226). -/
  mseq : BitVec 16 := 0
  /-- The hub stepped since the previous mark. -/
  stepFlag : Bool := false
  /-- Source in use (R230). -/
  src : Nat := 0
  locked : Bool := false
  /-- Since when the primary source has held lock; none while it has none. -/
  primaryLockAt : Option Nat := none
  /-- When the primary source lost the lock that it had held. -/
  primaryLostAt : Option Nat := none
  /-- When the hub's time began (R230). -/
  startAt : Option Nat := none
  fallbackLocked : Bool := false
  /-- The instant of the source on the PTP timescale at `srcAt`, in grains (R224). -/
  srcTime : Nat := 0
  srcAt : Nat := 0
  offsetLarge : Bool := false
  /-- First lock has been used for a step (R228). -/
  everLocked : Bool := false
  /-- GTC at which the last mark was sent, in units of 16,000 grains. -/
  lastMark : Option Nat := none
  /-- The ports of IEEE 1588 (R231), and the last dialogue of Precision Time Measurement (R232). -/
  ptp : Map PtpPort := []
  ptmAt : Option Nat := none
  deriving DecidableEq, Repr

/-- Everything of spec/07. -/
structure Clk where
  dies : Map DieClk := []
  /-- Roods by site * 16 + identifier (R215). -/
  roods : Map Rood := []
  hub : HubTime := {}
  /-- Crossings by (site * 16 + rood) * 2, and one more for the crossing out of the rood (R221). -/
  xings : Map Xing := []
  /-- What each core's last RDGTC returned, by core number (R235). -/
  lastGtc : Map (BitVec 64) := []
  deriving DecidableEq, Repr

end Sys2Proof.Machine
end

