-- ==== Sys2Proof/Machine/StCore.lean ====
section
/-! DEFINITION. StCore.lean: the state of a core and of a cluster's memory pipeline (spec/02). Cores are numbered
(stack * 8 + cluster) * 16 + core. -/
namespace Sys2Proof.Machine

/-- An accumulator tile (R67, R103): its mode and its 128 elements; no elements where all are zero. -/
structure Tile where
  int : Bool := false
  els : List (BitVec 128) := []
  deriving DecidableEq, Repr

/-- A token (R61, R62). -/
inductive Token where
  | free
  | pending
  | done (v : BitVec 64)
  deriving DecidableEq, Repr

/-- A tensor instruction in the queue (R59, R68, R71): its operands' addresses stand as at issue (log 12). -/
structure TOp where
  slice : Bool
  td : Nat
  fmtA : Nat := 10
  fmtB : Nat := 10
  a : Nat
  b : Nat
  nch : Nat
  mxa : Bool := false
  mxb : Bool := false
  acc : Bool
  shift : Nat := 0
  ua : Bool := false
  ub : Bool := false
  deriving DecidableEq, Repr

/-- A packet of a transfer: its first line, its number of lines, the endpoint asked, and its TAG (spec/06 R188). -/
structure XReq where
  first : Nat
  n : Nat
  ep : Nat
  tag : Nat
  deriving DecidableEq, Repr

/-- A transfer in flight (R63, R65): `toScr` where it writes scratch; addresses and length in bytes. -/
structure Xfer where
  toScr : Bool
  tok : Nat
  scr : Nat
  far : Nat
  len : Nat
  sem : Option Nat
  /-- The packets that it has sent and that have no answer yet (spec/06 R187, R188). -/
  reqs : List XReq := []
  /-- Lines already carried by READ_DATA or COMPLETION, with the status of each (spec/06 R188). -/
  got : List (Nat × Nat) := []
  deriving DecidableEq, Repr

/-- A DPOST that waits or is on its way: token, semaphore, queue, hub queue where it goes to the hub, and the descriptor. -/
structure DPostOp where
  tok : Nat
  sem : Option Nat
  hub : Bool
  queue : Nat
  desc : List (BitVec 8)
  /-- The MESH cycle in which it reaches the queue (R66). -/
  reach : Nat := 0
  /-- Its turn has come and found no place: the core's wait counts. -/
  full : Bool := false
  deriving DecidableEq, Repr

/-- What a core waits for. -/
inductive Wait where
  | none
  | cycles (n : Nat)
  | tensor (t : TOp)
  | dpost (d : DPostOp)
  | waitt (d tok : Nat)
  | waitall
  | swait (sem n : Nat)
  | spostr (target sem n : Nat)
  | bcfg (slot : Nat) (v : BitVec 64)
  /-- BARR with OUT of 2; `thenWait` where the instruction is BAR. -/
  | barr (slot : Nat) (thenWait : Bool)
  | bwait (slot : Nat)
  /-- BAR after its arrival. -/
  | bar (slot : Nat)
  deriving DecidableEq, Repr

/-- Whether a core runs (R49, R51, R60). -/
inductive Cond where
  | idle
  | issuing
  | ended
  /-- Stopped by its own fault. -/
  | faulted
  /-- Stopped by the abort of its plan. -/
  | stopped
  | brk
  deriving DecidableEq, Repr

/-- The context of a core (R75): what a save writes and a restore reads. -/
structure Ctx where
  g : Map (BitVec 64) := []
  v : Map (BitVec 2048) := []
  tiles : Map Tile := []
  /-- The program counter, in words of the schedule (log 7). -/
  pc : BitVec 64 := 0
  flags : BitVec 64 := 0
  seed : BitVec 64 := 0
  /-- The generator's counter (R97). -/
  ctr : BitVec 128 := 0
  /-- Semaphores (R244). -/
  sems : Map (BitVec 16) := []
  /-- Barrier slots (R249). -/
  slots : Map (BitVec 64) := []
  deriving DecidableEq, Repr

/-- A core: the logical position that plans name (R78). -/
structure Core where
  ctx : Ctx := {}
  coreId : BitVec 64 := 0
  planCyc0 : BitVec 64 := 0
  tokens : Map Token := []
  cond : Cond := .idle
  wait : Wait := .none
  /-- Words of the loaded schedule (R47). -/
  words : Nat := 0
  /-- The tensor instruction that executes, then those that wait (R59). -/
  queue : List TOp := []
  /-- Results not yet ready: tile and the flags to set (R70, R111). -/
  unready : List (Nat × Nat) := []
  vcx : List Xfer := []
  hmx : List Xfer := []
  /-- The first cycle in which the core may issue next (R41). -/
  nextCyc : Nat := 0
  /-- The cycle from which an instruction that depends on a result may issue (R55, R58): registers g0 to g31, v0 to v31 from 32 on, tokens from 64 on, and
  the unit of TSTORE at 96. -/
  ready : Map Nat := []
  /-- Flags of issued instructions, each with the cycle in which they are set (R111). -/
  late : List (Nat × Nat) := []
  /-- The cycle from which the core's cluster-memory port is free (R42). -/
  portFree : Nat := 0
  /-- The cycle in which its wait began (spec/16 R451). -/
  waitFrom : Nat := 0
  /-- A debugger is attached (R449). -/
  debugger : Bool := false
  deriving DecidableEq, Repr

/-- A store on its way to cluster memory (R42). -/
structure CmStore where
  core : Nat
  seq : Nat
  addr : Nat
  bytes : List (BitVec 8)
  /-- Rood cycle in which it commits. -/
  due : Nat
  /-- What the merge of a partial word finds (R117): corrected, or not correctable. -/
  corr : Bool := false
  bad : Bool := false
  deriving DecidableEq, Repr

/-- A load from cluster memory (R42): destination register, and the data once sampled. -/
structure CmLoad where
  core : Nat
  addr : Nat
  len : Nat
  vec : Bool
  d : Nat
  /-- Rood cycles in which it samples and delivers. -/
  sample : Nat
  deliver : Nat
  /-- What the ECC finds (R116): a word corrected; offsets of uncorrectable words. -/
  corr : Bool := false
  bad : List Nat := []
  data : Option (List (BitVec 8)) := none
  deriving DecidableEq, Repr

/-- A cluster's memory pipeline. -/
structure CmPipe where
  stores : List CmStore := []
  loads : List CmLoad := []
  /-- The last cycle in which blocks from outside took ports, and how many (spec/04 R115). -/
  extCyc : Nat := 0
  extUsed : Nat := 0
  deriving DecidableEq, Repr

/-- The cores of the package (spec/02). -/
structure Cores where
  /-- By core number of the logical position. -/
  core : Map Core := []
  /-- Pipelines by cluster number (stack * 8 + cluster). -/
  pipes : Map CmPipe := []
  /-- Physical core that holds a logical position, where it is not the core of the same name (R79). -/
  phys : Map Nat := []
  /-- Logical positions that are absent (R79, R81). -/
  absent : List Nat := []
  /-- Physical cores fenced, with the cause (R403). -/
  fenced : Map Nat := []
  /-- Logical positions whose core is fenced and whose substitution waits for a plan boundary (R79). -/
  toSpare : List Nat := []
  /-- Order numbers of stores, posts and arrivals (R247, R252). -/
  seq : Nat := 0
  deriving DecidableEq, Repr

end Sys2Proof.Machine
end

