-- ==== Sys2Proof/Machine/StEng.lean ====
section
/-! DEFINITION. StEng.lean: the request engine (spec/10). Sessions, the directory, batch slots and the host rings stand in memory. -/
namespace Sys2Proof.Machine

/-- A request admitted (R322, R325): the record as received, its session and path, where its reply goes, arrival and deadline as GTC,
what its key resolved to, its order of admission, and whether it has been answered. -/
structure EReq where
  recd : List (BitVec 8)
  session : Nat
  nonce : Nat
  host : Bool
  peerIp : Nat
  peerPort : Nat
  arrival : Nat
  deadline : Nat
  block : Nat
  blen : Nat
  tag : Nat
  version : Nat
  bucket : Nat
  adm : Nat
  answered : Bool := false
  deriving DecidableEq, Repr

/-- A closed batch (R323): its records in order, and the GTC at which it closed. -/
structure EBatch where
  reqs : List EReq
  closedAt : Nat
  /-- The batch number, once dispatched. -/
  n : Nat := 0
  deriving DecidableEq, Repr

/-- An entry of the session cache (R318): the session, its 64 bytes, and whether they are newer than those in HBM4. -/
structure SessEnt where
  n : Nat
  bytes : List (BitVec 8)
  dirty : Bool
  deriving DecidableEq, Repr

/-- The engine (R310, R320, R323, R325, R327). -/
structure Eng where
  /-- 0 OFF, 1 NO_JOB, 2 WAITING, 3 SERVING. -/
  state : Nat := 0
  /-- Since the engine left NO_JOB the clearing of the dispatch counter has been posted, it has committed, and a plan has started after that. -/
  clearing : Bool := false
  cleared : Bool := false
  started : Bool := false
  /-- The next batch number. -/
  next : Nat := 0
  /-- The open batch, and the GTC at which its span began. -/
  openB : List EReq := []
  openAt : Nat := 0
  closedB : Option EBatch := none
  slots : Map EBatch := []
  /-- Slots signalled as returned. -/
  returned : List Nat := []
  adm : Nat := 0
  /-- The session cache, the entry used last first (R318). -/
  cache : List SessEnt := []
  /-- The bucket cache, by address, the bucket used last first (R321). -/
  buckets : List (Nat × List (BitVec 8)) := []
  /-- Directory commands that wait: ticket, the order of admission at M, and the results. -/
  dirs : List (Nat × Nat × List (BitVec 32)) := []
  /-- Lines whose fault has been reported: bucket * 2 and + 1, and 2^23 + session (R327). -/
  badBuckets : List Nat := []
  /-- Sessions that became FREE because they were idle (R317). -/
  idleClosed : Nat := 0
  /-- Host requests taken and not answered. -/
  hostOut : Nat := 0
  /-- GTC values of the BUSY and PLAN_ERROR replies of the last second, and the seconds last reported. -/
  busyLog : List Nat := []
  busySec : Option Nat := none
  errLog : List Nat := []
  errSec : Option Nat := none
  deriving DecidableEq, Repr

end Sys2Proof.Machine
end

