-- ==== Sys2Proof/Machine/StFab.lean ====
section
/-! DEFINITION. StFab.lean: the scale-out fabric: tables, descriptor engines, streams, ordering contexts, ports (spec/09). -/
namespace Sys2Proof.Machine

/-- An address table entry (R267). -/
structure AddrEnt where
  ip : List Byte := []
  portmask : Nat := 0
  valid : Bool := false
  direct : Bool := false
  epoch : Nat := 0
  deriving DecidableEq, Repr

/-- A group table entry (R293): children with their SUBTREE. -/
structure GroupEnt where
  parent : Nat := 0
  valid : Bool := false
  root : Bool := false
  diemask : Nat := 0
  children : List (Nat × Nat) := []
  deriving DecidableEq, Repr

/-- The fence table (R295). -/
structure FenceTab where
  pkgs : List Nat := []
  eps : Nat := 0
  gen : BitVec 32 := 0
  /-- The generation did not advance by one: packages whose state is in doubt count as fenced (spec/12 R369). -/
  doubt : Bool := false
  deriving DecidableEq, Repr

/-- A descriptor in a die queue (R66). -/
structure QDesc where
  core : Nat
  tok : Nat
  sem : Option Nat
  desc : List Byte
  deriving DecidableEq, Repr

/-- A handle of a die (R271): the descriptor's core, token, semaphore and queue, whether it went to a hub queue, and the completion
value once it is there. `localSt` is the status of the die's own side. -/
structure Handle where
  core : Nat
  tok : Nat
  sem : Option Nat
  queue : Nat
  hub : Bool := false
  jobPt : Nat := 0
  localSt : Nat := 1
  comp : Option (BitVec 64) := none
  deriving DecidableEq, Repr

/-- A descriptor engine of a die (R264, R271). -/
structure DieEng where
  queues : Map (List QDesc) := []
  /-- For a queue whose head has begun: its handle and the bytes handed on. -/
  cur : Map (Nat × Nat) := []
  /-- The queue served last. -/
  rot : Nat := 15
  handles : Map Handle := []
  /-- Credits for hub queues (R66). -/
  credits : Map Nat := []
  deriving DecidableEq, Repr

/-- A hub queue (R66): who it serves (a partition, or 12 for the request engine), and its descriptors with die and handle (die 12
and a number of the engine's own). -/
structure HubQueue where
  owner : Option Nat := none
  descs : List (Nat × Nat × List Byte) := []
  /-- Bytes of the head handed on, once it has begun. -/
  off : Option Nat := none
  /-- Descriptors not yet completed. -/
  open_ : Nat := 0
  deriving DecidableEq, Repr

/-- A descriptor that the hub has accepted (R264, R282), by the number that `hubKey` gives. -/
structure HubDesc where
  src : Nat
  tag : Nat
  hq : Option Nat := none
  pt : Nat
  job : Nat
  op : Nat
  flags : Nat
  dstPkg : Nat
  dstEp : Nat
  laddr : Nat
  raddr : Nat
  len : Nat
  saddr : Nat
  sval : Nat
  npkt : Nat
  dseq : Nat := 0
  /-- Packets sent, or bytes received by a GET. -/
  done : Nat := 0
  status : Nat := 1
  /-- MPUT at its root or a replication point (R294 to R296): group, children waited for with the DSEQ of each edge, skipped destinations, the highest
  generation, and whether the local copies have committed. -/
  group : Nat := 0
  waitFor : Map Nat := []
  skipped : Nat := 0
  /-- Endpoints already counted as skipped. -/
  skipEps : List Nat := []
  gen : Nat := 0
  localDone : Bool := false
  /-- Every packet has been replicated here, and the signals of the local copies have been asked for. -/
  sent : Bool := false
  signalled : Bool := false
  /-- The pair and DSEQ at which this package received it, where it is a replication point. -/
  up : Option (Nat × Nat) := none
  deriving DecidableEq, Repr

/-- A packet sent and not acknowledged (R285, R287). -/
structure Unacked where
  p : FabPkt
  tries : Nat := 0
  port : Nat
  tried : Nat
  /-- When its timer was last started (R287), and when it first left (R288). -/
  sentAt : Nat := 0
  firstAt : Nat := 0
  /-- Its retransmission is due and waits for RATE or for an open port (R290, R291). -/
  held : Bool := false
  deriving DecidableEq, Repr

/-- What a receiver keeps of a stream (R286). -/
structure RxStream where
  next : Nat := 0
  beyond : List Nat := []
  ce : Nat := 0
  arrivals : Nat := 0
  /-- When the oldest unacknowledged packet arrived. -/
  since : Option Nat := none
  /-- An ACK is due that no port has taken. -/
  due : Bool := false
  deriving DecidableEq, Repr

/-- A peer package (R285, R288, R291). RATE is in Mbit/s. -/
structure Peer where
  txD : Nat := 0
  txM : Nat := 0
  /-- The first SEQ of each stream that no cumulative acknowledgement covers (R285). -/
  cumD : Nat := 0
  cumM : Nat := 0
  unackedD : List Unacked := []
  unackedM : List Unacked := []
  rxD : RxStream := {}
  rxM : RxStream := {}
  failed : Bool := false
  rate : Nat := 25600000
  /-- When RATE was last cut, and when CE was last seen. -/
  cutAt : Option Nat := none
  ceAt : Nat := 0
  /-- The time in ps at which RATE lets the next packet leave, and when a FAILED path was last probed (R288, R291). -/
  paceAt : Nat := 0
  probeAt : Option Nat := none
  /-- The port of each class but BULK (R280). -/
  flows : Map Nat := []
  /-- Packets that wait for a port, a window or a path, oldest first. -/
  waiting : List FabPkt := []
  deriving DecidableEq, Repr

/-- A descriptor arriving in an ordering context (R282, R283). -/
structure RxDesc where
  npkt : Nat
  /-- Packet indexes handed to their die, and those committed. -/
  sent : List Nat := []
  got : List Nat := []
  srcEp : Nat := 0
  /-- The signal: endpoint, counter, increment. -/
  sig : Option (Nat × Nat × Nat) := none
  /-- A GET's read: source endpoint, address and length by packet index. -/
  reads : List (Nat × Nat × Nat × Nat) := []
  /-- READ_DATA packets still to be sent, once the reads are under way. -/
  left : Option Nat := none
  /-- The signal has been asked for, and has been performed. -/
  sigSent : Bool := false
  sigDone : Bool := false
  status : Nat := 1
  chan : Nat := 2
  /-- The descriptor that replicates it, where this package is a replication point (R294). -/
  repl : Option Nat := none
  deriving DecidableEq, Repr

/-- An ordering context: one per source package and job (R284). -/
structure Ctx9 where
  /-- Every DSEQ below it is committed. -/
  low : Nat := 0
  descs : Map RxDesc := []
  /-- Next OSEQ of channels 0 and 1, and ORDERED packets that wait for a lower one. -/
  oseq0 : Nat := 0
  oseq1 : Nat := 0
  held : List (Nat × FabPkt) := []
  deriving DecidableEq, Repr

/-- What the hub has asked a die to do and whose answer it awaits (R274), by the TAG of its packet: the pair of a descriptor is its source package, partition and
job. -/
inductive HubWork where
  /-- A packet of an arriving descriptor written. -/
  | data (pkg pt job dseq pkt : Nat)
  /-- The signal of an arriving descriptor performed. -/
  | signal (pkg pt job dseq : Nat)
  /-- A stretch of a GET's source read at an endpoint, for READ_DATA packet `pkt` of `npkt` at an offset of the GET. -/
  | read (pkg pt job dseq pkt npkt off ep addr n : Nat)
  /-- `n` bytes of a GET written at the die that posted it. -/
  | got (h n : Nat)
  /-- A copy of a packet of an MPUT written at an endpoint, and its signal performed there. -/
  | copy (h ep : Nat)
  | copySignal (h ep : Nat)
  deriving DecidableEq, Repr

/-- An Ethernet port (R275 to R281, R290, R292, R304). `mode` is 0 off, 1 1.6 Tb/s, 2 800 Gb/s. -/
structure EthPort where
  mode : Nat := 0
  nextHop : BitVec 48 := 0
  link : Bool := false
  /-- Draining: since when, and the cause. -/
  draining : Option (Nat × Nat) := none
  /-- Out of service after a drain, with the drain's cause. -/
  drained : Bool := false
  drainCause : Nat := 0
  /-- Frames queued: class (0 MGMT, 1 RESPONSE, 2 ORDERED, 3 BULK) and bytes, oldest first. -/
  queue : List (Nat × Nat) := []
  closedMgmt : Bool := false
  closedResp : Bool := false
  closedOrd : Bool := false
  closedBulk : Bool := false
  /-- Frames lost with the link since a drain began (R306). -/
  lost : Nat := 0
  /-- Priorities that the partner has paused, and those for which this port has sent a pause (R292). -/
  paused : Nat := 0
  pauseSent : Nat := 0
  deriving DecidableEq, Repr

/-- A port's telemetry deltas (R304). -/
structure EthTel where
  tx : Nat := 0
  rx : Nat := 0
  ce : Nat := 0
  pause : Nat := 0
  retx : Nat := 0
  drop : Nat := 0
  qmax : Nat := 0
  stall : Nat := 0
  /-- When the last record was written. -/
  lastAt : Option Nat := none
  ring : List (List Byte) := []
  deriving DecidableEq, Repr

/-- A job as its manager holds it (R299, spec/12 R489): members with their partitions, the packages and endpoints that its ranks name
(package * 32 + endpoint), and its slices of the rank and group tables. -/
structure MgrJob where
  members : List (Nat × Nat)
  eps : List Nat
  rankBase : Nat
  rankCount : Nat
  groupBase : Nat
  groupCount : Nat
  /-- How far its launch is: 0 records being written, 1 being activated, 2 done; and the launch's ticket. -/
  phase : Nat := 0
  launch : Option Nat := none
  /-- The teardown in progress: its cause and the members not yet reporting. -/
  tearing : Option (Nat × List Nat) := none
  tearAt : Nat := 0
  deriving DecidableEq, Repr

/-- The manager's own side (R299 to R302). -/
structure FabMgr where
  jobs : Map MgrJob := []
  nextJob : Nat := 1
  /-- JOB_END answers owed: JOB_ID and ticket. -/
  ends : List (Nat × Nat) := []
  /-- Removals that wait for teardowns: package, endpoint or the whole package, and the ticket. -/
  removals : List (Nat × Option Nat × Option Nat) := []
  /-- Commands whose worker answers are awaited: ticket and buffer (FAB_MAP). -/
  maps : List (Nat × Nat) := []
  deriving DecidableEq, Repr

/-- Everything of spec/09. -/
structure Fabric where
  ranks : Map (BitVec 32) := []
  /-- Rank entries written while a job holds them, until its job boundary (R266). -/
  heldRanks : Map (BitVec 32) := []
  addrs : Map AddrEnt := []
  groups : Map GroupEnt := []
  fence : FenceTab := {}
  epoch : BitVec 32 := 0
  dies : Map DieEng := []
  hqs : Map HubQueue := []
  descs : Map HubDesc := []
  nextTag : Nat := 0
  /-- What dies have been asked to do, by TAG, and the next TAG (R274). -/
  works : Map HubWork := []
  nextWork : Nat := 0
  /-- Next DSEQ and, per channel, next OSEQ to send, by package * 16 + partition. -/
  dseq : Map Nat := []
  oseq : Map (Nat × Nat) := []
  peers : Map Peer := []
  ctxs : Map Ctx9 := []
  ports : Map EthPort := []
  tel : Map EthTel := []
  /-- Ethernet frames put on each port, in their bytes, newest first (R277). -/
  wire : Map (List (List Byte)) := []
  /-- The number from which the UDP source port of the last BULK packet followed (R277). -/
  spray : Nat := 0
  mgr : FabMgr := {}
  deriving DecidableEq, Repr

end Sys2Proof.Machine
end

