-- ==== Sys2Proof/Machine/StHost.lean ====
section
/-! DEFINITION. StHost.lean: the host attachment's registers and the event queues (spec/11). -/
namespace Sys2Proof.Machine

/-- An event record of 32 bytes (R350). -/
structure EvRec where
  gtc : BitVec 64
  seq : BitVec 32
  source : Nat
  rood : Nat
  more : Bool
  cont : Bool
  code : Nat
  cycles : BitVec 64
  args : BitVec 64
  deriving DecidableEq, Repr

/-- One source's event queue (R349, R351). EVQ_CONS is EVQ_PROD less the records held. -/
structure EvQueue where
  prod : BitVec 32 := 0
  /-- Records kept, oldest first. -/
  recs : List EvRec := []
  lost : BitVec 32 := 0
  /-- Lost since the previous EVQ_LOST record (R351). -/
  lostSince : Nat := 0
  /-- Events held while the controller reloads (spec/14 R405): GTC, rood, code, cycles, arguments. -/
  held : List (BitVec 64 × Nat × Nat × BitVec 64 × List (BitVec 64)) := []
  deriving DecidableEq, Repr

/-- An entry of the MSI-X table (R330). -/
structure Msix where
  addr : BitVec 64 := 0
  data : BitVec 32 := 0
  masked : Bool := true
  deriving DecidableEq, Repr

/-- The registers of BAR0 and BAR4, the pip bindings and the link (R330 to R349). -/
structure HostPort where
  /-- H2M_MW0 to H2M_MW15, by number; 0 where absent. -/
  h2mMw : Map (BitVec 32) := []
  h2mFull : Bool := false
  h2mRejects : BitVec 32 := 0
  /-- M2H_MW0 to M2H_MW15. -/
  m2hMw : List (BitVec 32) := []
  m2hFull : Bool := false
  /-- Answers that wait for M2H to be released, oldest first (R359). -/
  m2hWait : List (List (BitVec 32)) := []
  h2dPending : BitVec 32 := 0
  d2hPending : BitVec 32 := 0
  d2hMask : BitVec 32 := 0xFFFFFFFF#32
  vecMask : BitVec 5 := 0x1F#5
  /-- Host-to-device pips bound: pip to (core number, semaphore) (R341). -/
  pipIn : Map (Nat × Nat) := []
  /-- Device-to-host pips bound: pip to counter address (R342). -/
  pipOut : Map Nat := []
  msix : Map Msix := []
  /-- The pending-bit array of BAR4, bit v for vector v. -/
  pba : BitVec 64 := 0
  /-- Vectors whose cause has risen in the command carried out, where the states before and after it do not show it (R344). -/
  rose : List Nat := []
  wvSelect : BitVec 32 := 0
  /-- WV_STATUS STATE (R345). -/
  wvState : BitVec 2 := 0
  /-- The STATE that the access in progress ends in. -/
  wvNext : BitVec 2 := 0
  wvWords : Nat := 0
  wvData : List (BitVec 32) := [0, 0, 0, 0]
  deriving DecidableEq, Repr

/-- The rest of the attachment. -/
structure HostLink where
  bar2Base : BitVec 64 := 0
  /-- log2 of the BAR2 size (R330). -/
  bar2Log : Nat := 38
  evqSelect : BitVec 32 := 0x20#32
  linkUp : Bool := false
  rated : Bool := false
  /-- Blocks in their safe state, by number of the table of R335, with their instance above bit 8. -/
  safe : List Nat := []
  /-- Rewrites failed in a row, by block. -/
  rewrites : Map Nat := []
  /-- Rewrites in progress, by block: when each is done, and how many attempts fail. -/
  rewriting : Map (Nat × Nat) := []
  healthSeq : BitVec 32 := 0
  deriving DecidableEq, Repr

end Sys2Proof.Machine
end

