-- ==== Sys2Proof/Machine/StMem.lean ====
section
/-! DEFINITION. StMem.lean: every addressed memory of the package in one list of cells, the vertical channels and the HBM4
stacks (spec/04).

Addresses 0 to 2^48 - 1 are device physical addresses (R124). The memories without one stand above: the scratch of core n
from 2^48 + n * 2^19, its vertical slice from 2^49 + n * 2^21. -/
namespace Sys2Proof.Machine

/-- Memory: the cells that differ from zero, by rising address (log 6), and the poisoned units: 64-byte lines of HBM4
(R129) and 64-bit words of the SRAM arrays (R117), each by the address where it begins. -/
structure Mem where
  bytes : List Host.Cell := []
  poison : List Nat := []
  deriving DecidableEq, Repr

/-- A vertical channel, by physical core (R119 to R123). -/
structure Vc where
  /-- 0 FULL, 1 REPAIRED, 2 HALF, 3 FENCED. -/
  state : Nat := 0
  /-- The half that works in HALF. -/
  half : Nat := 0
  /-- Spares left in groups D0 to D7. -/
  spares : List Nat := [8, 8, 8, 8, 8, 8, 8, 8]
  /-- When the replays of the last 1 ms were needed, newest first (R120). -/
  replays : List Nat := []
  /-- Replays of the beat now in transit. -/
  tries : Nat := 0
  /-- A lane test is due, and one runs. -/
  due : Bool := false
  testing : Bool := false
  /-- Lanes recalibrated since the model began (R123). -/
  recals : Nat := 0
  /-- The state before FENCED. -/
  prior : Nat := 0
  deriving DecidableEq, Repr

/-- The copy of a channel to the spare (R135, R136). -/
structure Copy where
  chan : Nat
  trigger : Nat
  /-- The watermark, a channel line index. -/
  mark : Nat := 0
  /-- Rows of the old channel whose repair is held for the copy. -/
  heldRows : List Nat := []
  /-- Lines below the watermark that a read has changed on the spare alone (R490): by address, the old channel's bytes and poison. -/
  old : Map (List (BitVec 8) × Bool) := []
  deriving DecidableEq, Repr

/-- The spare channel of a stack (R135 to R137, R490). -/
inductive Spare where
  | free
  | copying (c : Copy)
  | inUse (chan : Nat)
  | failed (chan : Option Nat)
  deriving DecidableEq, Repr

/-- One HBM4 stack (R126 to R137, R490). Rows are named pseudo-channel * 2^20 + row, a row being 1 KiB of the address
within the pseudo-channel. -/
structure Hbm where
  /-- Repairs used per bank, by pseudo-channel * 64 + bank (R133). -/
  used : Map Nat := []
  /-- Repairs used in the spare channel (R490). -/
  spareUsed : Map Nat := []
  spared : List Nat := []
  fencedRows : List Nat := []
  /-- Lines corrected in this patrol pass, by row (R133); rows that the spare serves stand apart, above 2^26 (R490). -/
  corrected : Map (List Nat) := []
  /-- Lines whose correction was written back and that have not been read since (R133); those that the spare serves stand above 2^32. -/
  fresh : List Nat := []
  /-- Lines of this pass with a two-symbol correction, by pseudo-channel * 256 + interface line (R135). -/
  twoSym : Map (List Nat) := []
  /-- Where the patrol scrubber stands, as a line index (R132). -/
  patrol : Nat := 0
  passStart : Nat := 0
  /-- Rows to be spared (R133). -/
  due : List Nat := []
  scrubSlow : Bool := false
  spare : Spare := .free
  retired : List Nat := []
  /-- Channels retired only until the package starts again (R391). -/
  heat : List Nat := []
  /-- The repair log in flash (R133, R490): each repair's row, with 2^26 added for one of the spare channel; then the channel spared,
  the spare failed, channels retired. -/
  logRows : List Nat := []
  logSpared : Option Nat := none
  logFailed : Bool := false
  logRetired : List Nat := []
  deriving DecidableEq, Repr

/-- An SRAM array's scrubber (R118): position, and SCRUB_SLOW. -/
structure Scrub where
  pos : Nat := 0
  slow : Bool := false
  deriving DecidableEq, Repr

/-- Everything of spec/04 but what a partition holds. -/
structure Memory where
  m : Mem := {}
  /-- Errors that stand in stored codewords of HBM4 (R129). -/
  flips : List LineFind := []
  /-- Vertical channels by physical core. -/
  vcs : Map Vc := []
  /-- HBM4 stacks 0 to 15. -/
  hbms : Map Hbm := []
  /-- Scrubbers: core * 4 + 0 scratch, + 1 slice; 2^16 + cluster for cluster memory. -/
  scrubs : Map Scrub := []
  /-- When SRAM_UNCORRECTABLE last named a core's scratch or slice (R403). -/
  lastBad : Map Nat := []
  deriving DecidableEq, Repr

end Sys2Proof.Machine
end

