-- ==== Sys2Proof/Machine/StMgmt.lean ====
section
/-! DEFINITION. StMgmt.lean: management processors, commands, roles, configuration, failover, guest firewall and observation
(spec/12, spec/14, spec/16). -/
namespace Sys2Proof.Machine

/-- A journal entry (R363). `stage` is 0 TAKEN, 1 PREPARED, 2 COMMITTED, 3 ANSWERED. -/
structure JEntry where
  op : Nat
  req : Req
  stage : Nat := 0
  /-- The ticket, where the command waits. -/
  ticket : Option Nat := none
  /-- Controllers that prepared, and controllers that applied a COMMIT (R364). -/
  prepared : List Nat := []
  applied : List Nat := []
  status : Nat := 0
  detail : Nat := 0
  words : List (BitVec 32) := []
  /-- When the request was taken. -/
  takenAt : Nat := 0
  /-- The controllers concerned, where they are more than one (R364). -/
  sites : List Nat := []
  /-- To be carried out afresh after a takeover, with its ticket (R366). -/
  redo : Bool := false
  deriving DecidableEq, Repr

/-- A ticket (R360). -/
structure Ticket where
  op : Nat
  done : Bool := false
  status : Nat := 0
  detail : Nat := 0
  words : List (BitVec 32) := []
  deriving DecidableEq, Repr

/-- An out-of-band peer (R361). -/
structure OobPeer where
  addr : Nat
  lastAt : Nat
  /-- CHAN_SEQ values kept, newest first, each with its answer once there is one. -/
  kept : List (Nat × Option (List (BitVec 32))) := []
  deriving DecidableEq, Repr

/-- A drill in progress (R414). -/
structure Drill where
  ticket : Nat
  startedAt : Nat
  /-- This package lends itself the manager role for the drill (R419). -/
  lent : Bool := false
  deriving DecidableEq, Repr

/-- The management processors (R352 to R367, R409 to R416). -/
structure Mgmt where
  /-- A processor runs commands: started, and not in recovery or off. -/
  running : Bool := false
  activeB : Bool := false
  standbyOk : Bool := false
  /-- The standby is held in reset. -/
  standbyReset : Bool := true
  selfFails : Nat := 0
  selfFailAt : Option Nat := none
  hbA : BitVec 64 := 0
  hbB : BitVec 64 := 0
  hbAat : Nat := 0
  hbBat : Nat := 0
  term : BitVec 16 := 0
  ctrlTerm : Map (BitVec 16) := []
  /-- Prepared commands, by site: the term under which, the opcode and the tag. -/
  held : Map (BitVec 16 × Nat × Req) := []
  journal : List JEntry := []
  tickets : Map Ticket := []
  nextTicket : BitVec 16 := 0
  takeoverAt : Option Nat := none
  /-- The former processor has been reset since the takeover (R410). -/
  formerReset : Bool := true
  /-- Messages that arrived while the new processor waited after its takeover, oldest first (R366): channel, words, payload. -/
  waitMsgs : List (Chan × List Word32 × List Byte) := []
  /-- The private SRAM of the two processors (R352): the 64-bit words that differ from zero, by processor * 2^17 + word, and the words that the code of
  spec/04 R116 cannot correct. -/
  sram : Map (BitVec 64) := []
  sramBad : List Nat := []
  deriving DecidableEq, Repr

/-- Failover history, controllers and channels. -/
structure Mgmt2 where
  /-- Losses of control by R409 since start, and when control was last lost but by a drill, whose 1 h does not count (R412, R414): by
  processor, 0 MP-A and 1 MP-B. -/
  lossN : Map Nat := []
  lossAt : Map Nat := []
  lostCtlAt : Option Nat := none
  standbySince : Option Nat := none
  /-- The loss in force allows no return (R412). -/
  noReturn : Bool := false
  drill : Option Drill := none
  drillPassAt : Option Nat := none
  ctrlSeen : Map Nat := []
  ctrlDown : List Nat := []
  /-- Episodes: when a controller was last declared unresponsive (R405). -/
  episodes : Map Nat := []
  oobUp : Bool := false
  oobPeers : List OobPeer := []
  /-- SMBus: a request taken and not answered, and the held answer (spec/17 R475). -/
  smbBusy : Bool := false
  smbAnswer : Option (List (BitVec 32)) := none
  smbHealthSeq : BitVec 32 := 0
  deriving DecidableEq, Repr

/-- Roles and the pod (R362, R375, R376, R417 to R419). -/
structure Pod where
  /-- ROLE of R347: 0 worker, 1 manager, 2 standby manager. -/
  role : Nat := 0
  podState : Nat := 0
  podId : BitVec 16 := 0
  pkgId : BitVec 16 := 0
  pkgValid : Bool := false
  managerPkg : BitVec 16 := 0
  standbyPkg : BitVec 16 := 0
  fmTerm : BitVec 16 := 0
  fmNewest : Option Nat := none
  /-- FM_SEQ values marked in the bitmap of the last 1,024. -/
  fmMarks : List Nat := []
  fmDiscards : Nat := 0
  lastHeartbeat : Option Nat := none
  managerLost : Bool := false
  /-- The manager's own side: members, heartbeats unanswered by package, lease, own FM_SEQ, outstanding. -/
  members : List Nat := []
  missed : Map Nat := []
  leaseAt : Option Nat := none
  leaseHeld : Bool := false
  ownFmSeq : BitVec 32 := 0
  /-- When the last round of heartbeats was sent (R376). -/
  hbSentAt : Option Nat := none
  /-- Worker commands that wait while 256 are outstanding (R362): package, opcode, arguments, payload, and what each serves. -/
  waitSend : List (Nat × Nat × List Nat × List Byte × Nat) := []
  /-- Worker commands outstanding: FM_SEQ, package, opcode, and the job or ticket that each serves. -/
  outstanding : List (Nat × Nat × Nat × Nat) := []
  deriving DecidableEq, Repr

/-- The role's history (R419). -/
structure Pod2 where
  formerManager : Bool := false
  lostRoleAt : Option Nat := none
  roleLosses : Nat := 0
  /-- The loss in force allows no return (R419). -/
  noReturn : Bool := false
  /-- Reports received, by worker: newest FM_SEQ and those marked (R370). -/
  repNewest : Map Nat := []
  repMarks : Map (List Nat) := []
  /-- At the manager: the CORES of each worker's last heartbeat answer, and the packages whose path to a package is FAILED (spec/09 R289). -/
  lastCores : Map Nat := []
  pathFails : Map (List Nat) := []
  deriving DecidableEq, Repr

/-- A configuration item's instance (R372, R373). `src` is 0 base, 1 overlay, 2 written. -/
structure CfgItem where
  base : BitVec 64
  eff : BitVec 64
  held : Option (BitVec 64) := none
  src : Nat := 0
  /-- The source that the held value will have. -/
  heldSrc : Nat := 0
  deriving DecidableEq, Repr

/-- The guest firewall (R420 to R423). -/
structure Guest where
  ctl : BitVec 64 := 0
  win : BitVec 64 := 0
  fitted : Bool := false
  fenced : Bool := false
  linkUp : Bool := false
  /-- GTC values of the violations of the last second, newest first. -/
  viols : List Nat := []
  violSec : Option Nat := none
  violCount : Nat := 0
  /-- When the link was lost, in the last hour. -/
  losses : List Nat := []
  deriving DecidableEq, Repr

/-- A raw counter and its extension (R446). -/
structure Ctr where
  raw : BitVec 48 := 0
  prev : BitVec 48 := 0
  ext : BitVec 64 := 0
  deriving DecidableEq, Repr

/-- A test in progress (R453, R454). -/
structure TestRun where
  ticket : Nat
  kind : Nat
  site : Nat
  a2 : Nat
  /-- What the work has found so far: the failed lanes of a lane test, 1 for a calibration rejected. -/
  found : Nat := 0
  /-- The calibration was pre-empted (spec/05 R153). -/
  preempted : Bool := false
  deriving DecidableEq, Repr

/-- Counters, tracing, tests and the test access port (spec/16). -/
structure Obs where
  /-- Counters by identifier * 2^24 + instance. -/
  ctrs : Map Ctr := []
  lastPoll : Nat := 0
  /-- Trace kinds on, by site: bit 0 PC, bit 1 SYNC, bit 2 DESC. -/
  trace : Map Nat := []
  paused : List Nat := []
  notWritten : Map Nat := []
  rotation : Map Nat := []
  /-- When each die was last sampled (R451). -/
  sampleAt : Map Nat := []
  tests : List TestRun := []
  /-- Measurements waiting, by site, oldest first. -/
  waiting : List TestRun := []
  /-- Node connected, by site * 2 + bus: the kind and since when (R459). -/
  atb : Map (Nat × Nat) := []
  /-- The current test access port instruction (R460): 0 IDCODE, 1 BYPASS, 2 SAMPLE/PRELOAD, 3 EXTEST, 4 CLAMP, 5 HIGHZ. -/
  tap : Nat := 0
  deriving DecidableEq, Repr

/-- Fences in force and returns (R402 to R404): the cause, by unit. -/
structure Rel where
  /-- Stacks fenced, with their cause. -/
  stackF : Map Nat := []
  /-- Compute tiles fenced, with their cause. -/
  tileF : Map Nat := []
  deriving DecidableEq, Repr

end Sys2Proof.Machine
end

