-- ==== Sys2Proof/Machine/StOut.lean ====
section
/-! DEFINITION. StOut.lean: what the block sends out of itself (log 16). -/
namespace Sys2Proof.Machine

/-- One thing sent: to the host, a manager, a peer endpoint, the fabric or a client. -/
inductive Out where
  /-- An MSI-X message of a vector (R344). -/
  | msix (vector : Nat) (addr : BitVec 64) (data : BitVec 32)
  /-- An answer of R358 on its channel, with its payload. -/
  | answer (ch : Chan) (words : List Word32) (payload : List Byte)
  /-- A management message on VC7 to a site: its kind, the control term that it carries, and its fields (R196, R354). -/
  | mgmt (site kind term : Nat) (fields : List Nat)
  /-- An on-package packet (R188): OP, source, destination, tag, fields, payload. -/
  | packet (op src dst tag : Nat) (fields : List Nat) (payload : List Byte)
  /-- A flit-level control message of a bundle: kind, fields (R184 to R204). -/
  | link (bundle kind : Nat) (fields : List Nat)
  /-- A fabric packet on a port to a package: kind, fields, payload (R278). -/
  | fabric (port pkg kind : Nat) (fields : List Nat) (payload : List Byte)
  /-- A reply record of the request engine (R314): the sender, fields and payload. -/
  | reply (peer : Nat) (fields : List Nat) (payload : List Byte)
  /-- A completion towards the host on PCI Express: kind, address, bytes. -/
  | pcie (kind addr : Nat) (payload : List Byte)
  /-- An IEEE 1588 message on an Ethernet port: 1 a delay request, 2 the answer to one, 3 Announce, 4 Sync, 5 Follow_Up; its fields (spec/07 R231). -/
  | ptp (port kind : Nat) (fields : List Nat)
  /-- An SMBus response: the bytes returned. -/
  | smbus (payload : List Byte)
  /-- A worker command or a worker's report (spec/12 R362, R370): package, FM_SEQ, opcode, arguments, and the message as it travels. -/
  | worker (pkg seq op : Nat) (args : List Nat) (wire : List Byte)
  /-- The copy of a message of the FM channel in a datagram on the out-of-band port: the package and the message as it travels (spec/09 R298, spec/12
  R362). -/
  | oobCopy (pkg : Nat) (wire : List Byte)
  /-- A copy of a worker command to the standby manager (spec/14 R417): its package, then what the command says. -/
  | copy (standby pkg seq op : Nat) (args : List Nat) (payload : List Byte)
  /-- A packet to the guest die by TAG: OP, tag, status and poison mask, payload (R421). -/
  | guest (kind tag : Nat) (fields : List Nat) (payload : List Byte)
  /-- The test access port's data: the register shifted out (R460). -/
  | tap (w : BitVec 32)
  deriving DecidableEq, Repr

end Sys2Proof.Machine
end

