-- ==== Sys2Proof/Machine/StPart.lean ====
section
/-! DEFINITION. StPart.lean: partitions, their plans and their job records (spec/02 R44 to R52, R77; spec/04 R125; spec/09 R265). -/
namespace Sys2Proof.Machine

/-- An address window of a partition (spec/04 R125). -/
structure Win where
  base : Nat
  len : Nat
  rd : Bool
  wr : Bool
  deriving DecidableEq, Repr

/-- A partition. `plan` is 0 NONE, 1 LOADED, 2 RUNNING, 3 ENDING, 4 ABORTING (R49). -/
structure Part where
  /-- Bit n for stack Sn. -/
  stackSet : Nat
  mode : Nat
  /-- Owner channel: 0 PCIe, 1 OOB, 2 SMBus. -/
  owner : Nat
  plan : Nat := 0
  /-- Runs left, this one included; none to run until stopped. -/
  runs : Option Nat := none
  /-- The RUN value (spec/08 R258). -/
  run : BitVec 8 := 0
  /-- Named cores, by core number, and the schedule length of each. -/
  named : Map Nat := []
  resetCtx : Bool := false
  windows : Map Win := []
  heldOverlay : Option Nat := none
  /-- Windows held for the job boundary: set to a window, or cleared (spec/12 R371). -/
  heldWins : Map (Option Win) := []
  /-- Semaphores saturated in this plan, core number * 32 + semaphore (R244). -/
  saturated : List Nat := []
  /-- Abort cause and origin core of the abort in progress (R51). -/
  abortCause : Nat := 0
  /-- A stack has left the partition since the plan was loaded (spec/14 R402). -/
  left : Bool := false
  /-- Cores to retire at the next plan boundary (R80): core number and ticket. -/
  retire : List (Nat × Nat) := []
  deriving DecidableEq, Repr

/-- A job record (spec/09 R265). `state` is 0 NONE, 1 ACTIVE, 2 TEARING; `written` while a record
written by FAB_JOB_SET waits for its activation. -/
structure Job where
  id : Nat := 0
  rankBase : Nat := 0
  rankCount : Nat := 0
  groupBase : Nat := 0
  groupCount : Nat := 0
  peers : Nat := 0
  epoch : Nat := 0
  state : Nat := 0
  written : Bool := false
  deriving DecidableEq, Repr

end Sys2Proof.Machine
end

