-- ==== Sys2Proof/Machine/StPho.lean ====
section
/-! DEFINITION. StPho.lean: the photonic layer (spec/05): channels by bundle * 32 + wavelength, bundles, combs by tile * 32 + comb, with
LH as tile 4. -/
namespace Sys2Proof.Machine

/-- A calibration entry (R157): FSR and codes per grid space of both rings, and the five points TX_HEAT, RX_HEAT, BIAS, SETPT. -/
structure CalEnt where
  txFsr : Nat := 0
  rxFsr : Nat := 0
  txSpc : Nat := 0
  rxSpc : Nat := 0
  pts : List (Nat × Nat × Nat × Nat) := List.replicate 5 (0, 0, 0, 0)
  gen : Nat := 0
  deriving DecidableEq, Repr

/-- A ring's loop (R147, R148): 0 LOCKED, 1 SLEWING, 2 NO_LIGHT, 3 HELD; updates at the slew limit, below it, and of low light. A filter's
heater dithers: whether its code now stands one above or one below, and the photocurrent read at the other. -/
structure Loop where
  st : Nat := 3
  atLimit : Nat := 0
  below : Nat := 0
  low : Nat := 0
  up : Bool := false
  last : Nat := 0
  /-- Since when it is NO_LIGHT. -/
  darkAt : Option Nat := none
  deriving DecidableEq, Repr

/-- A channel (R152, R156). -/
structure Ch where
  /-- The state of R152. -/
  st : Nat := 0
  tx : Nat := 0
  rx : Nat := 0
  bias : Nat := 0
  setpt : Nat := 0
  /-- The lane that λ16 carries while it is SUBSTITUTE. -/
  lane : Nat := 16
  txLoop : Loop := {}
  rxLoop : Loop := {}
  calUnstable : Bool := false
  /-- When the last calibration was accepted, and the temperatures of both rings then, in 1/16 °C (R159). -/
  calAt : Option Nat := none
  txTemp : Int := 0
  rxTemp : Int := 0
  rejects : Nat := 0
  /-- Not due before this moment, after a rejected run (R161). -/
  retryAt : Nat := 0
  /-- Due: 0 no, 1 by rotation, 2 by temperature, 3 by request; the change of temperature. -/
  due : Nat := 0
  delta : Nat := 0
  /-- A calibration run is in progress, and its measurements are done. -/
  run : Bool := false
  measured : Bool := false
  /-- Valid words in a row that name another channel, and that name this one (R166, R167). -/
  mism : Nat := 0
  good : Nat := 0
  attempts : Nat := 0
  /-- Rings taken as mislocked: 1 modulator, 2 filter, 3 both. -/
  rings : Nat := 0
  deriving DecidableEq, Repr

/-- A bundle (R153, R154). `st` is 0 FULL, 1 NO_SPARE, 2 REDUCED, 3 DOWN, 4 FAILED. -/
structure Bundle where
  lit : Bool := false
  st : Nat := 3
  lanes : Nat := 0
  serviceLost : Bool := true
  /-- When its service stream last came back (R165). -/
  upAt : Nat := 0
  /-- The holder of λ16 and the claims that wait: rank and wavelength. -/
  holder : Option (Nat × Nat) := none
  waiting : List (Nat × Nat) := []
  deriving DecidableEq, Repr

/-- A castling in progress (R172, R173): λ16 switched, lines moved, in the order λ0 to λ15, λ17, whether the next of them is CASTLING, the spare's
lines as last read, and the rounds in a row in which the spare has faded by 3.0 dB (R174). -/
structure Cast where
  l16 : Bool := false
  moved : Nat := 0
  line : Bool := false
  pow : List Nat := []
  r30 : Nat := 0
  deriving DecidableEq, Repr

/-- A comb (R169 to R176). -/
structure Comb where
  lit : Bool := false
  /-- The power of each line λ0 to λ17 in nW, the mean of its taps, and the total output, as last read (R171). -/
  pow : List Nat := []
  total : Nat := 0
  weak : Bool := false
  weakClear : Nat := 0
  r15 : Nat := 0
  r30 : Nat := 0
  cast : Option Cast := none
  /-- The group's spare serves in its place. -/
  onSpare : Bool := false
  dropped : List Nat := []
  deriving DecidableEq, Repr

/-- The CW source of a port (R177), its own or the spare 16 or 17 that has replaced it; `last` is the power last read at its taps. -/
structure Cw where
  src : Option Nat := none
  last : Nat := 0
  weak : Bool := false
  r15 : Nat := 0
  r30 : Nat := 0
  clear : Nat := 0
  failed : Bool := false
  deriving DecidableEq, Repr

/-- Everything of spec/05. The calibration store holds an entry of 64 bytes for each channel (R157). -/
structure Pho where
  chans : Map Ch := []
  bundles : Map Bundle := []
  combs : Map Comb := []
  /-- Groups whose spare comb is used or failed, by tile * 8 + group. -/
  spent : List Nat := []
  cws : Map Cw := []
  cwSpares : Nat := 2
  /-- Calibration entries as updated, and as the store holds them; channels whose entry waits for the store. -/
  ents : Map CalEnt := []
  stored : Map (List (BitVec 8)) := []
  dirty : List Nat := []
  /-- When each tile last wrote its entries to the store (R162). -/
  storeAt : Map Nat := []
  /-- The commissioned powers in nW, of the lines of each comb, spares included, and of the lanes of each CW source (R146, R157). -/
  comm : Map (List Nat) := []
  cwComm : Map (List Nat) := []
  /-- The sensors of each tile when its heaters were first set (R178). -/
  temps0 : Map (List (Option Int)) := []
  deriving DecidableEq, Repr

end Sys2Proof.Machine
end

