-- ==== Sys2Proof/Machine/StPower.lean ====
section
/-! DEFINITION. StPower.lean: the package's pins and fuses, power, sensing, the always-on domain and the firmware store
(spec/01, spec/13, spec/15, spec/17). -/
namespace Sys2Proof.Machine

/-- The control and strap lands (spec/17 R467, R468). -/
structure Pins where
  vin12 : Bool := false
  pwrgd : Bool := false
  /-- HWRST# asserted. -/
  hwrst : Bool := false
  /-- PERST# asserted. -/
  perst : Bool := true
  testmode : Bool := false
  smbAddr1 : Bool := false
  smbAddr0 : Bool := false
  /-- Straps as sampled at the start moment: SMBus address, production test mode. -/
  smbAddr : Nat := 0x48
  testSampled : Bool := false
  deriving DecidableEq, Repr

/-- Fuses (R25, R38, R441). -/
structure Fuses where
  /-- Identity fuse block by position (the SITE_ID of the place where the die stands). -/
  blocks : Map (BitVec 256) := []
  /-- Timing-margin map by stack: the 256 codes in region order, low code first, and its CRC-16. -/
  margin : Map (BitVec 1024 × BitVec 16) := []
  deriving DecidableEq, Repr

/-- The package as a whole. -/
structure Pkg where
  /-- 0 RUN, 1 IDLE, 2 DEEP, 3 OFF (R384). -/
  power : Nat := 3
  starting : Bool := false
  /-- ROM recovery mode (R440) and its cause: 0 fuse, 1 banks, 2 self-check. -/
  recovery : Bool := false
  recCause : Nat := 0
  /-- The site and the check (0 FUSE_CRC, 1 FUSE_BLANK, 2 IDENT_MISMATCH, 3 SITE_MISPLACED) that keep the package from starting (R28). -/
  recFault : Option (Nat × Nat) := none
  /-- A recovery entry to report at the next normal start. -/
  recReport : Option Nat := none
  flashBad : Bool := false
  /-- Part now running: 0x01 or 0x02 (R29). -/
  part : Nat := 1
  /-- Sites in service. -/
  present : List Nat := []
  /-- Sites held out of service. -/
  heldOut : List Nat := []
  /-- Sites on the design-default calibration. -/
  defCal : List Nat := []
  /-- A wake in progress and the POWER_STATEs that wait: ticket (2^16 for the wake input) and target (R384). -/
  transition : Option (Nat × Nat) := none
  waitingPower : List (Nat × Nat) := []
  deriving DecidableEq, Repr

/-- The thermal state of one die: KC 0x20+n, tile 0x40+t, KH 0x60, KS 0x80+n, HBM4 stack 0xA0+m (R389 to R393). -/
structure Therm where
  maximum : Int := 0
  warn : Bool := false
  throttle : Bool := false
  shutdown : Bool := false
  /-- Since when the maximum has stood below the warning threshold less H. -/
  coolSince : Option Nat := none
  warnClear : Nat := 0
  thrClear : Nat := 0
  /-- Sensors broken. -/
  broken : List Nat := []
  /-- Rounds in a row that a sensor has differed from its neighbours. -/
  differ : Map Nat := []
  deriving DecidableEq, Repr

/-- The power of one KC die (R379 to R383, R391, R394). -/
structure DiePower where
  /-- The grant that the die has applied. -/
  grant : Nat := 0
  /-- Watts counted against the pool by the processor. -/
  acct : Nat := 0
  /-- A decrease sent and not acknowledged: the new grant and its sequence number. -/
  decrease : Option (Nat × Nat) := none
  /-- A rise that waits for pool. -/
  rise : Option Nat := none
  cap : Nat := 380
  capAt : Nat := 0
  atLimit : Nat := 0
  below : Nat := 0
  draws : List Nat := []
  /-- Middle-layer cross-check: n, raised, rounds towards clearing. -/
  disN : Nat := 0
  disOn : Bool := false
  disClear : Nat := 0
  overSec : Option Nat := none
  deriving DecidableEq, Repr

/-- A coolant condition: rounds inside, rounds outside, in force (R396). -/
structure CoolCond where
  inside : Nat := 0
  outside : Nat := 0
  on : Bool := false
  deriving DecidableEq, Repr

/-- Power and thermal state (spec/13). -/
structure Power where
  budget : Nat := 0
  nonKc : Nat := 0
  /-- Draws of the other consumers over the last second, newest first. -/
  nonKcLog : List (Nat × Nat) := []
  grantSeq : BitVec 16 := 0
  /-- When the division was last recomputed by the second (R381). -/
  dividedAt : Option Nat := none
  /-- When each site's last housekeeping round was (R389). -/
  roundAt : Map Nat := []
  dies : Map DiePower := []
  /-- Phases lost, and the phases that the rail has without its spares, by rail number. -/
  phases : Map (Nat × Nat) := []
  therm : Map Therm := []
  /-- Hysteresis in degrees by die type: 0 KC, KS and KH; 1 tiles; 2 HBM4 (R390). -/
  hyst : Map Nat := []
  /-- Reduction of the package budget by LH and KH throttle, in W (R391). -/
  reduction : Nat := 0
  reductionAt : Nat := 0
  cool : Map CoolCond := []
  /-- Inlet, outlet in 1/16 degree, pressure flow, heat flow in mL/min, last round. -/
  inlet : Int := 0
  outlet : Int := 0
  pFlow : Nat := 0
  hFlow : Nat := 0
  flowRounds : Nat := 0
  /-- Thermal resistances of each stack's calibration record, in mK/W: up, down (R394). -/
  theta : Map (Nat × Nat) := []
  /-- The sensors of each tile as sampled in its last housekeeping round, in 1/16 degree (spec/05 R149). -/
  tileTemps : Map (List (Option Int)) := []
  /-- Hottest sensor under each stack, of the tile's 8, in 1/16 degree. -/
  under : Map Int := []
  deriving DecidableEq, Repr

/-- The always-on domain (R397). -/
structure Aon where
  up : Bool := false
  gtc : BitVec 64 := 0
  phase : Nat := 0
  origin : BitVec 64 := 0
  /-- 0 none, 1 command, 2 wake input. -/
  wakeCause : Nat := 0
  /-- Latches: hot-spot, VIN12 window, R391 entry to OFF. -/
  latchHot : Bool := false
  latchVin : Bool := false
  latchOff : Bool := false
  /-- The latches hold the package in OFF. -/
  holdOff : Bool := false
  /-- Comparators tripped now: coolant inlet, VIN12 window. -/
  inletTrip : Bool := false
  vinTrip : Bool := false
  vinTripAt : Nat := 0
  wakeCount : Nat := 0
  /-- Trips to report: comparator and power state at the trip. -/
  report : List (Nat × Nat) := []
  deriving DecidableEq, Repr

/-- The settings record (R438). -/
structure Settings where
  lock : Bool := false
  role : Nat := 0
  podId : Nat := 0
  managerPkg : Nat := 0
  standbyPkg : Nat := 0
  pkgId : Nat := 0
  drillAt : Nat := 0
  format : Nat := 0
  deriving DecidableEq, Repr

/-- The SPI NOR flash (R424). -/
structure Flash where
  good : Bool := true
  sel0 : List (BitVec 8) := []
  sel1 : List (BitVec 8) := []
  bankA : List (BitVec 8) := []
  bankB : List (BitVec 8) := []
  settings : Settings := {}
  cert : List (BitVec 8) := []
  deriving DecidableEq, Repr

/-- An activation in progress (R432): ticket, the unit that reloads now (none while the roll pauses), units reloaded. -/
structure Activation where
  ticket : Nat
  unit : Option Nat := none
  done : List Nat := []
  oldVersion : Nat
  newVersion : Nat
  deriving DecidableEq, Repr

/-- Update, measurement and recovery (spec/15). -/
structure Upd where
  flash : Flash := {}
  /-- The manifest VERSION running, its KEY_INDEX and RB_EPOCH. -/
  version : Nat := 0
  keyIndex : Nat := 0
  rbEpoch : Nat := 0
  bankActive : Nat := 0
  staged : Option Nat := none
  activation : Option Activation := none
  meas : List (List (BitVec 8)) := []
  log : List (List (BitVec 8)) := []
  logOverflow : Bool := false
  rcvLen : Option Nat := none
  rcvImage : List (BitVec 8) := []
  rcvBank : Nat := 0
  rcvFuse : Bool := false
  /-- The overlays of the running image by mode: item and value (R372). -/
  overlays : Map (List (Nat × BitVec 64)) := []
  deriving DecidableEq, Repr

end Sys2Proof.Machine
end

