-- ==== Sys2Proof/Machine/StSync.lean ====
section
/-! DEFINITION. StSync.lean: combiners, barrier messages, remote posts and the stalemate detector (spec/08). -/
namespace Sys2Proof.Machine

/-- The level of a combiner (R253). -/
inductive Level where
  | cluster
  | die
  | package
  | fabric
  deriving DecidableEq, Repr

/-- A barrier arrival on its way to a combiner (R252, R253): the partition and RUN, the level of the combiner, which one it
is there (cluster number, stack, or 0), the slot and sense, the sender as a child of that combiner (core, cluster or
partition-relative stack; package at fabric level), the slot's configuration, and for an arrival of a core its order. -/
structure Arrival where
  pt : Nat
  run : Nat
  level : Level
  unit : Nat
  slot : Nat
  sense : Bool
  sender : Nat
  cfg : BitVec 64
  core : Option Nat := none
  seq : Nat := 0
  deriving DecidableEq, Repr

/-- A release on its way down to a combiner (R255). -/
structure Release where
  pt : Nat
  run : Nat
  level : Level
  unit : Nat
  slot : Nat
  sense : Bool
  /-- A release of the fabric level: the DIEMASK of the group's entry and the configuration (spec/09 R297). -/
  tree : Option (Nat × BitVec 64) := none
  deriving DecidableEq, Repr

/-- A remote post in flight (R247). -/
structure RPost where
  src : Nat
  target : Nat
  sem : Nat
  n : Nat
  seq : Nat
  deriving DecidableEq, Repr

/-- A combiner's state for one slot and sense (R253, R255, R259). -/
structure Combiner where
  /-- Children that have arrived. -/
  arrived : List Nat := []
  /-- Configuration taken from the ply's first arrival. -/
  cfg : Option (BitVec 64) := none
  /-- All have arrived, and the arrival has been forwarded or the release sent. -/
  sent : Bool := false
  /-- Children whose next arrival of the sense is discarded after a forced release. -/
  skip : List Nat := []
  deriving DecidableEq, Repr

/-- A stalemate reported on a die: the wait classes of its named cores then (R261). -/
structure Stale where
  classes : List (Nat × Nat)
  deriving DecidableEq, Repr

/-- Everything of spec/08 outside the cores. -/
structure Sync where
  /-- Combiners by the number that `combKey` gives. -/
  combs : Map Combiner := []
  arrivals : List Arrival := []
  releases : List Release := []
  posts : List RPost := []
  /-- By partition * 16 + stack: a stalemate that has been reported, and the GTC from which the die's cores of the partition have made no
  progress (R261). -/
  stale : Map Stale := []
  quiet : Map Nat := []
  /-- By stack: semaphore increases, remote posts and barrier releases that have reached its cores (R261). -/
  moved : Map Nat := []
  deriving DecidableEq, Repr

end Sys2Proof.Machine
end

