-- ==== Sys2Proof/Machine/StXpt.lean ====
section
/-! DEFINITION. StXpt.lean: on-package transport (spec/06): links by bundle * 2, + 1 for the service stream's VC7; port sides by
(stack * 12 + port) * 2, + 1 for the tile's side. -/
namespace Sys2Proof.Machine

/-- A HEAD or BODY flit that waits to be sent (R183, R187): its virtual channel and its 240 bytes of BODY. -/
structure Flit where
  vc : Nat
  head : Bool
  body : List (BitVec 8)
  deriving DecidableEq, Repr

/-- A flit in a retry buffer (R194): SEQ, virtual channel, kind, BODY, and replays. -/
structure RFlit where
  seq : Nat
  vc : Nat
  head : Bool := true
  body : List (BitVec 8) := []
  tries : Nat := 0
  /-- It was sent for a credit of the shared pool (R192). -/
  sh : Bool := false
  /-- Its packet has gone by a relay: accepted here, it only clears the link (R195). -/
  gone : Bool := false
  deriving DecidableEq, Repr

/-- A packet that arrives (R187): its channel, the BODYs received, and the buffers that its flits hold, reserved and shared (R191). -/
structure Asm where
  vc : Nat
  bodies : List (List (BitVec 8))
  res : Nat
  sh : Nat
  deriving DecidableEq, Repr

/-- A whole packet that has arrived, with the buffers that hold it. -/
structure Got where
  pkt : OPkt
  res : Nat
  sh : Nat
  deriving DecidableEq, Repr

/-- A link: the transmitter and the receiver of a bundle, or of its service stream (R191 to R195). -/
structure Link where
  next : Nat := 0
  retry : List RFlit := []
  /-- Flits that wait for a credit or for room in the retry buffer, oldest first. -/
  waiting : List Flit := []
  /-- Flits put on the bundle, in their 256 bytes, newest first; on a service stream the frames that carry them (spec/05 R164), and the bits of
  VC7 that wait for a frame. -/
  wire : List (List (BitVec 8)) := []
  frames : List (List (BitVec 16)) := []
  vcBits : Nat := 0
  vcLen : Nat := 0
  /-- Reserved buffers in use by virtual channel, and shared ones; the counts of freed buffers last heard. -/
  used : Map Nat := []
  shared : Nat := 0
  ccnt : Map Nat := []
  shcnt : Nat := 0
  stuck : Bool := false
  /-- The traffic of a stuck link has been handed to its relay (R195). -/
  relayed : Bool := false
  /-- Arbitration (R193): the ORDERED and the BULK channel granted last, and for each BULK channel the slots for which it has waited with credit. -/
  lastO : Nat := 1
  lastB : Nat := 5
  since : Map Nat := []
  /-- The receiver: the SEQ expected, a NAK outstanding, flits in a row that failed, and when NAKs were sent in the last 10 µs. -/
  expect : Nat := 0
  nak : Bool := false
  bad : Nat := 0
  naks : List Nat := []
  /-- Its buffers in use, reserved by virtual channel and shared; packets that arrive, and those that have arrived, oldest first. -/
  held : Map Nat := []
  heldSh : Nat := 0
  asm : List Asm := []
  arrived : List Got := []
  /-- Cumulative counts of freed buffers, modulo 256; the channels whose counts are to be returned, in rotation, and the one returned last (R192). -/
  freed : Map Nat := []
  freedSh : Nat := 0
  due : List Nat := []
  lastC : Nat := 0
  deriving DecidableEq, Repr

/-- One side of a down port (R201 to R207). `state` is 0 RESET, 1 TRAINING, 2 ACTIVE, 3 FENCED; `step` is 1 START sent, 2 lane
test, 3 PROPOSE sent, 4 CONFIRM sent. -/
structure PortSide where
  state : Nat := 0
  width : Nat := 0
  localEp : BitVec 16 := 0
  peerEp : BitVec 16 := 0
  step : Nat := 0
  own : Option Nat := none
  peer : Option Nat := none
  restart : Bool := false
  /-- The side's controller has started from reset, and its next START says so (R201). -/
  init : Bool := false
  cap : Nat := 3
  fails : Nat := 0
  /-- The neighbour whose bundles this port carries. -/
  adopted : Option Nat := none
  /-- Spares left in groups G0 to G7. -/
  spares : List Nat := [4, 4, 4, 4, 4, 4, 4, 4]
  sparesUsed : Nat := 0
  /-- Spares that the peer has asked this side to drive. -/
  drive : Nat := 0
  deriving DecidableEq, Repr

/-- Everything of spec/06. -/
structure Xpt where
  links : Map Link := []
  /-- The relay by which a request has come, by (endpoint * 32 + source) * 65536 + TAG: its answer returns the same way (R197). -/
  paths : Map Nat := []
  /-- The port of a die at which a cluster's request has left, by die * 65536 + TAG: its answer comes in by the same port (spec/01 R32). -/
  reqPort : Map Nat := []
  ports : Map PortSide := []
  deriving DecidableEq, Repr

end Sys2Proof.Machine
end

