-- ==== Sys2Proof/Machine/State.lean ====
section
/-! DEFINITION. State.lean: the state of the block (INVENTORY.md, State), the reasons to stop, and the state after reset. -/
namespace Sys2Proof.Machine

/-- The state of the package: plain data, one field per chapter of the spec, and the queue of commands. -/
structure State where
  /-- The commands that wait, first in, first out. -/
  pending : List Instr := []
  /-- Nanoseconds that the model has counted (log 3). -/
  now : Nat := 0
  /-- Where the next free value is drawn (log 8). -/
  fresh : Nat := 0
  /-- What has been sent, newest first (log 16). -/
  out : List Out := []
  pins : Pins := {}
  fuses : Fuses := {}
  pkg : Pkg := {}
  aon : Aon := {}
  clk : Clk := {}
  evq : Map EvQueue := []
  hp : HostPort := {}
  hl : HostLink := {}
  mp : Mgmt := {}
  mp2 : Mgmt2 := {}
  pod : Pod := {}
  pod2 : Pod2 := {}
  /-- Configuration items by item * 16 + instance. -/
  cfg : Map CfgItem := []
  guest : Guest := {}
  obs : Obs := {}
  rel : Rel := {}
  pwr : Power := {}
  upd : Upd := {}
  /-- Partitions by number. -/
  parts : Map Part := []
  /-- Job records by partition. -/
  jobs : Map Job := []
  cores : Cores := {}
  mem : Memory := {}
  sync : Sync := {}
  fab : Fabric := {}
  eng : Eng := {}
  pho : Pho := {}
  xpt : Xpt := {}
  deriving DecidableEq, Repr

/-- Why a step stops with a fault: nothing of this block does. -/
inductive Fault where
  /-- Never raised: every fault that the spec names is an effect on the state (safe). -/
  | none
  deriving DecidableEq, Repr

/-- Why a command is refused. -/
inductive Refusal where
  /-- Raised by a dispatch arm of a command without a meaning (safe). -/
  | notModelled (mnemonic : String)
  /-- Raised by JTAG_INSTRUCTION for a private instruction in production test mode, whose effect the spec does not give
  (spec/16 R460; safe). -/
  | privateTestInstruction
  deriving DecidableEq, Repr

/-- The identity fuse blocks of the package that the reset describes (log 5): a KV-480, serial number 1, every die of REV 0, CAL_BASE and ROLLBACK
0, FUSE_FMT 1, PART 1, each with its SITE_ID and its IDENT_CRC (spec/01 R25, R26; spec/17 R477). -/
def resetBlocks : Map (BitVec 256) := [
  (0x20, 0x100000000000000000000000000000000263e010001000020#256),
  (0x21, 0x100000000000000000000000000000000361f010001000021#256),
  (0x22, 0x100000000000000000000000000000000067c010001000022#256),
  (0x23, 0x100000000000000000000000000000000165d010001000023#256),
  (0x24, 0x10000000000000000000000000000000066ba010001000024#256),
  (0x25, 0x100000000000000000000000000000000769b010001000025#256),
  (0x26, 0x10000000000000000000000000000000046f8010001000026#256),
  (0x27, 0x10000000000000000000000000000000056d9010001000027#256),
  (0x28, 0x100000000000000000000000000000000a736010001000028#256),
  (0x29, 0x100000000000000000000000000000000b717010001000029#256),
  (0x2A, 0x100000000000000000000000000000000877401000100002a#256),
  (0x2B, 0x100000000000000000000000000000000975501000100002b#256),
  (0x40, 0x1000000000000000000000000000000004a98010001000040#256),
  (0x41, 0x1000000000000000000000000000000005ab9010001000041#256),
  (0x42, 0x1000000000000000000000000000000006ada010001000042#256),
  (0x43, 0x1000000000000000000000000000000007afb010001000043#256),
  (0x44, 0x1000000000000000000000000000000000a1c010001000044#256),
  (0x60, 0x1000000000000000000000000000000006efa010001000060#256)]

/-- Its timing-margin maps (log 5): every code 0xF, with the CRC-16 of the 128 bytes (spec/01 R38). -/
def resetMargin : Map (BitVec 1024 × BitVec 16) := (List.range 12).map (fun n => (n, (BitVec.allOnes 1024, 7587#16)))

/-- The state right after reset: an unpowered package with its fuses (log 4, log 5). -/
def State.reset : State := { fuses := { blocks := resetBlocks, margin := resetMargin } }

end Sys2Proof.Machine
end

