-- ==== Sys2Proof/Machine/Ops.lean ====
section
/-! DEFINITION. Ops.lean: the named operations that every family uses: time, events, counters, free values, what is sent,
sites, partitions and configuration items. -/
namespace Sys2Proof.Machine

/-! ## Sites (spec/01 R22, R26) -/

/-- SITE_ID of a compute stack, a tile, the hub tile and the hub die. -/
def siteKC (n : Nat) : Nat := 0x20 + n
def siteLT (t : Nat) : Nat := 0x40 + t
def siteLH : Nat := 0x44
def siteKH : Nat := 0x60

/-- Stacks, tiles, sites and HBM4 stacks of a part code (R3). -/
def stacksOf (part : Nat) : Nat := if part = 2 then 3 else 12
def tilesOf (part : Nat) : Nat := if part = 2 then 1 else 4
def sitesOf (part : Nat) : List Nat :=
  ((List.range (stacksOf part)).map siteKC) ++ ((List.range (tilesOf part)).map siteLT) ++ [siteLH, siteKH]

/-- A SITE_ID that R26 reserves or calls blank. -/
def siteReserved (w : Nat) : Bool :=
  let k := bitsN w 5 3
  let i := bitsN w 0 5
  !((k == 1 && decide (i ≤ 11)) || (k == 2 && decide (i ≤ 4)) || (k == 3 && i == 0))

/-- The site is in service: present, not held out, not fenced. -/
def siteUp (s : State) (site : Nat) : Bool := s.pkg.present.contains site && !(s.pkg.heldOut.contains site)

/-- The stack is in service. -/
def stackUp (s : State) (n : Nat) : Bool := siteUp s (siteKC n) && (mfind s.rel.stackF n).isNone

/-- The SLOW-clocked owner of an event source (R348): its own die, or the hub die. -/
def srcSite (src : Nat) : Nat := if 0x60 ≤ src then siteKH else src

/-- The package runs: RUN or IDLE, started. -/
def running (s : State) : Bool := decide (s.pkg.power ≤ 1) && !s.pkg.starting && s.mp.running

/-! ## Time -/

/-- The clock state of a die. -/
def dieClk (s : State) (site : Nat) : DieClk := mget s.clk.dies {} site
def setDie (s : State) (site : Nat) (d : DieClk) : State :=
  { s with clk := { s.clk with dies := mset s.clk.dies site d } }
/-- GTC of a die (R223); in DEEP the always-on domain continues the hub's (R234, R236). -/
def gtcOf (s : State) (site : Nat) : BitVec 64 := if site = siteKH ∧ s.pkg.power = 2 then s.aon.gtc else (dieClk s site).gtc
/-- The hub's GTC. -/
def hubGtc (s : State) : BitVec 64 := gtcOf s siteKH
/-- The second of R485 that a GTC value falls in. -/
def secondOf (g : BitVec 64) : Nat := g.toNat / 16000000000
/-- The occurrences of the last second, one more than the list among them (R485). -/
def inLastSecond (g : Nat) (l : List Nat) : List Nat := g :: l.filter (fun t => decide (g < t + 16000000000))
/-- The silicon revision of a die (spec/01 R25). -/
def revOf (s : State) (site : Nat) : Nat := bitsN (mget s.fuses.blocks 0 site).toNat 32 8
/-- A rood (R215). -/
def rood (s : State) (site id : Nat) : Rood := mget s.clk.roods {} (site * 16 + id)
def setRood (s : State) (site id : Nat) (r : Rood) : State :=
  { s with clk := { s.clk with roods := mset s.clk.roods (site * 16 + id) r } }
/-- A rood's counter carried to a cycle that a command has reached (R216; log 3). -/
def reachRood (site id t : Nat) (s : State) : State :=
  let r := rood s site id
  let d := t - r.cyc.toNat
  if d = 0 then s else setRood s site id { r with cyc := r.cyc + BitVec.ofNat 64 d, lead := r.lead + d }
/-- The ROOD_DIV to which a rood is on its way (R219, R220). -/
def targetDiv (r : Rood) : Nat := r.heldDiv.getD (r.loading.getD r.div)
/-- The count that an event record carries: a rood's counter, or the SLOW count under 0xF (R236). -/
def cyclesOf (s : State) (site id : Nat) : BitVec 64 :=
  if id = 15 then (dieClk s site).slow else (rood s site id).cyc

/-! ## What is sent, and free values -/

/-- Something sent. -/
def send (o : Out) (s : State) : State := { s with out := o :: s.out }
/-- A message of a controller to the hub, with the control term that it has adopted (spec/12 R354, R365). -/
def sendCtl (site kind : Nat) (fields : List Nat) (s : State) : State :=
  send (.mgmt siteKH kind (mget s.mp.ctrlTerm 0 site).toNat fields) s
/-- A 64-bit free value, and the state that has drawn it (log 8). -/
def drawWord (s : State) : BitVec 64 × State := (Config.freeWord s.fresh, { s with fresh := s.fresh + 1 })
/-- What a lane test that no command carries finds (log 50). -/
def drawLanes (s : State) : LaneFind × State :=
  ({ ctrl := Config.freeBit s.fresh, failed := (List.range 8).map (fun i => (Config.freeByte (s.fresh + 1 + i)).toNat) }, { s with fresh := s.fresh + 9 })
/-- The tiles, of five, whose calibration store fails a write that no command names (spec/05 R162; log 50). -/
def drawStores (s : State) : List Nat × State := ((List.range 5).filter (fun i => Config.freeBit (s.fresh + i)), { s with fresh := s.fresh + 5 })
/-- A free choice. -/
def drawBit (s : State) : Bool × State := (Config.freeBit s.fresh, { s with fresh := s.fresh + 1 })
/-- A list of free bytes. -/
def drawBytes (n : Nat) (s : State) : List Byte × State :=
  ((List.range n).map (fun i => Config.freeByte (s.fresh + i)), { s with fresh := s.fresh + n })

/-! ## Counters (spec/16 R446) -/

/-- The key of a counter. -/
def ctrKey (id inst : Nat) : Nat := id * 2 ^ 24 + inst
/-- A raw counter advanced by `n` modulo 2^48. -/
def bump (id inst n : Nat) (s : State) : State :=
  { s with obs := { s.obs with
      ctrs := mmod s.obs.ctrs {} (ctrKey id inst) (fun c => { c with raw := c.raw + BitVec.ofNat 48 n }) } }
/-- A counter extended to 64 bits (R446). -/
def extend (c : Ctr) : Ctr := { raw := c.raw, prev := c.raw, ext := c.ext + (c.raw - c.prev).zeroExtend 64 }

/-- The tests in progress that `p` picks note what their work has found (spec/16 R453, R457). -/
def noteTests (p : TestRun → Bool) (f : TestRun → TestRun) (s : State) : State :=
  if s.obs.tests.any p then { s with obs := { s.obs with tests := s.obs.tests.map (fun t => if p t then f t else t) } } else s
/-- A test is the calibration of a channel. -/
def testsChannel (b l : Nat) (t : TestRun) : Bool := t.kind == 1 && t.site == b && t.a2 / 2 ^ 16 == l

/-! ## Events (spec/11 R348 to R351) -/

/-- A source of R348. -/
def isSource (src : Nat) : Bool :=
  (decide (0x20 ≤ src ∧ src ≤ 0x2B)) || (decide (0x40 ≤ src ∧ src ≤ 0x44)) || (decide (0x61 ≤ src ∧ src ≤ 0x64))

/-- The continuation records of an event: two slots each (R350, R478). -/
def contRecs (r : EvRec) (slots : List (BitVec 64)) : List EvRec :=
  match slots with
  | [] => []
  | [a] => [{ r with seq := r.seq + 1, more := false, cont := true, cycles := a, args := 0 }]
  | a :: b :: rest =>
    let r' := { r with seq := r.seq + 1, more := !rest.isEmpty, cont := true, cycles := a, args := b }
    r' :: contRecs r' rest

/-- The records of an event; ARGS of one without arguments is all ones (R478). -/
def recsOf (gtc : BitVec 64) (seq : BitVec 32) (src id code : Nat) (cyc : BitVec 64) (args : List (BitVec 64)) : List EvRec :=
  let r : EvRec := { gtc := gtc, seq := seq, source := src, rood := id, more := decide (1 < args.length), cont := false
                     code := code, cycles := cyc, args := args.headD (BitVec.allOnes 64) }
  r :: contRecs r args.tail

/-- An event and its continuations entered in its source's queue together, or counted lost (R350, R351). -/
def pushEvent (src : Nat) (e : BitVec 64 × Nat × Nat × BitVec 64 × List (BitVec 64)) (q : EvQueue) : EvQueue :=
  let rs := recsOf e.1 q.prod src e.2.1 e.2.2.1 e.2.2.2.1 e.2.2.2.2
  if q.recs.length + rs.length ≤ 4096 then { q with prod := q.prod + BitVec.ofNat 32 rs.length, recs := q.recs ++ rs }
  else { q with lost := q.lost + BitVec.ofNat 32 rs.length, lostSince := q.lostSince + rs.length }

/-- An event emitted: entered in its source's queue, or held while its controller reloads (spec/14 R405). -/
def emitW (src id code : Nat) (args : List (BitVec 64)) (s : State) : State :=
  let q := mget s.evq {} src
  let site := srcSite src
  let e := (gtcOf s site, id, code, cyclesOf s site id, args)
  { s with evq := mset s.evq src (if s.mp2.ctrlDown.contains src then { q with held := q.held ++ [e] } else pushEvent src e q) }

/-- The events held by a reload enter the queue as the controller resumes. -/
def releaseEvents (src : Nat) (s : State) : State :=
  let q := mget s.evq {} src
  { s with evq := mset s.evq src (q.held.foldl (fun q e => pushEvent src e q) { q with held := [] }) }

/-- The cluster of a CORE word (spec/12 R368), as the rood that clocks the core (R215). -/
def wordRood (w : Nat) : Nat := if w < 2 ^ 12 then w / 32 % 8 else 15
/-- The rood in which an event arises (spec/07 R215, R236; log 46): of a core or a cluster its cluster rood, of an HBM4 controller the
memory rood, of a port router the port rood, of the fabric the router rood, of the engine and of a management processor their own;
a die or tile controller that reports on none of these stands in no rood. -/
def eventRood (src code : Nat) (args : List Nat) : Nat :=
  let sys := code / 256 % 16
  let a (i : Nat) : Nat := args.getD i 0
  if code = Ev.planAbort then wordRood (a 3)
  else if sys = 1 ∨ code = Ev.vlaneSpared ∨ code = Ev.vcHalfWidth then wordRood (a 0)
  else if code = Ev.sramUncorrectable then (if a 0 = 2 then a 1 % 8 else wordRood (a 1))
  else if code = Ev.traceRecord then wordRood (a 1)
  else if sys = 2 then (if 0x40 ≤ src then 1 else 15)
  else if sys = 4 then (if src < 0x40 then 9 else if src < 0x60 then 0 else 4)
  else if sys = 5 then 15
  else if src = 0x61 then 2
  else if src = 0x62 then 3
  else if src = 0x63 then 0
  else if src = 0x64 then 1
  else 15
/-- An event with its arguments in order, stamped by the rood in which it arises. -/
def emit (src code : Nat) (args : List Nat) (s : State) : State :=
  emitW src (eventRood src code args) code (args.map (BitVec.ofNat 64)) s
/-- An event of a rood. -/
def emitRood (src id code : Nat) (args : List Nat) (s : State) : State := emitW src id code (args.map (BitVec.ofNat 64)) s
/-- All ones: none, or an absent value (R478). -/
def absentArg : Nat := 2 ^ 64 - 1
/-- A pair given as one argument: the first in the low half (R478). -/
def pairArg (a b : Nat) : Nat := a % 2 ^ 32 + 2 ^ 32 * (b % 2 ^ 32)
/-- A list given as one argument: fields of 64 / n bits, the first in the low bits (spec/11 R478). -/
def listArg (l : List Nat) : Nat :=
  let w := 64 / l.length
  (l.zipIdx).foldl (fun a p => a + p.1 % 2 ^ w * 2 ^ (w * p.2)) 0
/-- A signed value in a slot. -/
def intArg (i : Int) : Nat := ofInt 64 i

/-- The event source of the active processor (R348). -/
def mpSrc (s : State) : Nat := if s.mp.activeB then 0x62 else 0x61
/-- An event of the active management processor. -/
def emitMp (code : Nat) (args : List Nat) (s : State) : State := emit (mpSrc s) code args s

/-- The fabric's state replaced. -/
def setFab (f : Fabric) (s : State) : State := { s with fab := f }

/-! ## Partitions and jobs -/

def part (s : State) (pt : Nat) : Option Part := mfind s.parts pt
def setPart (s : State) (pt : Nat) (p : Part) : State := { s with parts := mset s.parts pt p }
def job (s : State) (pt : Nat) : Job := mget s.jobs {} pt
def setJob (s : State) (pt : Nat) (j : Job) : State := { s with jobs := mset s.jobs pt j }
/-- The partition holds a job: its record is ACTIVE or TEARING. -/
def holdsJob (s : State) (pt : Nat) : Bool := (job s pt).state != 0 || (job s pt).written
/-- Some partition of the package holds a job. -/
def anyJob (s : State) : Bool := s.jobs.any (fun p => p.2.state != 0 || p.2.written)
/-- The partition that a stack belongs to. -/
def partOfStack (s : State) (n : Nat) : Option Nat := (s.parts.find? (fun p => bitN p.2.stackSet n)).map (·.1)
/-- The partition of a JOB_ID. -/
def partOfJob (s : State) (id : Nat) : Option Nat :=
  (s.jobs.find? (fun p => (p.2.state != 0 || p.2.written) && p.2.id == id)).map (·.1)

/-- A block of R335 is in its safe state: 0 doorbells, 1 windows, 2 fabric engine, 3 request engine, 4 cluster rood, 5 partition, 6 hub
time, 7 memory group, with the unit's number. -/
def safeState (s : State) (blk unit : Nat) : Bool := s.hl.safe.contains (blk + 256 * unit)

/-! ## Configuration items (spec/12 R373) -/

/-- Design default of an item (R126, R230, R262, R276, R308, R373, R487). -/
def cfgDefault (item : Nat) : Nat :=
  match item with
  | 1 => 0x0A
  | 3 => 24
  | 4 => 0x00210000
  | 5 => 50211 * 2 ^ 48 + 4 * 2 ^ 43 + 2 * 2 ^ 41 + 2 ^ 40
  | 6 => 50212 * 2 ^ 48 + 10 * 2 ^ 42 + 64 * 2 ^ 29 + 3 * 2 ^ 26
  | 8 => 2 ^ 14 + 10
  | 11 => 50213 + 2 ^ 16
  | _ => 0

/-- An item's instance, at its design default until written. -/
def cfgItem (s : State) (item inst : Nat) : CfgItem :=
  mget s.cfg { base := BitVec.ofNat 64 (cfgDefault item), eff := BitVec.ofNat 64 (cfgDefault item) } (item * 16 + inst)
def setCfg (s : State) (item inst : Nat) (c : CfgItem) : State := { s with cfg := mset s.cfg (item * 16 + inst) c }
/-- The effective value of an item. -/
def cfgEff (s : State) (item inst : Nat) : Nat := (cfgItem s item inst).eff.toNat
/-- Instances of an item on a part (R373). -/
def cfgInstances (part item : Nat) : Nat :=
  if item = 3 then tilesOf part
  else if 8 ≤ item ∧ item ≤ 10 then (if part = 2 then 3 else 12)
  else if 1 ≤ item ∧ item ≤ 11 then 1 else 0

/-- The engine partition (R308). -/
def enginePart (s : State) : Nat := bitsN (cfgEff s 6 0) 38 4
/-- UDP ports of the fabric, the request protocol and the OOB channel. -/
def fabPort (s : State) : Nat := bitsN (cfgEff s 5 0) 48 16
def reqPort (s : State) : Nat := bitsN (cfgEff s 6 0) 48 16
def oobPort (s : State) : Nat := bitsN (cfgEff s 11 0) 0 16
/-- DEBUG_EN (R356). -/
def debugEn (s : State) : Bool := bitN (cfgEff s 2 0) 0

end Sys2Proof.Machine
end

