-- ==== Sys2Proof/Machine/Bundles.lean ====
section
/-! DEFINITION. Bundles.lean: the bundles and their places on the part (spec/05 R143, R170; spec/01 R22). -/
namespace Sys2Proof.Machine

/-! ## Bundles and their places (R143, R170; spec/01 R22) -/

/-- The transmitting and the receiving endpoint of a bundle. -/
def bSrc (b : Nat) : Nat := if b < 288 then b / 24 else if b < 436 then 16 + (b - 288) / 37 else 12
def bDst (b : Nat) : Nat :=
  if b < 288 then
    let q := b % 24
    if q < 12 then (b / 24 + q + 1) % 13 else 16 + (q - 12) / 3
  else if b < 436 then
    let r := (b - 288) % 37
    if r = 36 then 12 else r / 3
  else if b - 436 < 12 then b - 436 else 16 + (b - 448)
/-- The bundles from one endpoint to another, lowest first. -/
def bundlesTo (src dst : Nat) : List Nat := (List.range 452).filter (fun b => bSrc b == src && bDst b == dst)
/-- The bundle of the same index in the other direction (spec/06 R194). -/
def reverseBundle (b : Nat) : Nat :=
  let f := bundlesTo (bSrc b) (bDst b)
  let i := (f.filter (fun x => decide (x < b))).length
  (bundlesTo (bDst b) (bSrc b)).getD i 0
/-- The tile that transmits a bundle (LH as 4), and its index there. -/
def bTile (b : Nat) : Nat := if b < 288 then b / 24 / 3 else if b < 436 then (b - 288) / 37 else 4
def bLocal (b : Nat) : Nat := if b < 288 then b / 24 % 3 * 24 + b % 24 else if b < 436 then 72 + (b - 288) % 37 else b - 436
def bComb (b : Nat) : Nat := bLocal b / 4
/-- The group of a comb and the number of the group's spare. -/
def combGroup (t c : Nat) : Nat := if t = 4 then 0 else c / 7
def spareComb (t c : Nat) : Nat := if t = 4 then 4 else 28 + c / 7
/-- The down ports of KC dies that carry a bundle: stack * 12 + port. -/
def bPorts (b : Nat) : List Nat :=
  let leave : List Nat := if b < 288 then
      let q := b % 24
      [b / 24 * 12 + (if q < 12 then q else (q - 12) / 3 + 4 * ((q - 12) % 3))]
    else []
  let arrive : List Nat :=
    if b < 288 then (if bDst b < 12 then [bDst b * 12 + (bSrc b + 13 - bDst b - 1) % 13] else [])
    else if b < 436 then
      let r := (b - 288) % 37
      if r = 36 then [] else [r / 3 * 12 + (b - 288) / 37 + 4 * (r % 3)]
    else if b - 436 < 12 then [(b - 436) * 12 + (11 - (b - 436))] else []
  leave ++ arrive
/-- An endpoint is present on the part. -/
def epOn (part e : Nat) : Bool := decide (e < stacksOf part) || e == 12 || (decide (16 ≤ e) && decide (e < 16 + tilesOf part))
/-- A bundle joins two present endpoints (R145). -/
def bundleOn (part b : Nat) : Bool := decide (b < 452) && epOn part (bSrc b) && epOn part (bDst b)

end Sys2Proof.Machine
end

