-- ==== Sys2Proof/Machine/Grid.lean ====
section
/-! DEFINITION. Grid.lean: the routers of a KC die and the distance from a cluster to a down port (spec/01 R30 to R32), and the fibres of the fibre array
blocks (spec/17 R472). -/
namespace Sys2Proof.Machine

/-- The position of a cluster's router (R30). -/
def clusterPos (c : Nat) : Nat × Nat := (1 + c % 4, 2 - c / 4)
/-- The position of a down port's router, clockwise from the top-left (R30). -/
def portPos (p : Nat) : Nat × Nat :=
  if p < 4 then (p + 1, 3) else if p = 4 then (5, 2) else if p = 5 then (5, 1) else if p < 10 then (10 - p, 0) else if p = 10 then (0, 1) else (0, 2)
/-- Hops between them: the Manhattan distance (R31). -/
def hops (c p : Nat) : Nat :=
  let a := clusterPos c
  let b := portPos p
  (a.1 - b.1) + (b.1 - a.1) + (a.2 - b.2) + (b.2 - a.2)
/-- The unloaded one-way latency in ns (R31). -/
def hopNs (c p : Nat) : Nat := 8 + 4 * hops c p

/-- The port of a KC die at which a bundle leaves it or reaches it. -/
def portAt (b die : Nat) : Option Nat := (bPorts b).find? (fun p => p / 12 == die)

/-- Of bundles with the port by which each is carried, the one whose port is nearest to a cluster, the lowest port among equals (R32). -/
def nearestBundle (cl : Nat) (l : List (Nat × Nat)) : Option Nat :=
  (l.foldl (fun (m : Option (Nat × Nat)) q => match m with
    | none => some q
    | some r => if hops cl q.2 < hops cl r.2 ∨ (hops cl q.2 = hops cl r.2 ∧ q.2 < r.2) then some q else m) none).map (·.1)

/-! ## The fibre array blocks (R472) -/

/-- The Ethernet port that fibre `f` of block `b` serves. -/
def fibrePort (b f : Nat) : Nat := 8 * b + f / 16
/-- Its lane of that port. -/
def fibreLane (f : Nat) : Nat := f % 16 / 2
/-- Whether the package transmits on it. -/
def fibreTx (f : Nat) : Bool := f % 2 == 0

end Sys2Proof.Machine
end

