-- ==== Sys2Proof/Machine/Cfg.lean ====
section
/-! DEFINITION. Cfg.lean: writes of configuration items under their own access codes (spec/00 R11 to R13; spec/12 R373). -/
namespace Sys2Proof.Machine

/-- The fields of an item that a write changes at once, as (low bit, width). -/
def cfgRw (item : Nat) : List (Nat × Nat) :=
  match item with
  | 1 => [(0, 2), (2, 2), (4, 2)]
  | 2 => [(0, 1)]
  | 3 => [(0, 7)]
  | 4 => [(24, 8), (20, 4), (16, 4), (12, 4)]
  | 5 => [(48, 16), (41, 2), (40, 1), (20, 12), (19, 1)]
  | 6 => [(48, 16), (1, 1), (0, 1)]
  | 11 => [(16, 1), (0, 16)]
  | _ => []

/-- The fields that wait for a boundary. -/
def cfgRwb (item : Nat) : List (Nat × Nat) :=
  match item with
  | 5 => [(43, 5), (32, 7)]
  | 6 => [(42, 6), (38, 4), (29, 9), (26, 3), (12, 14)]
  | 7 => [(21, 27)]
  | 8 => [(14, 1), (0, 14)]
  | 9 => [(0, 2)]
  | 10 => [(0, 8)]
  | _ => []

/-- The read-only fields; every other bit is reserved, and a value written to it is ignored (R15). -/
def cfgRo (item : Nat) : List (Nat × Nat) := if item = 3 then [(8, 6)] else []

/-- The bits of a list of fields. -/
def fieldMask (fs : List (Nat × Nat)) : Nat := fs.foldl (fun m f => m + (2 ^ f.2 - 1) * 2 ^ f.1) 0
/-- `old` with the bits of `mask` taken from `new`. -/
def mergeBits (mask old new : Nat) : Nat := (old &&& (2 ^ 64 - 1 - mask)) ||| (new &&& mask)
/-- A field of two values differs. -/
def changed (old new lo n : Nat) : Bool := bitsN old lo n != bitsN new lo n

/-- A value that the item's own rules refuse (R126, R230, R262, R276, R308, R487, R373). -/
def cfgRefused (s : State) (item old new : Nat) : Bool :=
  match item with
  | 1 => [0, 2, 4].any (fun lo => bitsN new lo 2 == 3)
  | 4 => decide (127 < bitsN new 24 8) || decide (2 < bitsN new 20 4) || decide (2 < bitsN new 16 4) || decide (2 < bitsN new 12 4)
  | 5 =>
    (changed old new 48 16 && (decide (bitsN new 48 16 ≤ 1023) || bitsN new 48 16 == reqPort s || bitsN new 48 16 == oobPort s))
    || bitsN new 41 2 == 3 || decide (bitsN new 43 5 < 2 ∨ 16 < bitsN new 43 5)
    || (bitN new 19 && (bitsN new 20 12 == 0 || bitsN new 20 12 == 4095))
  | 6 =>
    (changed old new 48 16 && (decide (bitsN new 48 16 ≤ 1023) || bitsN new 48 16 == fabPort s || bitsN new 48 16 == oobPort s
      || bitN old 0))
    || decide (bitsN new 42 6 < 2 ∨ 50 < bitsN new 42 6) || decide (stacksOf s.pkg.part ≤ bitsN new 38 4)
    || decide (bitsN new 29 9 < 1 ∨ 256 < bitsN new 29 9) || decide (10000 < bitsN new 12 14)
  | 8 => decide (bitsN new 0 14 < 1 ∨ 10000 < bitsN new 0 14)
  | 11 => decide (bitsN new 0 16 ≤ 1023) || bitsN new 0 16 == fabPort s || bitsN new 0 16 == reqPort s
  | _ => false

/-- The item refuses this write because a job is held (R276). -/
def cfgJobRefused (s : State) (item old new : Nat) : Bool :=
  item == 5 && anyJob s && (changed old new 48 16 || changed old new 41 2 || changed old new 40 1)

/-- A write of TIME_CFG that selects other sources (spec/07 R230): what is known of a source goes with it, a source not yet heard has not locked, and has
10 s to lock. Where the source in use is no longer selected the hub has no locked source (DESIGN CHOICE, log 43). -/
def timeCfgSet (item old new : Nat) (s : State) : State :=
  let p := bitsN new 20 4
  let f := bitsN new 16 4
  let p0 := bitsN old 20 4
  let f0 := bitsN old 16 4
  if item ≠ 4 ∨ (p = p0 ∧ f = f0) then s
  else
    let h := s.clk.hub
    let locked (x : Nat) : Bool := if x = p0 then h.primaryLockAt.isSome else x == f0 && h.fallbackLocked
    let h := if p = p0 then { h with fallbackLocked := locked f }
      else { h with primaryLockAt := if locked p then some s.now else none, primaryLostAt := none, startAt := some s.now, fallbackLocked := locked f }
    let s := { s with clk := { s.clk with hub := h } }
    if h.src = p ∨ h.src = f then s
    else setDie { s with clk := { s.clk with hub := { h with locked := false } } } siteKH { dieClk s siteKH with hold := true }

/-- The outcome of a write of an item. -/
inductive CfgOut where
  | refused
  | jobHeld
  | done (s : State) (held : Bool)
  deriving DecidableEq, Repr

/-- A write of a configuration item under its own access codes (R373; `src` 1 an overlay, 2 a write at run time). Where
`strict`, a change of a read-only field is refused (CFG_WRITE); elsewhere it is ignored (R11). A reserved field is ignored (R15). -/
def cfgWrite (strict : Bool) (item inst new src : Nat) (s : State) : CfgOut :=
  let c := cfgItem s item inst
  let old := c.eff.toNat
  let rw := fieldMask (cfgRw item)
  let rwb := fieldMask (cfgRwb item)
  let ro := fieldMask (cfgRo item)
  let moved := strict && (new &&& ro) != (old &&& ro)
  let new := mergeBits (rw + rwb) old new
  let hold0 := (c.held.getD c.eff).toNat
  if moved then .refused
  else if item == 3 && decide (bitsN new 0 7 < 6 ∨ 72 < bitsN new 0 7) then .done s false
  else if cfgJobRefused s item old new then .jobHeld
  else if cfgRefused s item old new then .refused
  else
    let eff := mergeBits rw old new
    let held := if rwb = 0 then none else some (BitVec.ofNat 64 (mergeBits rwb (mergeBits rw hold0 new) new))
    .done (timeCfgSet item old eff (setCfg s item inst { c with eff := BitVec.ofNat 64 eff, held := held, src := src, heldSrc := src })) (rwb != 0)

/-- The held value of an item's instance takes effect (R12). -/
def cfgApplyHeld (item inst : Nat) (s : State) : State :=
  let c := cfgItem s item inst
  match c.held with
  | none => s
  | some h => setCfg s item inst { c with eff := h, held := none, src := c.heldSrc }

/-- A packet boundary: the held fields of FAB_CFG take effect (R276); those of a new base that a held job refuses wait for its end (spec/15 R437). -/
def packetBoundary (s : State) : State :=
  let c := cfgItem s 5 0
  if cfgJobRefused s 5 c.eff.toNat (c.held.getD c.eff).toNat then s else cfgApplyHeld 5 0 s

end Sys2Proof.Machine
end

