-- ==== Sys2Proof/Machine/Ctr.lean ====
section
/-! DEFINITION. Ctr.lean: the counters that CTR_READ names (spec/16 R447, R448). -/
namespace Sys2Proof.Machine

/-- An instance of a counter: well formed, present on the part, and the partition that it lies in under scope P. -/
structure CtrInst where
  ok : Bool
  present : Bool
  pt : Option Nat := none
  deriving DecidableEq, Repr

/-- An instance in a KC die: by stack, with the bits of A1 that it may set. -/
def instKC (s : State) (mask a1 : Nat) (more : Bool) : CtrInst :=
  let st := bitsN a1 8 4
  { ok := (a1 &&& mask) == a1 && more && decide (st < 12), present := decide (st < stacksOf s.pkg.part), pt := partOfStack s st }
/-- An instance that is a number below `n`, of which the part has those that `has` admits; it spans partitions. -/
def instS (n a1 : Nat) (has : Bool) : CtrInst := { ok := decide (a1 < n), present := has }

/-- A rood that R215 names, as SITE_ID and rood: well formed, and its cluster's stack where it is a cluster rood. -/
def roodOk (site id : Nat) : Bool :=
  if site = siteKH then decide (id ≤ 4)
  else if site / 32 = 1 then decide (id ≤ 9)
  else if site = siteLH then id == 0
  else decide (id ≤ 1)

/-- The partition of a pip: a bound host-to-device pip 0 to 30. -/
def pipPart (s : State) (a1 : Nat) : Option Nat :=
  if a1 < 31 then (mfind s.hp.pipIn a1).bind (fun q => partOfStack s (q.1 / 128)) else none

/-- The instance of a counter, or none where the table does not list the identifier (R447). -/
def ctrInst (s : State) (id a1 : Nat) : Option CtrInst :=
  let pt := s.pkg.part
  let core := instKC s 0xFEF a1 (decide (a1 % 16 < 12))
  let rd (w : Nat) : CtrInst :=
    let site := a1 % 256
    { ok := decide (a1 < 2 ^ 12) && !siteReserved site && roodOk site (a1 / 256), present := (sitesOf pt).contains site
      pt := if w = 1 ∧ site / 32 = 1 ∧ a1 / 256 < 8 then partOfStack s (site % 32) else none }
  let bnd (l : Nat) : CtrInst := { ok := decide (a1 % 2 ^ 16 < 452 ∧ a1 / 2 ^ 16 < l), present := bundleOn pt (a1 % 2 ^ 16) }
  let hbm := if pt = 2 then 4 else 16
  let eng : CtrInst := { ok := a1 == 0, present := true, pt := some (enginePart s) }
  if 1 ≤ id ∧ id ≤ 4 ∨ 0x10 ≤ id ∧ id ≤ 0x16 ∨ id = 0x1003 then some core
  else if 0x110 ≤ id ∧ id < 0x1A0 then (if id % 16 ≤ 10 then some core else none)
  else match id with
    | 0x1001 => some (instKC s 0xFE0 a1 true)
    | 0x1002 => some (instKC s 0x3FE0 a1 (decide (a1 / 2 ^ 12 ≠ 3)))
    | 0x2001 => some (rd 1)
    | 0x2002 => some (rd 1)
    | 0x2003 => some (rd 1)
    | 0x3001 => some (instS 16 a1 (decide (a1 < hbm)))
    | 0x3002 => some (instS 16 a1 (decide (a1 < hbm)))
    | 0x3003 => some (instS 16 a1 (decide (a1 < hbm)))
    | 0x3004 => some (instS 16 a1 (decide (a1 < hbm)))
    | 0x4001 => some (bnd 18)
    | 0x4002 => some (bnd 18)
    | 0x4003 => some (bnd 18)
    | 0x5001 => some (bnd 1)
    | 0x5002 => some (bnd 1)
    | 0x5003 => some (bnd 1)
    | 0x5004 => some (bnd 1)
    | 0x5005 => some { ok := decide (a1 ≤ 12) || (decide (16 ≤ a1) && decide (a1 < 20)), present := epOn pt a1 }
    | 0x6001 => some (instS 16 a1 true)
    | 0x6002 => some (instS 16 a1 true)
    | 0x6003 => some (instS 16 a1 true)
    | 0x6004 => some (instS 16 a1 true)
    | 0x6005 => some (instS 16 a1 true)
    | 0x6006 => some (instS 1 a1 true)
    | 0x6007 =>
      let u := bitsN a1 8 4
      let q := a1 % 32
      some { ok := (a1 &&& 0xF1F) == a1 && decide (u ≤ 12), present := u == 12 || decide (u < stacksOf pt)
             pt := if u = 12 then (mget s.fab.hqs {} q).owner else partOfStack s u }
    | 0x6008 => some (instS 1 a1 true)
    | 0x7001 => some eng
    | 0x7002 => some { eng with ok := decide (a1 < 256) }
    | 0x7003 => some eng
    | 0x7004 => some eng
    | 0x8001 => some { ok := (a1 &&& 0x11F) == a1, present := true, pt := pipPart s a1 }
    | 0x8002 => some (instS 1 a1 true)
    | _ => none

/-- A CTR_READ at L1 is admitted (R448): scope P, the instance in partition A2, and A2's owner the sending channel. -/
def ctrAdmitted (s : State) (id a1 a2 chan : Nat) : Bool :=
  match ctrInst s id a1 with
  | none => false
  | some i => i.pt == some a2 && (part s a2).any (fun p => p.owner == chan)

end Sys2Proof.Machine
end

