-- ==== Sys2Proof/Machine/Frame.lean ====
section
/-! DEFINITION. Frame.lean: the bytes of a fabric frame: the fabric header, and its Ethernet, IP and UDP headers (spec/09 R277, R278). -/
namespace Sys2Proof.Machine

/-- A number as `n` bytes, the most significant first. -/
def beBytes (n x : Nat) : List Byte := (leBytes n x).reverse

/-- The fabric header (R278). -/
def fabHeader (p : FabPkt) : List Byte :=
  leBytes 1 p.ver ++ leBytes 1 p.type ++ leBytes 1 p.flags ++ leBytes 1 p.dstEp ++ leBytes 1 p.srcEp ++ leBytes 1 p.chan ++ leBytes 2 p.payload.length
    ++ leBytes 2 p.srcPkg ++ leBytes 2 p.dstPkg ++ leBytes 4 p.seq ++ leBytes 4 p.job ++ leBytes 4 p.dseq ++ leBytes 4 p.oseq ++ leBytes 4 0
    ++ leBytes 4 p.pkt ++ leBytes 4 p.npkt ++ leBytes 8 p.addr ++ leBytes 8 p.arg ++ leBytes 8 p.poison ++ leBytes 8 p.saddr ++ leBytes 8 0

/-- The packet that a header and its payload spell (R278): `reserved` is not 0 where a reserved byte, a reserved bit of an endpoint, or a LEN that is
not the payload's, is there. -/
def fabOfBytes (bs : List Byte) : FabPkt :=
  let f (o n : Nat) : Nat := fieldAt bs o n
  let pl := bs.drop 80
  { ver := f 0 1, type := f 1 1, flags := f 2 1, dstEp := f 3 1 % 32, srcEp := f 4 1 % 32, chan := f 5 1, srcPkg := f 8 2, dstPkg := f 10 2, seq := f 12 4
    job := f 16 4, dseq := f 20 4, oseq := f 24 4, pkt := f 32 4, npkt := f 36 4, addr := f 40 8, arg := f 48 8, poison := f 56 8, saddr := f 64 8
    reserved := f 3 1 / 32 + f 4 1 / 32 + f 28 4 + f 72 8 + b2n (f 6 2 != pl.length), payload := pl }

/-- The class of a packet (R277): 0 MGMT, 1 RESPONSE, 2 ORDERED, 3 BULK. -/
def classOf (p : FabPkt) : Nat :=
  if p.type = 7 then 0 else if p.type = 3 ∨ p.type = 4 ∨ p.type = 5 then 1
  else if p.type = 6 ∨ p.chan < 2 then 2 else 3
/-- The 802.1Q priority of a class. -/
def prioOf (cl : Nat) : Nat := match cl with
  | 0 => 7
  | 1 => 6
  | 2 => 5
  | _ => 3
/-- The DSCP of a class. -/
def dscpOf (cl : Nat) : Nat := match cl with
  | 0 => 48
  | 1 => 46
  | 2 => 40
  | _ => 26

/-- The ones' complement sum of the 16-bit words of a byte string, folded to 16 bits, and the checksum that it gives. -/
def onesFold (fuel n : Nat) : Nat := match fuel with
  | 0 => n
  | k + 1 => if n < 65536 then n else onesFold k (n % 65536 + n / 65536)
def checksum16 (bs : List Byte) : Nat :=
  let words := (List.range (ceilDiv bs.length 2)).map (fun i => (bs.getD (2 * i) 0).toNat * 256 + (bs.getD (2 * i + 1) 0).toNat)
  65535 - onesFold 8 (words.foldl (· + ·) 0)

/-- The number behind a BULK packet's UDP source port changes with every packet (R277). -/
def nextSpray (s : State) (p : FabPkt) : Nat := (s.fab.spray + 1 + Config.sprayHash p.seq p.flags % 16383) % 16384
/-- The UDP source port (R277): by that number for BULK, by a hash of the packages and the class for the others. -/
def udpSource (s : State) (p : FabPkt) : Nat :=
  49152 + (if classOf p = 3 then nextSpray s p else Config.udpHash p.srcPkg p.dstPkg (classOf p)) % 16384

/-- A UDP datagram between two ports; its checksum is computed over IPv6 and 0 over IPv4. -/
def udpOf (v6 : Bool) (src dst : List Byte) (sport dport : Nat) (data : List Byte) : List Byte :=
  let n := 8 + data.length
  let h := beBytes 2 sport ++ beBytes 2 dport ++ beBytes 2 n
  let c := checksum16 (src ++ dst ++ beBytes 4 n ++ beBytes 4 17 ++ h ++ beBytes 2 0 ++ data)
  h ++ beBytes 2 (if v6 then (if c = 0 then 65535 else c) else 0) ++ data

/-- The IP packet of a datagram (R277): hop limit or TTL 64, DF set, ECN ECT(0); the flow label and the IPv4 identification are left open (log 42). -/
def ipOf (v6 : Bool) (dscp : Nat) (src dst : List Byte) (u : List Byte) : List Byte :=
  let tos := dscp * 4 + 2
  if v6 then beBytes 4 (6 * 2 ^ 28 + tos * 2 ^ 20 + Config.ipOpen u.length % 2 ^ 20) ++ beBytes 2 u.length ++ [17, 64] ++ src ++ dst ++ u
  else
    let s4 := src.drop 12
    let d4 := dst.drop 12
    let h := [0x45, BitVec.ofNat 8 tos] ++ beBytes 2 (20 + u.length) ++ beBytes 2 (Config.ipOpen u.length) ++ beBytes 2 0x4000 ++ [64, 17]
    h ++ beBytes 2 (checksum16 (h ++ [0, 0] ++ s4 ++ d4)) ++ s4 ++ d4 ++ u

/-- The IP address of a package, as its address entry gives it. -/
def ipAddr (s : State) (pkg : Nat) : List Byte :=
  let ip := (mget s.fab.addrs {} pkg).ip
  (ip ++ List.replicate 16 0).take 16

/-- The Ethernet frame of an IP packet on a port (R277): to NEXT_HOP, with the tag where VLAN_EN is set, and the frame check sequence. The port's own
address is not given by the spec (log 42). -/
def etherOf (s : State) (k prio : Nat) (v6 : Bool) (ip : List Byte) : List Byte :=
  let c := cfgEff s 5 0
  let tag := if bitN c 19 then beBytes 2 0x8100 ++ beBytes 2 (prio * 2 ^ 13 + bitsN c 20 12) else []
  let m := beBytes 6 (mget s.fab.ports {} k).nextHop.toNat ++ beBytes 6 (Config.portMac k).toNat ++ tag ++ beBytes 2 (if v6 then 0x86DD else 0x0800) ++ ip
  m ++ leBytes 4 (crc32 m).toNat

/-- The Ethernet frame of a fabric packet on a port (R277). -/
def frameOf (s : State) (k : Nat) (p : FabPkt) : List Byte :=
  let v6 := bitN (cfgEff s 5 0) 40
  let src := ipAddr s p.srcPkg
  let dst := ipAddr s p.dstPkg
  etherOf s k (prioOf (classOf p)) v6
    (ipOf v6 (dscpOf (classOf p)) src dst (udpOf v6 src dst (udpSource s p) (fabPort s) (fabHeader p ++ p.payload)))

end Sys2Proof.Machine
end

