-- ==== Sys2Proof/Machine/LineCode.lean ====
section
/-! DEFINITION. LineCode.lean: the codeword of an HBM4 line: 72 symbols of GF(2^8) with generator roots α^0 to α^4, its encoding and the decoding of
up to two symbols in error (spec/04 R129, R130). Symbol i is the coefficient of x^(71 - i) (DEDUCED, log 50). -/
namespace Sys2Proof.Machine.LineCode

/-! ## The field, by x^8 + x^4 + x^3 + x^2 + 1 -/

/-- Times α. -/
def dbl (a : Nat) : Nat := if 128 ≤ a then (2 * a - 256) ^^^ 0x1D else 2 * a
/-- Times α, `n` times. -/
def dbls (n a : Nat) : Nat := (List.range n).foldl (fun x _ => dbl x) a
/-- The product of two symbols. -/
def prod (a b : Nat) : Nat := (List.range 8).foldl (fun x i => dbl x ^^^ (if bitN b (7 - i) then a else 0)) 0
/-- The inverse: the power 254. -/
def recip (a : Nat) : Nat :=
  ((List.range 7).foldl (fun (x : Nat × Nat) _ => let q := prod x.1 x.1; (q, prod x.2 q)) (a, 1)).2
/-- α^i, for i from 0 to 71. -/
def alphas : List Nat := (List.range 71).foldl (fun l _ => l ++ [dbl (l.getLastD 1)]) [1]

/-! ## The codeword -/

/-- The coefficients of the generator with roots α^0 to α^4, below the leading 1, from x^4 down. -/
def gen : List Nat :=
  ((List.range 5).foldl (fun (g : List Nat) j =>
    (List.range (g.length + 1)).map (fun i => g.getD i 0 ^^^ (if i = 0 then 0 else dbls j (g.getD (i - 1) 0)))) [1]).drop 1

/-- The five check symbols of a message, by division. -/
def check (msg : List Nat) : List Nat :=
  msg.foldl (fun r x =>
    let f := x ^^^ r.headD 0
    (List.range 5).map (fun i => r.getD (i + 1) 0 ^^^ prod f (gen.getD i 0))) [0, 0, 0, 0, 0]

/-- ATAG of a line: CRC-16 over its 32-bit index, low byte first. -/
def atag (index : Nat) : List Nat :=
  let c := (crc16 (leBytes 4 index)).toNat
  [c % 256, c / 256]

/-- The 72 symbols in which a line is stored: DATA, META with POISON in bit 7, ATAG, CHECK. -/
def codeword (bs : List Byte) (poison : Bool) (index : Nat) : List Nat :=
  let m := bs.map (·.toNat) ++ [if poison then 0x80 else 0] ++ atag index
  m ++ check m

/-- Symbols changed by errors: position and the bits that differ. -/
def disturb (c : List Nat) (errs : List (Nat × Nat)) : List Nat :=
  c.zipIdx.map (fun p => errs.foldl (fun x e => if e.1 = p.2 then x ^^^ (e.2 % 256) else x) p.1)

/-! ## Decoding -/

/-- The syndrome at α^j. -/
def syn (c : List Nat) (j : Nat) : Nat := c.foldl (fun a x => dbls j a ^^^ x) 0

/-- The errors of a received word, as position and value: none where more than two symbols are detected in error. -/
def locate (c : List Nat) : Option (List (Nat × Nat)) :=
  match (List.range 5).map (syn c) with
  | [s0, s1, s2, s3, s4] =>
    if s0 = 0 ∧ s1 = 0 ∧ s2 = 0 ∧ s3 = 0 ∧ s4 = 0 then some []
    else
      let one := alphas.zipIdx.find? (fun p => s0 != 0 && prod s0 p.1 == s1 && prod s1 p.1 == s2 && prod s2 p.1 == s3 && prod s3 p.1 == s4)
      match one with
      | some p => some [(71 - p.2, s0)]
      | none =>
        -- the locator x^2 + a x + b: s2 = a s1 + b s0, s3 = a s2 + b s1, s4 = a s3 + b s2
        let d := recip (prod s1 s1 ^^^ prod s0 s2)
        let a := prod d (prod s1 s2 ^^^ prod s0 s3)
        let b := prod d (prod s1 s3 ^^^ prod s2 s2)
        if d = 0 ∨ prod a s3 ^^^ prod b s2 ≠ s4 then none
        else match alphas.zipIdx.filter (fun p => prod p.1 p.1 ^^^ prod a p.1 ^^^ b == 0) with
          | [p, q] =>
            let y := prod (s1 ^^^ prod p.1 s0) (recip (p.1 ^^^ q.1))
            some [(71 - p.2, s0 ^^^ y), (71 - q.2, y)]
          | _ => none
  | _ => none

/-- What the decoder makes of a received word (R130): more than two symbols in error; a line of another index; or the line, with POISON, and how many
symbols were corrected. -/
inductive Verdict where
  | lost
  | moved
  | line (bs : List Byte) (poison : Bool) (fixed : Nat)
  deriving DecidableEq, Repr

def decode (index : Nat) (c : List Nat) : Verdict :=
  match locate c with
  | none => .lost
  | some es =>
    let w := disturb c es
    if (w.drop 65).take 2 ≠ atag index then .moved
    else .line ((w.take 64).map (BitVec.ofNat 8)) (bitN (w.getD 64 0) 7) es.length

end Sys2Proof.Machine.LineCode
end

