-- ==== Sys2Proof/Machine/CoreWord.lean ====
section
/-! DEFINITION. CoreWord.lean: the 64-bit instruction word of a core, decoded (spec/02 R56, R57, R479 to R484 and the layouts of
R61, R63, R65 to R68, R71, R72; spec/08 R245, R251). A word that R57 calls illegal decodes to nothing. -/
namespace Sys2Proof.Machine

/-- Number formats, by identifier (spec/03 R82). -/
inductive Fm where
  | fp64 | fp32 | fp19 | bf16 | fp16 | e4m3 | e5m2 | e3m2 | e2m3 | e2m1 | int8
  deriving DecidableEq, Repr

/-- The format of an identifier; 0xB to 0xF are reserved. -/
def fmOf (n : Nat) : Option Fm :=
  [Fm.fp64, .fp32, .fp19, .bf16, .fp16, .e4m3, .e5m2, .e3m2, .e2m3, .e2m1, .int8][n]?

/-- The identifier of a format. -/
def fmId (f : Fm) : Nat :=
  match f with
  | .fp64 => 0 | .fp32 => 1 | .fp19 => 2 | .bf16 => 3 | .fp16 => 4 | .e4m3 => 5 | .e5m2 => 6 | .e3m2 => 7 | .e2m3 => 8
  | .e2m1 => 9 | .int8 => 10

/-- SALU functions (R480). -/
inductive SaluFn where
  | add | sub | addi | mul | mulhu | mulhs | and | or | xor | andi | ori | xori | shl | shr | sra | shli | shri | srai
  | slt | sltu | seq | min | max | minu | maxu | sel | mov
  deriving DecidableEq, Repr

def saluFn (n : Nat) : Option SaluFn :=
  [SaluFn.add, .sub, .addi, .mul, .mulhu, .mulhs, .and, .or, .xor, .andi, .ori, .xori, .shl, .shr, .sra, .shli, .shri,
   .srai, .slt, .sltu, .seq, .min, .max, .minu, .maxu, .sel, .mov][n]?

/-- VF32 and VF64 functions (R481). -/
inductive VfFn where
  | add | sub | mul | fma | fms | fnma | div | sqrt | min | max | abs | neg | cmpeq | cmplt | cmple | bcast | sel
  deriving DecidableEq, Repr

def vfFn (n : Nat) : Option VfFn :=
  [VfFn.add, .sub, .mul, .fma, .fms, .fnma, .div, .sqrt, .min, .max, .abs, .neg, .cmpeq, .cmplt, .cmple, .bcast, .sel][n]?

/-- VINT functions (R482). -/
inductive VintFn where
  | add | sub | adds | subs | mul | and | or | xor | shl | shr | sra | min | max | cmpeq | cmplt | bcast
  deriving DecidableEq, Repr

def vintFn (n : Nat) : Option VintFn :=
  [VintFn.add, .sub, .adds, .subs, .mul, .and, .or, .xor, .shl, .shr, .sra, .min, .max, .cmpeq, .cmplt, .bcast][n]?

/-- VRED functions (R484): FP64 or FP32, and the combination. -/
inductive RedFn where
  | sum | max | min
  deriving DecidableEq, Repr

/-- Rounding (R72, R481). -/
inductive Rnd where
  | near | zero | stoch
  deriving DecidableEq, Repr

def rndOf (n : Nat) : Option Rnd := [Rnd.near, .zero, .stoch][n]?

/-- A decoded core instruction. -/
inductive CoreOp where
  | nop
  | endPlan
  | rdcyc (d : Nat)
  | rdgtc (d : Nat)
  | waitcyc (n : Nat)
  | br (off : Int)
  | beqz (a : Nat) (off : Int)
  | bnez (a : Nat) (off : Int)
  | loop (a : Nat) (off : Int)
  | salu (f : SaluFn) (d a b c imm : Nat)
  | simm (hi : Bool) (d imm : Nat)
  /-- `n` bytes at gA + off. -/
  | slsLoad (n d a : Nat) (off : Int)
  | slsStore (n a b : Nat) (off : Int)
  | scmLoad (n d a : Nat) (off : Int)
  | scmStore (n a b : Nat) (off : Int)
  | vlsLd (d a : Nat) (off : Int)
  | vlsSt (a b : Nat) (off : Int)
  | vcmLd (d a : Nat) (off : Int)
  | vcmSt (a b : Nat) (off : Int)
  | vf (dbl : Bool) (f : VfFn) (rz : Bool) (d a b c : Nat)
  /-- `wd` is the lane width in bits. -/
  | vint (f : VintFn) (wd d a b sh : Nat)
  | cvt (r : Rnd) (src dst : Fm) (sg dg d a : Nat)
  | block (r : Rnd) (dst : Fm) (dg d a c : Nat)
  | vred (f : RedFn) (dbl rz : Bool) (d a : Nat)
  | tzero (int : Bool) (t : Nat)
  | tmma (td : Nat) (fa fb : Fm) (ga gb nch : Nat) (mxa mxb acc : Bool)
  | tslice (td shift : Nat) (ua ub : Bool) (ga gb nch : Nat) (acc : Bool)
  /-- `f` is the conversion, none where RAW is set. -/
  | tstore (ts gd : Nat) (f : Option (Fm × Rnd)) (zero : Bool)
  | vcx (toSlice : Bool) (tok gs gv gl : Nat) (sem : Option Nat)
  | hmx (toFar : Bool) (tok gs ga gl : Nat) (sem : Option Nat)
  | dpost (queue tok gs : Nat) (sem : Option Nat) (hub : Bool)
  | waitt (d tok : Nat)
  | tstat (d tok : Nat)
  | waitall
  | csrr (d i : Nat)
  | csrw (a i : Nat)
  | brk
  | sinit (sem n : Nat)
  | spost (sem n : Nat)
  | swait (sem n : Nat)
  | stry (d sem n : Nat)
  | sread (d sem : Nat)
  | spostr (a sem n : Nat)
  | bcfg (a slot : Nat)
  | barr (slot : Nat)
  | bwait (slot : Nat)
  | bar (slot : Nat)
  | bstat (d slot : Nat)
  deriving DecidableEq, Repr

/-- `n` bits of a word from bit `lo`. -/
def fld (w : BitVec 64) (lo n : Nat) : Nat := bitsN w.toNat lo n

/-- The fields of the general layout (R56). -/
def fMajor (w : BitVec 64) : Nat := fld w 58 6
def fMinor (w : BitVec 64) : Nat := fld w 52 6
def fD (w : BitVec 64) : Nat := fld w 47 5
def fA (w : BitVec 64) : Nat := fld w 42 5
def fB (w : BitVec 64) : Nat := fld w 37 5
def fC (w : BitVec 64) : Nat := fld w 32 5
def fImm (w : BitVec 64) : Nat := fld w 0 32
/-- IMM sign-extended. -/
def fOff (w : BitVec 64) : Int := sext 32 (fImm w)

/-- The fields of the general layout that an instruction does not use are 0 (R479): the register fields used, and IMM below
`2 ^ hi` and at or above `2 ^ lo`. -/
def onlyUses (w : BitVec 64) (d a b c : Bool) (imm : Bool) : Bool :=
  (d || fD w == 0) && (a || fA w == 0) && (b || fB w == 0) && (c || fC w == 0) && imm

/-- `o` where the check holds. -/
def guardOp (ok : Bool) (o : CoreOp) : Option CoreOp := if ok then some o else none

/-- A semaphore field of a transfer (R63): 0 to 31, or 63 for none; the others are reserved. -/
def semField (n : Nat) : Option (Option Nat) := if n < 32 then some (some n) else if n = 63 then some none else none

/-- CTL (R57). -/
def decCtl (w : BitVec 64) : Option CoreOp :=
  match fMinor w with
  | 0 => guardOp (onlyUses w false false false false (fImm w == 0)) .nop
  | 1 => guardOp (onlyUses w false false false false (fImm w == 0)) .endPlan
  | 2 => guardOp (onlyUses w true false false false (fImm w == 0)) (.rdcyc (fD w))
  | 3 => guardOp (onlyUses w true false false false (fImm w == 0)) (.rdgtc (fD w))
  | 4 => guardOp (onlyUses w false false false false (decide (fImm w < 65536))) (.waitcyc (fImm w))
  | _ => none

/-- BR (R57). -/
def decBr (w : BitVec 64) : Option CoreOp :=
  match fMinor w with
  | 0 => guardOp (onlyUses w false false false false true) (.br (fOff w))
  | 1 => guardOp (onlyUses w false true false false true) (.beqz (fA w) (fOff w))
  | 2 => guardOp (onlyUses w false true false false true) (.bnez (fA w) (fOff w))
  | 3 => guardOp (onlyUses w false true false false true) (.loop (fA w) (fOff w))
  | _ => none

/-- SALU (R480): what each function uses. -/
def decSalu (w : BitVec 64) : Option CoreOp :=
  match saluFn (fMinor w) with
  | none => none
  | some f =>
    let ok := match f with
      | .addi | .andi | .ori | .xori => onlyUses w true true false false true
      | .shli | .shri | .srai => onlyUses w true true false false (decide (fImm w < 64))
      | .sel => onlyUses w true true true true (fImm w == 0)
      | .mov => onlyUses w true true false false (fImm w == 0)
      | _ => onlyUses w true true true false (fImm w == 0)
    guardOp ok (.salu f (fD w) (fA w) (fB w) (fC w) (fImm w))

/-- Scalar and vector memory accesses (R57): a load uses gD or vD and gA, a store gA and gB or vB. -/
def decMem (w : BitVec 64) : Option CoreOp :=
  let ld := onlyUses w true true false false true
  let st := onlyUses w false true true false true
  match fMajor w, fMinor w with
  | 0x04, 0 => guardOp ld (.slsLoad 8 (fD w) (fA w) (fOff w))
  | 0x04, 1 => guardOp st (.slsStore 8 (fA w) (fB w) (fOff w))
  | 0x04, 2 => guardOp ld (.slsLoad 4 (fD w) (fA w) (fOff w))
  | 0x04, 3 => guardOp st (.slsStore 4 (fA w) (fB w) (fOff w))
  | 0x05, 0 => guardOp ld (.scmLoad 8 (fD w) (fA w) (fOff w))
  | 0x05, 1 => guardOp st (.scmStore 8 (fA w) (fB w) (fOff w))
  | 0x05, 2 => guardOp ld (.scmLoad 4 (fD w) (fA w) (fOff w))
  | 0x05, 3 => guardOp st (.scmStore 4 (fA w) (fB w) (fOff w))
  | 0x0C, 0 => guardOp ld (.vlsLd (fD w) (fA w) (fOff w))
  | 0x0C, 1 => guardOp st (.vlsSt (fA w) (fB w) (fOff w))
  | 0x0E, 0 => guardOp ld (.vcmLd (fD w) (fA w) (fOff w))
  | 0x0E, 1 => guardOp st (.vcmSt (fA w) (fB w) (fOff w))
  | _, _ => none

/-- VF32 and VF64 (R481). -/
def decVf (dbl : Bool) (w : BitVec 64) : Option CoreOp :=
  match vfFn (fMinor w % 32) with
  | none => none
  | some f =>
    let rz := bitN (fMinor w) 5
    let z := fImm w == 0
    let ok := match f with
      | .add | .sub | .mul | .div => onlyUses w true true true false z
      | .fma | .fms | .fnma => onlyUses w true true true true z
      | .sqrt => onlyUses w true true false false z
      | .min | .max | .cmpeq | .cmplt | .cmple => onlyUses w true true true false z && !rz
      | .abs | .neg | .bcast => onlyUses w true true false false z && !rz
      | .sel => onlyUses w true true true true z && !rz
    guardOp ok (.vf dbl f rz (fD w) (fA w) (fB w) (fC w))

/-- VINT (R482): a shift count of the width or more is illegal. -/
def decVint (w : BitVec 64) : Option CoreOp :=
  match vintFn (fMinor w % 16) with
  | none => none
  | some f =>
    let wd := 8 * 2 ^ (fMinor w / 16)
    let ok := match f with
      | .shl | .shr | .sra => onlyUses w true true false false (decide (fImm w < 64 ∧ fImm w < wd))
      | .bcast => onlyUses w true true false false (fImm w == 0)
      | _ => onlyUses w true true true false (fImm w == 0)
    guardOp ok (.vint f wd (fD w) (fA w) (fB w) (fImm w))

/-- Bytes of `n` elements of a format in a register (R483). -/
def fmBytes (f : Fm) (n : Nat) : Nat :=
  match f with
  | .fp64 => 8 * n | .fp32 | .fp19 => 4 * n | .bf16 | .fp16 => 2 * n | .e4m3 | .e5m2 | .int8 => n
  | .e3m2 | .e2m3 => 3 * n / 4 | .e2m1 => n / 2

/-- VCVT (R483). -/
def decVcvt (w : BitVec 64) : Option CoreOp :=
  match rndOf (fMinor w / 16), fmOf (fld w 0 4), fmOf (fld w 4 4) with
  | some r, some src, some dst =>
    let sg := fld w 8 2
    let dg := fld w 10 2
    let n := if src = .fp64 ∨ dst = .fp64 then 32 else 64
    let fits (f : Fm) (g : Nat) : Bool := decide (fmBytes f ((g + 1) * n) ≤ 256)
    let blk := match dst with
      | .e4m3 | .e5m2 | .e3m2 | .e2m3 | .e2m1 | .int8 => true
      | _ => false
    match fMinor w % 16 with
    | 0 => guardOp (onlyUses w true true false false (decide (fImm w < 4096)) && fits src sg && fits dst dg)
             (.cvt r src dst sg dg (fD w) (fA w))
    | 1 => guardOp (onlyUses w true true false true (decide (fImm w < 4096)) && src == .fp32 && sg == 0 && blk && fits dst dg)
             (.block r dst dg (fD w) (fA w) (fC w))
    | _ => none
  | _, _, _ => none

/-- VRED (R484). -/
def decVred (w : BitVec 64) : Option CoreOp :=
  let rz := bitN (fMinor w) 5
  let u := onlyUses w true true false false (fImm w == 0)
  match fMinor w % 32 with
  | 0 => guardOp u (.vred .sum false rz (fD w) (fA w))
  | 1 => guardOp (u && !rz) (.vred .max false false (fD w) (fA w))
  | 2 => guardOp (u && !rz) (.vred .min false false (fD w) (fA w))
  | 3 => guardOp u (.vred .sum true rz (fD w) (fA w))
  | 4 => guardOp (u && !rz) (.vred .max true false (fD w) (fA w))
  | 5 => guardOp (u && !rz) (.vred .min true false (fD w) (fA w))
  | _ => none

/-- The rate class of a tensor format, as products per lane and cycle (R69). -/
def rateClass (f : Fm) : Nat :=
  match f with
  | .e2m1 => 64 | .e4m3 | .e5m2 | .e3m2 | .e2m3 | .int8 => 32 | .bf16 | .fp16 => 16 | .fp19 => 8 | .fp32 => 4 | .fp64 => 0

/-- Formats that take block scales (R69). -/
def mxFormat (f : Fm) : Bool := f == .e2m1 || rateClass f == 32

/-- TMMA (R68, R69). -/
def decTmma (w : BitVec 64) : Option CoreOp :=
  match fmOf (fld w 51 4), fmOf (fld w 47 4) with
  | some fa, some fb =>
    let mxa := bitN w.toNat 28
    let mxb := bitN w.toNat 27
    let ok := rateClass fa == rateClass fb && rateClass fa != 0 && ((fa == .int8) == (fb == .int8))
      && (!mxa || mxFormat fa) && (!mxb || mxFormat fb) && fld w 0 26 == 0
    guardOp ok (.tmma (fld w 55 3) fa fb (fld w 42 5) (fld w 37 5) (fld w 29 8) mxa mxb (bitN w.toNat 26))
  | _, _ => none

/-- TSLICE (R71). -/
def decTslice (w : BitVec 64) : Option CoreOp :=
  guardOp (fld w 27 2 == 0 && fld w 0 26 == 0)
    (.tslice (fld w 55 3) (fld w 49 6) (bitN w.toNat 48) (bitN w.toNat 47) (fld w 42 5) (fld w 37 5) (fld w 29 8)
      (bitN w.toNat 26))

/-- TSTORE (R72). -/
def decTstore (w : BitVec 64) : Option CoreOp :=
  let z := bitN w.toNat 48
  if fld w 0 42 != 0 then none
  else if bitN w.toNat 47 then some (.tstore (fld w 55 3) (fld w 42 5) none z)
  else match fmOf (fld w 51 4), rndOf (fld w 49 2) with
    | some f, some r => some (.tstore (fld w 55 3) (fld w 42 5) (some (f, r)) z)
    | _, _ => none

/-- VCX and HMX (R63, R65). -/
def decXfer (w : BitVec 64) : Option CoreOp :=
  if fld w 0 31 != 0 then none
  else match semField (fld w 31 6) with
    | none => none
    | some sem =>
      if fMajor w = 0x18 then some (.vcx (bitN w.toNat 57) (fld w 52 5) (fld w 47 5) (fld w 42 5) (fld w 37 5) sem)
      else some (.hmx (bitN w.toNat 57) (fld w 52 5) (fld w 47 5) (fld w 42 5) (fld w 37 5) sem)

/-- DPOST (R66). -/
def decDpost (w : BitVec 64) : Option CoreOp :=
  let hub := bitN w.toNat 37
  if fld w 0 32 != 0 || (hub && fld w 54 4 != 0) || (!hub && fld w 32 5 != 0) then none
  else match semField (fld w 38 6) with
    | none => none
    | some sem => some (.dpost (if hub then fld w 32 5 else fld w 54 4) (fld w 49 5) (fld w 44 5) sem hub)

/-- SEM (spec/08 R245): N of 0 is reserved where a count is added, taken or posted. -/
def decSem (w : BitVec 64) : Option CoreOp :=
  let sem := fld w 0 5
  let n := fld w 16 16
  let mid := fld w 5 11 == 0
  match fMinor w with
  | 0 => guardOp (onlyUses w false false false false mid) (.sinit sem n)
  | 1 => guardOp (onlyUses w false false false false mid && n != 0) (.spost sem n)
  | 2 => guardOp (onlyUses w false false false false mid && n != 0) (.swait sem n)
  | 3 => guardOp (onlyUses w true false false false mid && n != 0) (.stry (fD w) sem n)
  | 4 => guardOp (onlyUses w true false false false (mid && n == 0)) (.sread (fD w) sem)
  | 5 => guardOp (onlyUses w false true false false mid && n != 0) (.spostr (fA w) sem n)
  | _ => none

/-- BAR (spec/08 R251). -/
def decBar (w : BitVec 64) : Option CoreOp :=
  let slot := fld w 0 4
  let z := decide (fImm w < 16)
  match fMinor w with
  | 0 => guardOp (onlyUses w false true false false z) (.bcfg (fA w) slot)
  | 1 => guardOp (onlyUses w false false false false z) (.barr slot)
  | 2 => guardOp (onlyUses w false false false false z) (.bwait slot)
  | 3 => guardOp (onlyUses w false false false false z) (.bar slot)
  | 4 => guardOp (onlyUses w true false false false z) (.bstat (fD w) slot)
  | _ => none

/-- TOK (R61). -/
def decTok (w : BitVec 64) : Option CoreOp :=
  match fMinor w with
  | 0 => guardOp (onlyUses w true false false false (decide (fImm w < 32))) (.waitt (fD w) (fImm w))
  | 1 => guardOp (onlyUses w true false false false (decide (fImm w < 32))) (.tstat (fD w) (fImm w))
  | 2 => guardOp (onlyUses w false false false false (fImm w == 0)) .waitall
  | _ => none

/-- CSR (R57, R74): indexes 0x006 to 0xFFF are reserved. -/
def decCsr (w : BitVec 64) : Option CoreOp :=
  match fMinor w with
  | 0 => guardOp (onlyUses w true false false false (decide (fImm w < 6))) (.csrr (fD w) (fImm w))
  | 1 => guardOp (onlyUses w false true false false (decide (fImm w < 6))) (.csrw (fA w) (fImm w))
  | _ => none

/-- The instruction that a word is (R57), or nothing for an illegal word. -/
def decodeWord (w : BitVec 64) : Option CoreOp :=
  match fMajor w with
  | 0x00 => decCtl w
  | 0x01 => decBr w
  | 0x02 => decSalu w
  | 0x03 =>
    match fMinor w with
    | 0 => guardOp (onlyUses w true false false false true) (.simm false (fD w) (fImm w))
    | 1 => guardOp (onlyUses w true false false false true) (.simm true (fD w) (fImm w))
    | _ => none
  | 0x04 => decMem w
  | 0x05 => decMem w
  | 0x08 => decVf false w
  | 0x09 => decVf true w
  | 0x0A => decVint w
  | 0x0B => decVcvt w
  | 0x0C => decMem w
  | 0x0D => decVred w
  | 0x0E => decMem w
  | 0x10 =>
    match fMinor w with
    | 0 => guardOp (onlyUses w false false false false (decide (fImm w < 8))) (.tzero false (fImm w))
    | 1 => guardOp (onlyUses w false false false false (decide (fImm w < 8))) (.tzero true (fImm w))
    | _ => none
  | 0x11 => decTmma w
  | 0x12 => decTslice w
  | 0x13 => decTstore w
  | 0x18 => decXfer w
  | 0x1A => decXfer w
  | 0x1C => decDpost w
  | 0x20 => decSem w
  | 0x21 => decBar w
  | 0x22 => decTok w
  | 0x28 => decCsr w
  | 0x3F => if fMinor w = 0 then guardOp (onlyUses w false false false false (fImm w == 0)) .brk else none
  | _ => none

end Sys2Proof.Machine
end

