-- ==== Sys2Proof/Machine/Flags.lean ====
section
/-! DEFINITION. Flags.lean: number formats, exact values, rounding, and every computation of EXC_FLAGS (spec/03 R82 to R98, R108 to
R110). Flags are a number whose bits are those of R110. -/
namespace Sys2Proof.Machine

/-! ## The flags of R110 -/
def fInvalid : Nat := 1
def fDivZero : Nat := 2
def fOverflow : Nat := 4
def fUnderflow : Nat := 8
def fInexact : Nat := 16
def fIntOverflow : Nat := 32
def fScaleNan : Nat := 64

/-- Flags combined by OR (R111). -/
def orF (a b : Nat) : Nat := (BitVec.ofNat 64 a ||| BitVec.ofNat 64 b).toNat

/-- The flags of a list of results. -/
def flagsOf (l : List (Nat × Nat)) : Nat := l.foldl (fun f p => orF f p.2) 0

/-! ## Exact values -/

/-- An exact value: not a number, an infinity, or (-1)^neg * m * 2^e. -/
inductive Fv where
  | nan
  | inf (neg : Bool)
  | fin (neg : Bool) (m : Nat) (e : Int)
  deriving DecidableEq, Repr

/-- Parameters of a floating-point format (R83): exponent and mantissa bits, bias, and its specials: 0 infinities and NaNs,
1 the two NaNs of FP8 E4M3, 2 none (R84). -/
structure FmPar where
  eb : Nat
  mb : Nat
  bias : Nat
  sp : Nat
  deriving DecidableEq, Repr

/-- R83; INT8 has no such parameters and is treated apart. -/
def fmPar (f : Fm) : FmPar :=
  match f with
  | .fp64 => ⟨11, 52, 1023, 0⟩ | .fp32 => ⟨8, 23, 127, 0⟩ | .fp19 => ⟨8, 10, 127, 0⟩ | .bf16 => ⟨8, 7, 127, 0⟩
  | .fp16 => ⟨5, 10, 15, 0⟩ | .e4m3 => ⟨4, 3, 7, 1⟩ | .e5m2 => ⟨5, 2, 15, 0⟩ | .e3m2 => ⟨3, 2, 3, 2⟩
  | .e2m3 => ⟨2, 3, 1, 2⟩ | .e2m1 => ⟨2, 1, 1, 2⟩ | .int8 => ⟨0, 7, 0, 2⟩

/-- Bits that an element of the format takes in a register or an operand (R68, R483). -/
def fmWidth (f : Fm) : Nat :=
  match f with
  | .fp64 => 64 | .fp32 | .fp19 => 32 | .bf16 | .fp16 => 16 | .e4m3 | .e5m2 | .int8 => 8 | .e3m2 | .e2m3 => 6 | .e2m1 => 4

/-- The value of an element's bits (R84, R86). FP19 stands in bits [31:13] of its word. -/
def valueOf (f : Fm) (bits : Nat) : Fv :=
  if f = .int8 then
    let i := sext 8 bits
    .fin (decide (i < 0)) i.natAbs 0
  else
    let p := fmPar f
    let w := if f = .fp19 then bits / 2 ^ 13 else bits
    let m := bitsN w 0 p.mb
    let e := bitsN w p.mb p.eb
    let neg := bitN w (p.mb + p.eb)
    let top := e == 2 ^ p.eb - 1
    if p.sp == 0 && top then (if m = 0 then .inf neg else .nan)
    else if p.sp == 1 && top && m == 2 ^ p.mb - 1 then .nan
    else if e = 0 then .fin neg m (1 - (p.bias : Int) - p.mb)
    else .fin neg (m + 2 ^ p.mb) ((e : Int) - p.bias - p.mb)

/-- The canonical NaN of a format (R85), for formats that have one. -/
def canonNan (f : Fm) : Nat :=
  match f with
  | .fp64 => 0x7FF8000000000000 | .fp32 | .fp19 => 0x7FC00000 | .bf16 => 0x7FC0 | .fp16 => 0x7E00 | .e4m3 => 0x7F
  | .e5m2 => 0x7E | _ => 0

/-- A bit length: the least n with m < 2^n. -/
def bitLen (m : Nat) : Nat := if m = 0 then 0 else Nat.log2 m + 1

/-- The encoding of a magnitude k * 2^q that the format holds, k below 2^(mb+1) (R84). -/
def packMag (f : Fm) (neg : Bool) (k : Nat) (q : Int) : Nat :=
  let p := fmPar f
  let s := if neg then 2 ^ (p.mb + p.eb) else 0
  -- a carry to 2^(mb+1) moves the exponent up
  let (k, q) := if k = 2 ^ (p.mb + 1) then (2 ^ p.mb, q + 1) else (k, q)
  let w := if k < 2 ^ p.mb then s + k else s + (k - 2 ^ p.mb) + 2 ^ p.mb * (q + p.mb + p.bias).toNat
  if f = .fp19 then w * 2 ^ 13 else w

/-- The infinity of a format that has one. -/
def packInf (f : Fm) (neg : Bool) : Nat :=
  let p := fmPar f
  let w := (if neg then 2 ^ (p.mb + p.eb) else 0) + (2 ^ p.eb - 1) * 2 ^ p.mb
  if f = .fp19 then w * 2 ^ 13 else w

/-- The largest finite magnitude as k * 2^q (R83). -/
def maxMag (f : Fm) : Nat × Int :=
  let p := fmPar f
  let top : Int := ((2 ^ p.eb - 1 : Nat) : Int)
  if p.sp = 0 then (2 ^ (p.mb + 1) - 1, top - 1 - p.bias - p.mb)
  else if p.sp = 1 then (2 ^ (p.mb + 1) - 2, top - p.bias - p.mb)
  else (2 ^ (p.mb + 1) - 1, top - p.bias - p.mb)

def packMax (f : Fm) (neg : Bool) : Nat := packMag f neg (maxMag f).1 (maxMag f).2

/-- Compare magnitudes m1 * 2^e1 < m2 * 2^e2. -/
def magLt (m1 : Nat) (e1 : Int) (m2 : Nat) (e2 : Int) : Bool :=
  if e1 ≤ e2 then decide (m1 < m2 * 2 ^ (e2 - e1).toNat) else decide (m1 * 2 ^ (e1 - e2).toNat < m2)

/-- m * 2^e cut to a multiple of 2^q: the whole part and, in units of 2^(q - sh), the rest. -/
def cut (m : Nat) (e q : Int) : Nat × Nat × Nat :=
  if q ≤ e then (m * 2 ^ (e - q).toNat, 0, 0) else
    let sh := (q - e).toNat
    (m / 2 ^ sh, m % 2 ^ sh, sh)

/-- A magnitude rounded to a multiple of 2^q (R91, R96): `r` is the draw of stochastic rounding. -/
def roundMag (md : Rnd) (r : Nat) (m : Nat) (e q : Int) : Nat :=
  let (k, rem, sh) := cut m e q
  match md with
  | .zero => k
  | .near => if 2 * rem > 2 ^ sh ∨ (2 * rem = 2 ^ sh ∧ rem ≠ 0 ∧ k % 2 = 1) then k + 1 else k
  | .stoch => if r < 2 ^ 16 * rem / 2 ^ sh then k + 1 else k

/-- The multiple of which values near m * 2^e are, at precision mb + 1, and not below the format's least (R83). -/
def quantum (p : FmPar) (m : Nat) (e : Int) : Int :=
  let a : Int := e + bitLen m - 1 - p.mb
  let b : Int := 1 - (p.bias : Int) - p.mb
  if a < b then b else a

/-- A finite value that is not zero rounded into a floating-point format: the bits and the flags (R91, R93, R94, R96). -/
def roundTo (f : Fm) (md : Rnd) (r : Nat) (neg : Bool) (m : Nat) (e : Int) : Nat × Nat :=
  let p := fmPar f
  let q := quantum p m e
  let k := roundMag md r m e q
  let mx := maxMag f
  let past := match md with
    | .near => !magLt (2 * m) e (2 * mx.1 + 1) mx.2
    | _ => magLt mx.1 mx.2 k q
  if past then
    ((if md = .near ∧ p.sp = 0 then packInf f neg else packMax f neg), fOverflow + fInexact)
  else
    let differs := magLt k q m e || magLt m e k q
    -- tininess: after rounding at unbounded exponent range, or the delivered result (R94)
    let q' : Int := e + bitLen m - 1 - p.mb
    let emin : Int := 1 - (p.bias : Int)
    let tiny := match md with
      | .stoch => magLt k q 1 emin
      | _ => magLt (roundMag md r m e q') q' 1 emin
    (packMag f neg k q, (if tiny && differs then fUnderflow else 0) + (if differs then fInexact else 0))

/-- A finite value converted to INT8 (R93 to R95): the byte and the flags. -/
def toInt8 (md : Rnd) (r : Nat) (neg : Bool) (m : Nat) (e : Int) : Nat × Nat :=
  let k := roundMag md r m e 0
  let lim := if neg then 128 else 127
  if lim < k then (ofInt 8 (if neg then -128 else 127), fIntOverflow + fInexact)
  else
    let differs := magLt k 0 m e || magLt m e k 0
    (ofInt 8 (if neg then -(k : Int) else k), if differs then fInexact else 0)

/-- A conversion of any value into any format (R91 to R96). -/
def convert (f : Fm) (md : Rnd) (r : Nat) (v : Fv) : Nat × Nat :=
  let p := fmPar f
  if f = .int8 then
    match v with
    | .nan => (0, fInvalid)
    | .inf neg => (ofInt 8 (if neg then -128 else 127), fIntOverflow + fInexact)
    | .fin neg m e => if m = 0 then (0, 0) else toInt8 md r neg m e
  else
    match v with
    | .nan => if p.sp = 2 then (0, fInvalid) else (canonNan f, 0)
    | .inf neg => if p.sp = 0 then (packInf f neg, 0) else (packMax f neg, fOverflow + fInexact)
    | .fin neg m e => if m = 0 then (packMag f neg 0 (1 - (p.bias : Int) - p.mb), 0) else roundTo f md r neg m e

/-! ## Exact arithmetic -/

/-- The sign and magnitude of an integer at an exponent; a zero takes the sign given. -/
def mkFin (i : Int) (e : Int) (zneg : Bool) : Fv := if i = 0 then .fin zneg 0 e else .fin (decide (i < 0)) i.natAbs e

/-- A signed significand. -/
def sgn (neg : Bool) (m : Nat) : Int := if neg then -(m : Int) else m

/-- The exact sum of two finite values; an exact zero is -0 only when both are -0 (R102, R108). -/
def addFin (n1 : Bool) (m1 : Nat) (e1 : Int) (n2 : Bool) (m2 : Nat) (e2 : Int) : Fv :=
  let e := if e1 ≤ e2 then e1 else e2
  mkFin (sgn n1 m1 * 2 ^ (e1 - e).toNat + sgn n2 m2 * 2 ^ (e2 - e).toNat) e (n1 && n2 && m1 == 0 && m2 == 0)

/-- The exact sum, and whether a NaN arose from operands that are none (R100, R108). -/
def addV (a b : Fv) : Fv × Nat :=
  match a, b with
  | .nan, _ => (.nan, 0)
  | _, .nan => (.nan, 0)
  | .inf x, .inf y => if x = y then (.inf x, 0) else (.nan, fInvalid)
  | .inf x, _ => (.inf x, 0)
  | _, .inf y => (.inf y, 0)
  | .fin n1 m1 e1, .fin n2 m2 e2 => (addFin n1 m1 e1 n2 m2 e2, 0)

/-- The exact product. -/
def mulV (a b : Fv) : Fv × Nat :=
  match a, b with
  | .nan, _ => (.nan, 0)
  | _, .nan => (.nan, 0)
  | .inf x, .inf y => (.inf (xor x y), 0)
  | .inf x, .fin y m _ => if m = 0 then (.nan, fInvalid) else (.inf (xor x y), 0)
  | .fin x m _, .inf y => if m = 0 then (.nan, fInvalid) else (.inf (xor x y), 0)
  | .fin x m1 e1, .fin y m2 e2 => (.fin (xor x y) (m1 * m2) (e1 + e2), 0)

/-- The sign inverted; NaN stays. -/
def negV (a : Fv) : Fv :=
  match a with
  | .nan => .nan
  | .inf n => .inf (!n)
  | .fin n m e => .fin (!n) m e

/-- A product plus a value, exactly (FMA of R481): a NaN operand raises nothing by itself (R85), and INVALID is for a NaN from operands that are none
(R110), so the product of an infinity and a zero raises nothing beside an addend that is a NaN. -/
def fmaV (a b c : Fv) : Fv × Nat :=
  if a = .nan ∨ b = .nan then (.nan, 0)
  else if c = .nan then (.nan, 0) else
    let p := mulV a b
    let s := addV p.1 c
    (s.1, orF p.2 s.2)

/-- A quotient that rounds as the exact one does: 120 bits and a bit that says whether something remains. -/
def divV (a b : Fv) : Fv × Nat :=
  match a, b with
  | .nan, _ => (.nan, 0)
  | _, .nan => (.nan, 0)
  | .inf _, .inf _ => (.nan, fInvalid)
  | .inf x, .fin y _ _ => (.inf (xor x y), 0)
  | .fin x _ _, .inf y => (.fin (xor x y) 0 0, 0)
  | .fin x m1 e1, .fin y m2 e2 =>
    if m2 = 0 then (if m1 = 0 then (.nan, fInvalid) else (.inf (xor x y), fDivZero))
    else if m1 = 0 then (.fin (xor x y) 0 0, 0)
    else
      let n := m1 * 2 ^ 120
      (.fin (xor x y) (2 * (n / m2) + (if n % m2 = 0 then 0 else 1)) (e1 - e2 - 121), 0)

/-- The whole square root, bit by bit from bit `n`. -/
def isqrt (n m r : Nat) : Nat :=
  match n with
  | 0 => if (r + 1) * (r + 1) ≤ m then r + 1 else r
  | k + 1 => isqrt k m (if (r + 2 ^ (k + 1)) * (r + 2 ^ (k + 1)) ≤ m then r + 2 ^ (k + 1) else r)

/-- A square root that rounds as the exact one does. -/
def sqrtV (a : Fv) : Fv × Nat :=
  match a with
  | .nan => (.nan, 0)
  | .inf true => (.nan, fInvalid)
  | .inf false => (.inf false, 0)
  | .fin n m e =>
    if m = 0 then (.fin n 0 0, 0)
    else if n then (.nan, fInvalid)
    else
      let m' := if e % 2 = 0 then m else 2 * m
      let e' := if e % 2 = 0 then e else e - 1
      let x := m' * 2 ^ 128
      let r := isqrt 96 x 0
      (.fin false (2 * r + (if r * r = x then 0 else 1)) (e' / 2 - 65), 0)

/-- Less than, on values that are not NaN: zeros are equal. -/
def ltV (a b : Fv) : Bool :=
  match a, b with
  | .nan, _ => false
  | _, .nan => false
  | .inf x, .inf y => x && !y
  | .inf x, .fin _ _ _ => x
  | .fin _ _ _, .inf y => !y
  | .fin n1 m1 e1, .fin n2 m2 e2 =>
    if n1 && m1 != 0 then (if n2 && m2 != 0 then magLt m2 e2 m1 e1 else true)
    else if n2 && m2 != 0 then false else magLt m1 e1 m2 e2

/-- Equal in value; a NaN is equal to nothing. -/
def eqV (a b : Fv) : Bool := a != .nan && b != .nan && !ltV a b && !ltV b a

/-- A negative sign. -/
def negOf (a : Fv) : Bool :=
  match a with
  | .nan => false
  | .inf n => n
  | .fin n _ _ => n

/-- minimumNumber and maximumNumber (R481): -0 orders below +0. -/
def minV (a b : Fv) : Fv :=
  if a = .nan then b else if b = .nan then a
  else if ltV a b || (eqV a b && negOf a) then a else b
def maxV (a b : Fv) : Fv :=
  if a = .nan then b else if b = .nan then a
  else if ltV b a || (eqV a b && !negOf a) then a else b

/-! ## Stochastic draws (R97, R98) -/

/-- One call of sr_next with the counter already advanced. -/
def srMix (seed : BitVec 64) (ctr : BitVec 128) : BitVec 64 :=
  let z := seed ^^^ ((ctr.truncate 64) * 0x9E3779B97F4A7C15#64)
  let z := (z ^^^ (z >>> 30)) * 0xBF58476D1CE4E5B9#64
  let z := (z ^^^ (z >>> 27)) * 0x94D049BB133111EB#64
  z ^^^ (z >>> 31)

/-- The four draws of a call, bits [15:0] first. -/
def fourDraws (z : BitVec 64) : List Nat := (List.range 4).map (fun i => bitsN z.toNat (16 * i) 16)

/-- The draws of `n` calls after `ctr`. -/
def draws (seed : BitVec 64) (ctr : BitVec 128) (n : Nat) : List Nat :=
  ((List.range n).map (fun i => fourDraws (srMix seed (ctr + BitVec.ofNat 128 (i + 1))))).flatten

end Sys2Proof.Machine
end

