-- ==== Sys2Proof/Machine/Mem.lean ====
section
/-! DEFINITION. Mem.lean: reading and writing memory: bytes, byte order, poison and its canonical form (spec/01 R6; spec/04 R116,
R117, R124, R131). -/
namespace Sys2Proof.Machine

/-! ## Cells -/

/-- One byte; a cell that is not listed holds 0 (log 6). -/
def getCell (l : List Host.Cell) (a : Nat) : Byte :=
  match l with
  | [] => 0
  | (b, x) :: r => if b = a then x else getCell r a

/-- A cell entered in rising order. -/
def insCell (l : List Host.Cell) (a : Nat) (x : Byte) : List Host.Cell :=
  match l with
  | [] => [(a, x)]
  | (b, y) :: r => if a < b then (a, x) :: (b, y) :: r else if a = b then (a, x) :: r else (b, y) :: insCell r a x

/-- One byte written; a zero byte is not listed. -/
def putCell (l : List Host.Cell) (a : Nat) (x : Byte) : List Host.Cell :=
  if x = 0 then l.filter (fun p => !(p.1 == a)) else insCell l a x

/-- Addresses rise strictly. -/
def rising (l : List Host.Cell) : Bool :=
  match l with
  | [] => true
  | [_] => true
  | (a, _) :: (b, y) :: r => decide (a < b) && rising ((b, y) :: r)

/-- Numbers rise strictly. -/
def risingN (l : List Nat) : Bool :=
  match l with
  | [] => true
  | [_] => true
  | a :: b :: r => decide (a < b) && risingN (b :: r)

/-- The canonical form of memory: rising addresses, no listed zero, rising poison. -/
def Memory.wf (m : Mem) : Bool := rising m.bytes && m.bytes.all (fun p => p.2 != 0) && risingN m.poison

/-- A number entered in a rising list. -/
def putN (l : List Nat) (a : Nat) : List Nat :=
  match l with
  | [] => [a]
  | b :: r => if a < b then a :: b :: r else if a = b then b :: r else b :: putN r a

/-! ## Spaces -/

/-- Where the scratch of a core begins. -/
def scrBase (c : Nat) : Nat := 2 ^ 48 + c * 2 ^ 19
/-- Where the vertical slice of a core begins. -/
def slBase (c : Nat) : Nat := 2 ^ 49 + c * 2 ^ 21
/-- The device physical address where a cluster memory begins (R124); a cluster is numbered stack * 8 + cluster. -/
def cmBase (cl : Nat) : Nat := 0x010000000000 + cl / 8 * 0x08000000 + cl % 8 * 0x01000000
/-- Bytes of HBM4 on a part (R124). -/
def hbmSize (part : Nat) : Nat := if part = 2 then 0x003000000000 else 0x00C000000000
/-- The cluster memory that an address names (R124). -/
def cmOf (part a : Nat) : Option Nat :=
  if 0x010000000000 ≤ a ∧ a < 0x010000000000 + (if part = 2 then 3 else 12) * 0x08000000 then
    some ((a - 0x010000000000) / 0x01000000)
  else none
/-- The unit of poison that holds an address: a line of HBM4 or a word of SRAM. -/
def unitOf (a : Nat) : Nat := if a < 0x00C000000000 then a / 64 * 64 else a / 8 * 8
def unitLen (a : Nat) : Nat := if a < 0x00C000000000 then 64 else 8

/-! ## Bytes and poison -/

def getB (m : Mem) (a : Nat) : Byte := getCell m.bytes a
def putB (m : Mem) (a : Nat) (x : Byte) : Mem := { m with bytes := putCell m.bytes a x }
/-- `n` bytes from an address. -/
def getBs (m : Mem) (a n : Nat) : List Byte := (List.range n).map (fun i => getB m (a + i))
/-- Bytes written from an address upward; poison stands. -/
def putBs (m : Mem) (a : Nat) (bs : List Byte) : Mem :=
  match bs with
  | [] => m
  | b :: r => putBs (putB m a b) (a + 1) r
/-- `n` bytes read as a number, least significant first (R6). -/
def getNum (m : Mem) (a n : Nat) : Nat := leNat (getBs m a n)

/-- The unit that holds an address is poisoned. -/
def isPoison (m : Mem) (a : Nat) : Bool := m.poison.contains (unitOf a)
def setPoison (m : Mem) (a : Nat) : Mem := { m with poison := putN m.poison (unitOf a) }
def clearPoison (m : Mem) (a : Nat) : Mem := { m with poison := m.poison.filter (fun b => !(b == unitOf a)) }

/-- The units that `n` bytes from an address touch. -/
def unitsOf (a n : Nat) : List Nat :=
  if n = 0 then [] else
    let u := unitLen a
    (List.range ((a + n - 1) / u - a / u + 1)).map (fun i => (a / u + i) * u)
/-- The units that `n` bytes from an address fill whole. -/
def wholeUnits (a n : Nat) : List Nat := (unitsOf a n).filter (fun b => decide (a ≤ b ∧ b + unitLen a ≤ a + n))
/-- The poisoned units that `n` bytes from an address touch. -/
def poisonIn (m : Mem) (a n : Nat) : List Nat := (unitsOf a n).filter (fun b => m.poison.contains b)

/-- Bytes written, clearing the poison of every unit written whole (R117, R131). -/
def writeBs (m : Mem) (a : Nat) (bs : List Byte) : Mem :=
  (wholeUnits a bs.length).foldl (fun m u => clearPoison m u) (putBs m a bs)

/-- A range cleared to zero, its poison with it. -/
def wipe (m : Mem) (lo hi : Nat) : Mem :=
  { bytes := m.bytes.filter (fun p => !(decide (lo ≤ p.1 ∧ p.1 < hi)))
    poison := m.poison.filter (fun p => !(decide (lo ≤ p ∧ p < hi))) }

/-- A range copied, poison included, between two places with units of one size. -/
def copyRange (m : Mem) (src dst n : Nat) : Mem :=
  (poisonIn m src n).foldl (fun m' u => setPoison m' (dst + (u - src))) (writeBs m dst (getBs m src n))

end Sys2Proof.Machine
end

