-- ==== Sys2Proof/Machine/CoreOps.lean ====
section
/-! DEFINITION. CoreOps.lean: cores as state: registers, tokens, semaphores, faults, aborts, errors of SRAM, and what a scratch access
may touch (spec/02 R41, R47, R51, R61, R73; spec/04 R116, R117; spec/08 R244). -/
namespace Sys2Proof.Machine

/-! ## Names -/

/-- The stack, the cluster (stack * 8 + cluster) and the position in its cluster of a core number. -/
def coreStack (c : Nat) : Nat := c / 128
def coreCluster (c : Nat) : Nat := c / 16
def coreK (c : Nat) : Nat := c % 16
/-- The CORE word of a core number (spec/12 R368). -/
def wordOfCore (c : Nat) : Nat := coreStack c * 256 + coreCluster c % 8 * 32 + coreK c
/-- The die controller of a core, as an event source. -/
def coreSite (c : Nat) : Nat := siteKC (coreStack c)
/-- The cluster rood of a core (R215). -/
def coreRood (s : State) (c : Nat) : Rood := rood s (coreSite c) (coreCluster c % 8)
/-- An event about a core, stamped by its rood (R236). -/
def emitCore (c code : Nat) (args : List Nat) (s : State) : State :=
  emitRood (coreSite c) (coreCluster c % 8) code args s
/-- The partition of a core. -/
def coreParts (s : State) (c : Nat) : Option Nat := partOfStack s (coreStack c)
/-- The partition's stacks in rising order; the place of a stack among them (R46). -/
def partStacks (p : Part) : List Nat := onesOf 12 p.stackSet
def relStack (p : Part) (st : Nat) : Nat := ((partStacks p).filter (fun x => decide (x < st))).length
/-- The CORE field of R45 for a core of a partition. -/
def fieldOfCore (p : Part) (c : Nat) : Nat := relStack p (coreStack c) * 256 + coreCluster c % 8 * 32 + coreK c
/-- The core that a CORE field of R45 names in a partition: bits [15:12] and [4] clear, the stack there, core 0 to 11. -/
def coreOfField (p : Part) (w : Nat) : Option Nat :=
  if w % 2 ^ 16 / 2 ^ 12 != 0 || bitN w 4 || decide (11 < w % 16) then none
  else match (partStacks p)[bitsN w 8 4]? with
    | none => none
    | some st => some ((st * 8 + bitsN w 5 3) * 16 + w % 16)

/-! ## Registers -/

def coreAt (s : State) (c : Nat) : Core := mget s.cores.core {} c
def setCore (s : State) (c : Nat) (k : Core) : State := { s with cores := { s.cores with core := mset s.cores.core c k } }
def modCore (c : Nat) (f : Core → Core) (s : State) : State := setCore s c (f (coreAt s c))
def modCtx (c : Nat) (f : Ctx → Ctx) (s : State) : State := modCore c (fun k => { k with ctx := f k.ctx }) s
/-- General registers. No register reads as a constant (R41). -/
def getG (s : State) (c n : Nat) : BitVec 64 := mget (coreAt s c).ctx.g 0 n
def setG (c n : Nat) (v : BitVec 64) (s : State) : State := modCtx c (fun x => { x with g := mset x.g n v }) s
def getV (s : State) (c n : Nat) : BitVec 2048 := mget (coreAt s c).ctx.v 0 n
def setV (c n : Nat) (v : BitVec 2048) (s : State) : State := modCtx c (fun x => { x with v := mset x.v n v }) s
def getTile (s : State) (c t : Nat) : Tile := mget (coreAt s c).ctx.tiles {} t
def setTile (c t : Nat) (x : Tile) (s : State) : State := modCtx c (fun k => { k with tiles := mset k.tiles t x }) s
def getTok (s : State) (c t : Nat) : Token := mget (coreAt s c).tokens .free t
def setTok (c t : Nat) (x : Token) (s : State) : State := modCore c (fun k => { k with tokens := mset k.tokens t x }) s
def getSem (s : State) (c n : Nat) : Nat := (mget (coreAt s c).ctx.sems 0 n).toNat
def setSem (c n v : Nat) (s : State) : State := modCtx c (fun x => { x with sems := mset x.sems n (BitVec.ofNat 16 v) }) s
def getSlot (s : State) (c n : Nat) : BitVec 64 := mget (coreAt s c).ctx.slots 0 n
def setSlot (c n : Nat) (v : BitVec 64) (s : State) : State := modCtx c (fun x => { x with slots := mset x.slots n v }) s

/-- Flags set, each counted (R110, R111; spec/16 R447). -/
def raiseFlags (c f : Nat) (s : State) : State :=
  if f % 128 = 0 then s else
    (onesOf 7 f).foldl (fun s i => bump (0x10 + i) (wordOfCore c) 1 s)
      (modCtx c (fun x => { x with flags := x.flags ||| BitVec.ofNat 64 (f % 128) }) s)

/-- The flags of an instruction that issues, for the cycle in which its result is ready (R111). -/
def raiseAt (c cyc f : Nat) (s : State) : State :=
  if f % 128 = 0 then s else modCore c (fun k => { k with late := k.late ++ [(cyc, f % 128)] }) s

/-- The flags set in cycles up to `t - 1`: what an instruction issued in cycle `t` finds (R111). -/
def landFlags (c t : Nat) (s : State) : State :=
  let due := (coreAt s c).late.filter (fun p => decide (p.1 < t))
  if due.isEmpty then s
  else due.foldl (fun s p => raiseFlags c p.2 s) (modCore c (fun k => { k with late := k.late.filter (fun p => decide (t ≤ p.1)) }) s)

/-- Every flag still on its way is set: the instructions issued have all completed. -/
def landAll (c : Nat) (s : State) : State := landFlags c (((coreAt s c).late.foldl (fun m p => max m p.1) 0) + 1) s

/-- An operation counted by type and format (spec/03 R113). -/
def countOp (c t f n : Nat) (s : State) : State := bump (0x100 + 16 * t + f) (wordOfCore c) n s

/-! ## Semaphores (spec/08 R244) -/

/-- Something has reached a core that ends the quiet of its die (R261), whether or not it changes a value. -/
def noteMoved (c : Nat) (s : State) : State := { s with sync := { s.sync with moved := mmod s.sync.moved 0 (coreStack c) (· + 1) } }

/-- An increase, saturating; the first saturation of a semaphore in a plan is reported. -/
def addSem (c n k : Nat) (s : State) : State :=
  let v := getSem s c n + k
  let s1 := noteMoved c (setSem c n (if 65535 < v then 65535 else v) s)
  if v ≤ 65535 then s1
  else match coreParts s c with
    | none => s1
    | some pt => match part s1 pt with
      | none => s1
      | some p =>
        if p.saturated.contains (c * 32 + n) then s1
        else emitCore c Ev.semSaturated [wordOfCore c, n] (setPart s1 pt { p with saturated := (c * 32 + n) :: p.saturated })

/-- The wait class of a core (spec/08 R260). -/
def waitClass (k : Core) : Nat :=
  match k.cond with
  | .ended => 8
  | .brk => 9
  | .issuing =>
    match k.wait with
    | .none | .cycles _ | .tensor _ => 0
    | .swait _ _ => 1
    | .bwait _ | .bar _ => 2
    | .barr _ _ => 3
    | .bcfg _ _ => 4
    | .spostr _ _ _ => 5
    | .waitt _ _ | .waitall => 6
    | .dpost d => if d.full then 7 else 0
  | _ => 0

/-- CORE cycles that a wait of class 0x1 to 0x7 has taken so far (spec/16 R447). -/
def waitElapsed (s : State) (c : Nat) : Nat :=
  let k := coreAt s c
  if 1 ≤ waitClass k ∧ waitClass k ≤ 7 then max (coreRood s c).cyc.toNat k.nextCyc - k.waitFrom else 0
/-- The cycles of a wait that ends, counted as CORE_WAIT. -/
def countWait (c n : Nat) (s : State) : State := if n = 0 then s else bump 2 (wordOfCore c) n s

/-! ## Faults and aborts (R51, R73) -/

/-- Where a named core that still runs stands after an abort: at its instruction boundary. A DPOST already issued still waits. -/
def stopCore (k : Core) : Core :=
  match k.cond with
  | .issuing | .brk =>
    { k with cond := .stopped, wait := match k.wait with
        | .dpost d => .dpost d
        | _ => .none }
  | _ => k

/-- The plan of a partition moves to ABORTING: every named core stops. -/
def abortPart (pt : Nat) (s : State) : State :=
  match part s pt with
  | none => s
  | some p =>
    let s := setPart s pt { p with plan := 4, runs := none }
    p.named.foldl (fun s q => modCore q.1 stopCore (countWait q.1 (waitElapsed s q.1) s)) s

/-- PLAN_ABORT (R51): result 0 FAULTED, 1 STOPPED; for a fault the core, the program counter and the code. -/
def planAbort (pt : Nat) (src : Nat) (res core pc code : Nat) (s : State) : State :=
  match part s pt with
  | none => s
  | some p => emit src Ev.planAbort [pt, p.run.toNat, res, core, pc, code] s

/-- A stop command, or what stops a partition as one would (R51, spec/04 R116). -/
def stopPlan (pt : Nat) (s : State) : State :=
  match part s pt with
  | none => s
  | some p =>
    if p.plan != 2 then s
    else planAbort pt (siteKC ((partStacks p).headD 0)) 1 absentArg absentArg absentArg (abortPart pt s)

/-- A core fault (R51, R73). -/
def coreFault (c code : Nat) (s : State) : State :=
  let s := modCore c (fun k => { k with cond := .faulted, wait := .none }) s
  match coreParts s c with
  | none => s
  | some pt => planAbort pt (coreSite c) 0 (wordOfCore c) (coreAt s c).ctx.pc.toNat code (abortPart pt s)

/-- The abort of a partition whose core is fenced (R79): the fault reason CORE_FENCED has no code of R73, so it is a free
value (log 8). -/
def abortFenced (c : Nat) (s : State) : State :=
  match coreParts s c with
  | none => s
  | some pt => match part s pt with
    | none => s
    | some p =>
      if p.plan != 2 then s
      else
        let (code, s) := drawWord s
        planAbort pt (coreSite c) 0 (wordOfCore c) (coreAt s c).ctx.pc.toNat code.toNat (abortPart pt s)

/-! ## Fencing a core (R79; spec/14 R403) -/

/-- The physical core that holds a logical position (R78). -/
def physOf (s : State) (c : Nat) : Nat := mget s.cores.phys c c
/-- The spare of a logical core's pool (spec/01 R24): S.1.12, S.2.13, S.5.14 or S.6.15. -/
def spareOf (c : Nat) : Nat :=
  let i := coreCluster c % 8 / 2
  (coreStack c * 8 + [1, 2, 5, 6].getD i 0) * 16 + 12 + i
/-- A spare is in use. -/
def spareUsed (s : State) (p : Nat) : Bool := s.cores.phys.any (fun q => q.2 == p)
/-- A physical core is fenced. -/
def isFenced (s : State) (p : Nat) : Bool := (mfind s.cores.fenced p).isSome

/-- The logical core whose position a physical core holds. -/
def logicalOf (s : State) (p : Nat) : Option Nat :=
  if coreK p < 12 then (if physOf s p = p && !s.cores.absent.contains p then some p else none)
  else (s.cores.phys.find? (fun q => q.2 == p)).map (·.1)

/-- A core that a plan boundary of its partition waits for: RUNNING, ENDING or ABORTING. -/
def planBusy (s : State) (pt : Nat) : Bool :=
  match part s pt with
  | none => false
  | some p => decide (2 ≤ p.plan)

/-- The loaded plan names the position and is unloaded (R491). -/
def unloadIfNamed (c : Nat) (s : State) : State :=
  match coreParts s c with
  | none => s
  | some pt => match part s pt with
    | none => s
    | some p =>
      if (mfind p.named c).isNone || p.plan = 0 then s
      else setPart s pt { p with plan := 0, named := [], runs := none }

/-- The vertical channel of a physical core. -/
def vcOf (s : State) (p : Nat) : Vc := mget s.mem.vcs {} p
def setVc (p : Nat) (v : Vc) (s : State) : State := { s with mem := { s.mem with vcs := mset s.mem.vcs p v } }

/-- The cases of a lane test (spec/04 R121), in its order. -/
inductive LaneCase where
  | control
  | half
  | narrow (half : Nat)
  | repair
  | clean
  deriving DecidableEq, Repr

def laneFailed (f : LaneFind) (i : Nat) : Nat := f.failed.getD i 0
/-- A group has more failed lanes than spares. -/
def lanePast (v : Vc) (f : LaneFind) (i : Nat) : Bool := decide (v.spares.getD i 0 < laneFailed f i)
/-- The first case that matches what a test of a channel finds. In HALF a failed lane of the unused half meets no case (log 50). -/
def laneCase (v : Vc) (f : LaneFind) : LaneCase :=
  let h0 := (List.range 4).any (lanePast v f)
  let h1 := (List.range 4).any (fun i => lanePast v f (4 + i))
  if f.ctrl then .control
  else if v.state = 2 then
    if (if v.half = 0 then h0 else h1) then .half
    else if (List.range 8).any (fun i => i / 4 == v.half && decide (0 < laneFailed f i)) then .repair else .clean
  else if h0 && h1 then .half
  else if h0 || h1 then .narrow (if h0 then 1 else 0)
  else if (List.range 8).any (fun i => decide (0 < laneFailed f i)) then .repair else .clean

/-- The spares left once the failed lanes of the working half, or of both, are replaced. -/
def sparesLeft (v : Vc) (f : LaneFind) (half : Option Nat) : List Nat :=
  (List.range 8).map (fun i => v.spares.getD i 0 - (if half.all (fun h => i / 4 == h) then laneFailed f i else 0))
/-- Case 5 on the channel of a physical core: each failed lane replaced by a spare of its group, and reported. -/
def repairLanes (p : Nat) (v : Vc) (f : LaneFind) (s : State) : State :=
  let half := if v.state = 2 then some v.half else none
  let sp := sparesLeft v f half
  emit (coreSite p) Ev.vlaneSpared [wordOfCore p, (List.range 8).foldl (fun n i => n + laneFailed f i) 0, listArg sp]
    (setVc p { v with state := if v.state = 2 then 2 else 1, spares := sp } s)

/-- The test of a spare's channel before it takes a position (spec/04 R122): meeting one of cases 1 to 4 it is treated as fenced, its failed lanes
are otherwise replaced. -/
def testSpare (f : LaneFind) (sp : Nat) (s : State) : State :=
  if isFenced s sp || spareUsed s sp then s
  else match laneCase (vcOf s sp) f with
    | .clean => s
    | .repair => repairLanes sp (vcOf s sp) f s
    | _ => emit (coreSite sp) Ev.coreFenced [wordOfCore sp, 4] { s with cores := { s.cores with fenced := mset s.cores.fenced sp 4 } }

/-- Steps 2 to 4 of R79. `f` is what the test of the spare's channel finds. -/
def substitute (f : LaneFind) (c : Nat) (s : State) : State :=
  let sp := spareOf c
  let s := { s with cores := { s.cores with toSpare := dropEl s.cores.toSpare c } }
  if s.cores.absent.contains c then s else
  let s := testSpare f sp s
  let s := unloadIfNamed c s
  if isFenced s sp || spareUsed s sp then
    emit (coreSite c) Ev.coreAbsent [wordOfCore c] { s with cores := { s.cores with absent := addOnce s.cores.absent c } }
  else
    let k := coreAt s c
    let m := wipe (wipe s.mem.m (slBase c) (slBase c + 2 ^ 21)) (scrBase c) (scrBase c + 2 ^ 19)
    let s := { s with
      cores := { s.cores with phys := mset s.cores.phys c sp
                              core := mset s.cores.core c { ({} : Core) with coreId := k.coreId } }
      mem := { s.mem with m := m, lastBad := mdel s.mem.lastBad c } }
    emit (coreSite c) Ev.coreSpared [wordOfCore c, wordOfCore sp] s

def setMem (s : State) (m : Mem) : State := { s with mem := { s.mem with m := m } }

/-- A transfer of a core that ends with a status: the token, then the semaphore (R61). -/
def endXfer (c tok : Nat) (sem : Option Nat) (v : BitVec 64) (s : State) : State :=
  let s := setTok c tok (.done v) s
  match sem with
  | none => s
  | some n => addSem c n 1 s

/-- A VCX in flight ends UNCORRECTABLE with its core (spec/04 R122): the bytes of its destination are undefined. -/
def vcxLost (c : Nat) (x : Xfer) (s : State) : State :=
  let (d, s) := drawBytes x.len s
  endXfer c x.tok x.sem 7 (setMem s (writeBs s.mem.m (if x.toScr then scrBase c + x.scr else slBase c + x.far) d))

/-- A physical core is fenced (R79, spec/04 R121, R122): its VCX transfers end UNCORRECTABLE, its plan aborts, and the spare takes
the position at the plan boundary, or at once; `f` is what the test of the spare's channel then finds. -/
def fenceCore (f : LaneFind) (p cause : Nat) (s : State) : State :=
  if isFenced s p then s
  else
    let s := emit (coreSite p) Ev.coreFenced [wordOfCore p, cause]
      { s with cores := { s.cores with fenced := mset s.cores.fenced p cause } }
    match logicalOf s p with
    | none => s
    | some c =>
      let fl := (coreAt s c).vcx
      let s := modCore c (fun k => { k with vcx := [] }) s
      let s := fl.foldl (fun s x => vcxLost c x s) s
      let s := abortFenced c s
      match coreParts s c with
      | none => substitute f c s
      | some pt =>
        if planBusy s pt then { s with cores := { s.cores with toSpare := addOnce s.cores.toSpare c } }
        else substitute f c s

/-! ## Errors of SRAM (spec/04 R116, R117) -/

/-- The instance of SRAM_CORR: array, stack and cluster (spec/16 R447). -/
def corrInst (kind cl : Nat) : Nat := kind * 2 ^ 12 + cl / 8 * 2 ^ 8 + cl % 8 * 2 ^ 5
/-- A corrected error counted. -/
def sramCorr (kind cl : Nat) (s : State) : State := bump 0x1002 (corrInst kind cl) 1 s

/-- SRAM_UNCORRECTABLE: kind 0 scratch, 1 slice (of a core), 2 cluster memory (of a cluster of the die that emits, 0 to 7: DEDUCED, log 50); the word's
offset; the reader of R138. -/
def sramEvent (kind unit off reader : Nat) (s : State) : State :=
  emit (if kind = 2 then siteKC (unit / 8) else coreSite unit) Ev.sramUncorrectable
    [kind, if kind = 2 then unit % 8 else wordOfCore unit, off, reader] s

/-- A second uncorrectable word in a core's scratch or slice within 24 h fences the core (spec/14 R403). What the test of its spare's channel
then finds is a free value (log 50). -/
def sramAgain (kind unit : Nat) (s : State) : State :=
  if kind = 2 then s
  else
    let again := match mfind s.mem.lastBad unit with
      | none => false
      | some t => decide (s.now < t + 86400 * 10 ^ 9)
    let s := { s with mem := { s.mem with lastBad := mset s.mem.lastBad unit s.now } }
    if again then
      let (f, s) := drawLanes s
      fenceCore f (physOf s unit) 3 s
    else s

/-- The array that an address above the device map stands in: kind, unit, and the offset of its word. -/
def sramPlace (a : Nat) : Nat × Nat × Nat :=
  if 2 ^ 49 ≤ a then (1, (a - 2 ^ 49) / 2 ^ 21, (a - 2 ^ 49) % 2 ^ 21 / 8)
  else if 2 ^ 48 ≤ a then (0, (a - 2 ^ 48) / 2 ^ 19, (a - 2 ^ 48) % 2 ^ 19 / 8)
  else (2, (a - 0x010000000000) / 0x08000000 * 8 + (a - 0x010000000000) % 0x08000000 / 0x01000000,
        a % 0x01000000 / 8)

/-- The words that a read of `n` bytes of SRAM cannot correct: poisoned, or found so (R116, R117). -/
def badWords (m : Mem) (a n : Nat) (bad : List Nat) : List Nat :=
  (unitsOf a n).filter (fun u => m.poison.contains u || bad.any (fun o => decide (o < n) && unitOf (a + o) == u))

/-- The first uncorrectable word of an access, reported once (R116). -/
def reportBad (reader : Nat) (l : List Nat) (s : State) : State :=
  match l with
  | [] => s
  | u :: _ =>
    let (k, unit, off) := sramPlace u
    sramAgain k unit (sramEvent k unit off reader s)

/-- The partition of a core is stopped as a stop command would (R51). -/
def stopPlanOf (c : Nat) (s : State) : State :=
  match coreParts s c with
  | none => s
  | some pt => stopPlan pt s

/-- The first uncorrectable word that a core's instruction has read: it is reported, the plan stops with the result STOPPED, and a second one
within 24 h fences the core (R116). -/
def reportStop (c reader : Nat) (l : List Nat) (s : State) : State :=
  match l with
  | [] => s
  | u :: _ =>
    let (k, unit, off) := sramPlace u
    sramAgain k unit (stopPlanOf c (sramEvent k unit off reader s))

/-- A corrected word counted where one was found. -/
def reportCorr (a : Nat) (corr : Bool) (s : State) : State :=
  if !corr then s
  else
    let (k, unit, _) := sramPlace a
    sramCorr k (if k = 2 then unit else unit / 16) s

/-- A store of `bs` at an address of SRAM (R117): a store of 4 bytes merges into its word, which stays or becomes poison where
the code cannot correct it. -/
def sramStore (a : Nat) (bs : List Byte) (corr bad : Bool) (s : State) : State :=
  let s' := setMem s (writeBs s.mem.m a bs)
  if bs.length = 4 then
    let s' := reportCorr a (corr && !bad && !isPoison s.mem.m a) s'
    if bad || isPoison s.mem.m a then reportBad 6 [unitOf a] (setMem s' (setPoison s'.mem.m a)) else s'
  else s'

/-! ## Scratch accesses -/

/-- Where the schedule region of a core begins in its scratch (R47). -/
def schedBase (k : Core) : Nat := 524288 - 8 * k.words

/-- The fault of an access of `n` bytes at `a` in a memory of `size` bytes, aligned to `al`: the lowest code that applies
(R57, R73). -/
def rangeFault (size al a n : Nat) : Option Nat :=
  if size < a + n then some 2 else if a % al != 0 then some 3 else none

/-- The fault of a data access to scratch, the schedule region included (R47). -/
def scrFault (k : Core) (al a n : Nat) : Option Nat :=
  match rangeFault 524288 al a n with
  | some f => some f
  | none => if schedBase k < a + n then some 4 else none

/-- An address formed from a register and a signed offset, modulo 2^64 (R56). -/
def effAddr (g : BitVec 64) (off : Int) : Nat := (g + BitVec.ofInt 64 off).toNat

end Sys2Proof.Machine
end

