-- ==== Sys2Proof/Machine/Pipe.lean ====
section
/-! DEFINITION. Pipe.lean: the cluster memory pipeline: stores commit and loads sample in their fixed cycles (spec/02 R42, R43). -/
namespace Sys2Proof.Machine

/-- Insertion by a key, after entries of the same key. -/
def insBy {α : Type} (f : α → Nat) (a : α) (l : List α) : List α :=
  match l with
  | [] => [a]
  | b :: r => if f a < f b then a :: b :: r else b :: insBy f a r
/-- A list in rising order of a key. -/
def sortBy {α : Type} (f : α → Nat) (l : List α) : List α := l.foldl (fun acc a => insBy f a acc) []

def pipeOf (s : State) (cl : Nat) : CmPipe := mget s.cores.pipes {} cl
def setPipe (cl : Nat) (p : CmPipe) (s : State) : State := { s with cores := { s.cores with pipes := mset s.cores.pipes cl p } }

/-- The order of stores: by commit cycle, and in one cycle the higher logical core last (R43). -/
def storeKey (x : CmStore) : Nat := x.due * 16 + coreK x.core

/-- The stores of a list committed in order. -/
def commitAll (cl : Nat) (l : List CmStore) (s : State) : State :=
  (sortBy storeKey l).foldl (fun s x => sramStore (cmBase cl + x.addr) x.bytes x.corr x.bad s) s

/-- Every store due by cycle `t` committed. -/
def commitTo (cl t : Nat) (s : State) : State :=
  let p := pipeOf s cl
  commitAll cl (p.stores.filter (fun x => decide (x.due ≤ t)))
    (setPipe cl { p with stores := p.stores.filter (fun x => decide (t < x.due)) } s)

/-- The data of a load as it samples (R116): undefined where a word cannot be corrected, and the core and its plan stop. -/
def sampleLoad (cl : Nat) (x : CmLoad) (s : State) : CmLoad × State :=
  let a := cmBase cl + x.addr
  let bads := badWords s.mem.m a x.len x.bad
  if bads.isEmpty then
    ({ x with data := some (getBs s.mem.m a x.len) }, reportCorr a x.corr s)
  else
    let (d, s) := drawBytes x.len (reportCorr a x.corr s)
    let s := reportStop x.core 0 bads s
    let s := modCore x.core (fun k => if k.cond = .issuing then { k with cond := .stopped, wait := .none } else k) s
    ({ x with data := some d }, s)

/-- The loads not sampled and due by `t`, each after the stores that commit no later (R43). -/
def sampleTo (cl t : Nat) (s : State) : State :=
  let p := pipeOf s cl
  let due := sortBy (·.sample) (p.loads.filter (fun x => x.data.isNone && decide (x.sample ≤ t)))
  due.foldl (fun s x =>
    let s := commitTo cl x.sample s
    let (y, s) := sampleLoad cl x s
    let q := pipeOf s cl
    setPipe cl { q with loads := y :: q.loads.filter (fun z => z != x) } s) s

/-- A load delivered to its register. -/
def deliverLoad (x : CmLoad) (s : State) : State :=
  let n := leNat (x.data.getD [])
  if x.vec then setV x.core x.d (BitVec.ofNat 2048 n) s else setG x.core x.d (BitVec.ofNat 64 n) s

/-- The pipeline of a cluster carried to the end of cycle `t`. -/
def pipeTo (cl t : Nat) (s : State) : State :=
  let s := commitTo cl t (sampleTo cl t s)
  let p := pipeOf s cl
  let done := sortBy (·.deliver) (p.loads.filter (fun x => decide (x.deliver ≤ t)))
  done.foldl (fun s x => deliverLoad x s) (setPipe cl { p with loads := p.loads.filter (fun x => decide (t < x.deliver)) } s)

/-- The cycle at which a core of a cluster can issue next. -/
def issueCycle (s : State) (c : Nat) : Nat := max (coreRood s c).cyc.toNat (coreAt s c).nextCyc

/-- A cluster's rood, and the cycle that it has reached. -/
def clusterRood (s : State) (cl : Nat) : Rood := rood s (siteKC (cl / 8)) (cl % 8)
def clusterCyc (s : State) (cl : Nat) : Nat := (clusterRood s cl).cyc.toNat
/-- A cluster's rood and its pipeline carried to the end of cycle `t`, where they have not reached it. -/
def reachTo (cl t : Nat) (s : State) : State := pipeTo cl t (reachRood (siteKC (cl / 8)) (cl % 8) t s)

/-- Every pipeline carried to the cycle that its rood has reached. -/
def pipesTick (s : State) : State :=
  s.cores.pipes.foldl (fun s q => if q.2.stores.isEmpty && q.2.loads.isEmpty then s else pipeTo q.1 (clusterCyc s q.1) s) s

/-- A core waits for the loads in flight to the registers given (R55): the cluster is carried to the last delivery. -/
def awaitLoads (c : Nat) (gs vs : List Nat) (s : State) : State :=
  let cl := coreCluster c
  let p := pipeOf s cl
  let ls := p.loads.filter (fun x => x.core == c && (if x.vec then vs.contains x.d else gs.contains x.d))
  match ls with
  | [] => s
  | _ => reachTo cl (ls.foldl (fun m x => max m x.deliver) (clusterCyc s cl)) s

/-- A core issues no earlier than a cycle. -/
def notBefore (c t : Nat) (s : State) : State :=
  if t ≤ (coreAt s c).nextCyc then s else modCore c (fun k => { k with nextCyc := t }) s

end Sys2Proof.Machine
end

