-- ==== Sys2Proof/Machine/Ticks.lean ====
section
/-! DEFINITION. Ticks.lean: what a nanosecond does to the clocks: roods and their stretches, SLOW, the global time counters, the always-on domain and the
crossings (spec/07 R212 to R225). -/
namespace Sys2Proof.Machine

/-- ROOT cycles of one period of a rood (R213, R215). -/
def roodRatio (site id div : Nat) : Nat :=
  if site < 0x40 then
    if id < 8 then (if div = 0 then 4 else if div = 1 then 5 else if div = 2 then 6 else 8)
    else if id = 8 then 8 else 2
  else if site = siteKH then (if id = 1 then 4 else if id = 4 then 2 else 8)
  else if id = 0 then 2 else 8

/-- The roods of a die (R215). -/
def roodsOf (site : Nat) : List Nat :=
  if site < 0x40 then List.range 10 else if site = siteKH then List.range 5 else if site = siteLH then [0] else [0, 1]

/-- A cluster rood. -/
def isClusterRood (site id : Nat) : Bool := decide (site < 0x40 ∧ id < 8)

/-! ## The tick (log 3) -/

/-- The ROOD_DIV that a rood runs at: a limited rood treats 0b00 as 0b01 (R40, R219). -/
def limitDiv (r : Rood) (d : Nat) : Nat := if r.limited && d == 0 then 1 else d
/-- The number of the period in progress, counted from the rood's first. -/
def periodNo (r : Rood) : Nat := r.cyc.toNat - r.lead
/-- A period's nominal length, and its length where it is stretched (R213, R217). -/
def nominal (key : Nat) (r : Rood) : Nat := roodRatio (key / 16) (key % 16) (limitDiv r r.div)
def stretched (r : Rood) (n : Nat) : Bool := r.stretches.contains n
def periodLen (key : Nat) (r : Rood) : Nat := nominal key r + (if stretched r (periodNo r) then 4 else 0)
/-- The period in progress ends: the counter advances by one, unless a command has already carried it there (R216). -/
def endPeriod (r : Rood) : Rood :=
  if 0 < r.lead then { r with phase := 0, lead := r.lead - 1 } else { r with phase := 0, cyc := r.cyc + 1 }

/-- `n` ROOT cycles of a rood's clock; the ROOT cycles for which a stretch held its dividers are added to `held` (R217). -/
def runRood (fuel key n held : Nat) (r : Rood) : Nat × Rood :=
  match fuel with
  | 0 => (held, r)
  | fuel + 1 =>
    let len := periodLen key r
    let e := r.phase + min n (len - r.phase)
    let h := held + (e - max r.phase (nominal key r))
    if r.phase + n < len then (h, { r with phase := e }) else runRood fuel key (n - (len - r.phase)) h (endPeriod r)

/-- One ns of a rood: 8 ROOT cycles of its clock, and of its crossing clock those that no stretch held (R216, R217, R221). -/
def tickRood (key : Nat) (r : Rood) : Rood :=
  if r.stopped || r.gated then { r with xEdge := false } else
    let q := runRood 5 key 8 0 r
    let x := r.xPhase + (8 - q.1)
    { q.2 with xPhase := x % 8, xEdge := decide (8 ≤ x) }

/-- The phase correction of a TIME cycle (R225, R228): a die corrects until its offset is within 1 grain; the hub master slews the whole. -/
def corrStep (site : Nat) (corr : Int) : Int :=
  let lim : Int := if site = siteKH then 0 else 1
  if lim < corr then 1 else if corr < -lim then -1 else 0
/-- One ns of SLOW: ROOT divided by 32, or the start-up oscillator (R212, R213). -/
def tickSlow (site : Nat) (d : DieClk) : DieClk :=
  if d.osc then
    let p := d.slowPhase + max 242500 (min 257500 (Config.oscSlow site))
    { d with slow := d.slow + BitVec.ofNat 64 (p / 1000000), slowPhase := p % 1000000 }
  else if d.locked then
    let p := d.slowPhase + 8
    { d with slow := d.slow + BitVec.ofNat 64 (p / 32), slowPhase := p % 32 }
  else d

/-- The adjustment of a TIME cycle in 2^-24 grain (R225): the rate and the correction; that of the hub master, which the dies adopt as its rate, is at
most 1 grain in all. -/
def adjustment (site : Nat) (d : DieClk) : Int :=
  let r := clampI (-(2 ^ 24)) (2 ^ 24) d.rate
  let a := corrStep site d.corr * 2 ^ 24 + r
  if site = siteKH then clampI (-(2 ^ 24)) (2 ^ 24) a else a

/-- One TIME cycle of a die: GTC advances by 16 grains and the adjustment (R213, R223, R225). -/
def tickDie (site : Nat) (d : DieClk) : DieClk :=
  let d := tickSlow site d
  if !d.timeRun then d else
    let c := corrStep site d.corr
    let t : Int := 16 * 2 ^ 24 + adjustment site d + d.frac
    { d with gtc := d.gtc + BitVec.ofNat 64 (t / 2 ^ 24).toNat, frac := (t % 2 ^ 24).toNat, corr := d.corr - c }

/-- The GTC of a die after the next `n` TIME cycles (spec/07 R223, R235). -/
def gtcAfter (s : State) (site n : Nat) : BitVec 64 :=
  ((List.range n).foldl (fun d _ => tickDie site d) (dieClk s site)).gtc

/-- One ns of the always-on domain: in DEEP and OFF it adds 160 grains each REFCLK period of 10 ns (R234, spec/17 R467). -/
def tickAon (s : State) : Aon :=
  if !s.aon.up || decide (s.pkg.power < 2) || s.pkg.starting then s.aon
  else if 9 ≤ s.aon.phase then { s.aon with phase := 0, gtc := s.aon.gtc + 160 }
  else { s.aon with phase := s.aon.phase + 1 }

/-! ## Crossings (R221, R222) -/

/-- The rood of a die from which its other roods are reached. -/
def xPeer (site id : Nat) : Nat :=
  if site < 0x40 then (if id = 8 then 9 else 8) else if site = siteKH then (if id = 0 then 4 else 0) else if id = 0 then 1 else 0

/-- An entry handed to a crossing: into a rood, or out of it. -/
def cross (site id : Nat) (out : Bool) (tag : Nat) (s : State) : State :=
  { s with clk := { s.clk with
      xings := mmod s.clk.xings {} ((site * 16 + id) * 2 + b2n out) (fun x => { x with wait := x.wait ++ [tag] }) } }

/-- An entry into or out of a cluster's rood: what reaches its memory, or what one of its cores sends (R221). -/
def crossCl (cl : Nat) (out : Bool) (s : State) : State := cross (siteKC (cl / 8)) (cl % 8) out cl s

/-- One cycle of the reader's crossing clock: the oldest entry is read once it has stood for the 2 cycles of its alignment, and a credit leaves for the
sender. -/
def readXing (x : Xing) : Xing :=
  let cs := x.cells.map (fun c => (c.1, c.2 + 1))
  match cs with
  | [] => { x with cells := [] }
  | c :: rest => if 2 < c.2 then { x with cells := rest, back := x.back ++ [0] } else { x with cells := cs }

/-- One cycle of the sender's crossing clock: credits return in 3 cycles, and one entry is written while fewer than 5 are unread. A sender that has spent
its 5 writes stalls until a credit returns; the flag tells a stall. The entries whose credits are on their way stand beside the 5 in the FIFO's 8
(DEDUCED, log 23). -/
def writeXing (x : Xing) : Bool × Xing :=
  let bk := (x.back.map (· + 1)).filter (fun n => decide (n < 3))
  let spent := (x.spent && bk.length == x.back.length) || decide (5 ≤ x.cells.length)
  match x.wait with
  | [] => (false, { x with back := bk, spent := spent })
  | e :: rest =>
    if spent then (true, { x with back := bk, spent := true })
    else (false, { wait := rest, cells := x.cells ++ [(e, 0)], back := bk, spent := false })

/-- A ns of a crossing (R221, R222): each side acts in the cycles of its own crossing clock; that of an absent rood runs with ROOT. -/
def tickXing (roods : Map Rood) (key : Nat) (x : Xing) : Bool × Xing :=
  let k := key / 2
  let edge (j : Nat) : Bool := match mfind roods j with
    | none => true
    | some r => r.xEdge
  let own := edge k
  let far := edge (k / 16 * 16 + xPeer (k / 16) (k % 16))
  let rd := if key % 2 = 0 then own else far
  let wr := if key % 2 = 0 then far else own
  let x := if rd then readXing x else x
  if wr then writeXing x else (false, x)

/-- The crossings' share of a tick: what is empty and at rest needs no record; a stall of a sender into a rood is counted (spec/16 R447). -/
def xingTick (s : State) : State :=
  let q := s.clk.xings.foldl (fun (a : Map Xing × List Nat) e =>
    let r := tickXing s.clk.roods e.1 e.2
    (if r.2 = {} then a.1 else a.1 ++ [(e.1, r.2)], if r.1 && e.1 % 2 == 0 then a.2 ++ [e.1 / 2] else a.2)) ([], [])
  q.2.foldl (fun s k => bump 0x2003 (k / 16 + 256 * (k % 16)) 1 s) { s with clk := { s.clk with xings := q.1 } }

/-- The clocks' share of a tick. -/
def clkTick (s : State) : State :=
  xingTick { s with
    now := s.now + 1
    aon := tickAon s
    clk := { s.clk with dies := mmap s.clk.dies tickDie, roods := mmap s.clk.roods tickRood } }

end Sys2Proof.Machine
end

