-- ==== Sys2Proof/Machine/HbmOps.lean ====
section
/-! DEFINITION. HbmOps.lean: HBM4: the interleave, the outcome of reads, sparing, and accesses by device physical address (spec/04 R116,
R124 to R137, R490). -/
namespace Sys2Proof.Machine

/-! ## Interleave (R126 to R128) -/

/-- TL_SHARE, one value for the package; a KV-120 reads 0 (R126). -/
def tlShare (s : State) : Nat := if s.pkg.part = 2 then 0 else bitsN (cfgEff s 3 0) 8 6

/-- The stack and the stack offset of an HBM4 address (R127). -/
def hbmMap (part k a : Nat) : Nat × Nat :=
  if part = 2 then
    let g := a / 4096
    ((g % 4) ^^^ (g / 4 % 4) ^^^ (g / 16 % 4), g / 4 * 4096 + a % 4096)
  else
    let gib := 2 ^ 30
    let p := 16 * (48 - k) * gib
    if a < p then
      let g := a / 4096
      ((g % 16) ^^^ (g / 16 % 16) ^^^ (g / 256 % 16), g / 16 * 4096 + a % 4096)
    else
      let grp := (a - p) / (4 * k * gib)
      let a2 := a - p - grp * 4 * k * gib
      let g := a2 / 4096
      (4 * grp + ((g % 4) ^^^ (g / 4 % 4)), (48 - k) * gib + g / 4 * 4096 + a2 % 4096)

/-- The pseudo-channel of a stack offset, and the address within it (R128). -/
def pcMap (o : Nat) : Nat × Nat :=
  let w := o / 256
  ((w % 64) ^^^ (w / 64 % 64), w / 64 * 256 + o % 256)

/-- Where a line stands: stack, pseudo-channel, line within the pseudo-channel. -/
structure LinePlace where
  stack : Nat
  pc : Nat
  line : Nat
  /-- The stack's line index, O >> 6. -/
  index : Nat
  deriving DecidableEq, Repr

def placeOf (s : State) (a : Nat) : LinePlace :=
  let m := hbmMap s.pkg.part (tlShare s) a
  let q := pcMap m.2
  ⟨m.1, q.1, q.2 / 64, m.2 / 64⟩

/-- A row, named pseudo-channel * 2^20 + row (R128). -/
def rowOf (p : LinePlace) : Nat := p.pc * 2 ^ 20 + p.line / 16
/-- The channel line index (R135). -/
def chanLine (p : LinePlace) : Nat := 2 * p.line + p.pc % 2
def stackAt (s : State) (m : Nat) : Hbm := mget s.mem.hbms {} m
def setStack (m : Nat) (h : Hbm) (s : State) : State := { s with mem := { s.mem with hbms := mset s.mem.hbms m h } }
/-- HBM4 stacks of a part (R3). -/
def hbmStacks (part : Nat) : Nat := if part = 2 then 4 else 16
/-- The tile controller of a stack's memory group. -/
def stackSite (m : Nat) : Nat := siteLT (m / 4)

/-- A line that no storage serves: its channel retired, its row fenced, or its group's tile fenced (R134, R137; spec/14
R402). -/
def lineFenced (s : State) (p : LinePlace) : Bool :=
  let h := stackAt s p.stack
  h.retired.contains (p.pc / 2) || h.heat.contains (p.pc / 2) || h.fencedRows.contains (rowOf p)
    || (mfind s.rel.tileF (p.stack / 4)).isSome

/-! ## Sparing (R133 to R137) -/

/-- The arguments of the row events (R138). -/
def rowArgs (m row left : Nat) : List Nat := [m, row / 2 ^ 20, Config.bankOf row, Config.rowNumber row, left]
/-- A row is fenced (R134): its granules join those of MEM_GRANULES; the event carries the arguments of R138, in which they are not
(DESIGN CHOICE, log 50). -/
def fenceRow (m row : Nat) (s : State) : State :=
  let h := stackAt s m
  if h.fencedRows.contains row then s
  else emit (stackSite m) Ev.hbmRowFenced (rowArgs m row 0) (setStack m { h with fencedRows := addOnce h.fencedRows row } s)

/-- A channel is retired (R137). -/
def retireChannel (m ch trigger : Nat) (s : State) : State :=
  let h := stackAt s m
  if h.retired.contains ch then s
  else emit (stackSite m) Ev.hbmChannelRetired [m, ch, trigger]
    (setStack m { h with retired := addOnce h.retired ch, logRetired := addOnce h.logRetired ch } s)

/-- Rows of the spare channel stand in the repair log above this. -/
def spareMark : Nat := 2 ^ 26

/-- A channel must be spared: the copy starts, or where the spare is not free the channel is retired (R135, R137). A row of the channel
that was due is held for the copy, and the spare's repairs are all unused (R136, R490). -/
def spareChannel (m ch trigger : Nat) (held : List Nat) (s : State) : State :=
  let h := stackAt s m
  if h.retired.contains ch then s
  else match h.spare with
    | .free =>
      let mine := h.due.filter (fun row => row / 2 ^ 21 == ch)
      emit (stackSite m) Ev.hbmChannelSparing [m, ch, trigger]
        (setStack m { h with spare := .copying { chan := ch, trigger := trigger, heldRows := mine.foldl addOnce held }
                             due := h.due.filter (fun row => row / 2 ^ 21 != ch), spareUsed := []
                             logRows := h.logRows.filter (fun row => decide (row < spareMark))
                             twoSym := h.twoSym.filter (fun q => q.1 / 512 != ch) } s)
    | .copying k => if k.chan = ch then s else retireChannel m ch trigger s
    | _ => retireChannel m ch trigger s

/-- The bank of a row, as a key of the repairs used. -/
def bankKey (row : Nat) : Nat := row / 2 ^ 20 * 2 ^ 16 + Config.bankOf row

/-- The spare serves a line of the channel being copied (R136, R490). -/
def onSpare (h : Hbm) (p : LinePlace) : Bool :=
  match h.spare with
  | .copying k => k.chan == p.pc / 2 && decide (chanLine p < k.mark)
  | .inUse ch => ch == p.pc / 2
  | _ => false

/-- A row is to be spared: entered among the rows due, or held while its old channel is being copied (R133, R136). -/
def dueRow (p : LinePlace) (s : State) : State :=
  let h := stackAt s p.stack
  let row := rowOf p
  match h.spare with
  | .copying k =>
    if k.chan = p.pc / 2 && !onSpare h p then
      setStack p.stack { h with spare := .copying { k with heldRows := addOnce k.heldRows row } } s
    else setStack p.stack { h with due := addOnce h.due row } s
  | _ => setStack p.stack { h with due := addOnce h.due row } s

/-- The spare serves the first line of a row. -/
def rowOnSpare (h : Hbm) (row : Nat) : Bool :=
  match h.spare with
  | .inUse ch => ch == row / 2 ^ 21
  | .copying k => k.chan == row / 2 ^ 21 && decide (row % 2 ^ 20 * 32 + row / 2 ^ 20 % 2 < k.mark)
  | _ => false

/-- A row of a channel being copied whose repair must wait for the copy (R136). -/
def rowWaits (h : Hbm) (row : Nat) : Bool :=
  match h.spare with
  | .copying k => k.chan == row / 2 ^ 21 && !rowOnSpare h row
  | _ => false

/-- Repairs used in the bank of a row: in the spare channel's bank, where the spare serves the row (R133, R490). -/
def repairsUsed (h : Hbm) (row : Nat) : Nat := mget (if rowOnSpare h row then h.spareUsed else h.used) 0 (bankKey row)

/-- Row sparing carried out for a row due (R133, R134): a repair of the bank is used, or where none is left the channel is spared, or
the row is fenced. -/
def spareRow (m row : Nat) (s : State) : State :=
  let h := stackAt s m
  let h := { h with due := dropEl h.due row }
  let used := repairsUsed h row
  if rowWaits h row then
    match h.spare with
    | .copying k => setStack m { h with spare := .copying { k with heldRows := addOnce k.heldRows row } } s
    | _ => s
  else if used < 2 then
    let sp := rowOnSpare h row
    let h := if sp then { h with spareUsed := mset h.spareUsed (bankKey row) (used + 1) }
             else { h with used := mset h.used (bankKey row) (used + 1) }
    emit (stackSite m) Ev.hbmRowSpared (rowArgs m row (1 - used))
      (setStack m { h with spared := addOnce h.spared row, logRows := h.logRows ++ [if sp then spareMark + row else row]
                           corrected := mdel h.corrected (if sp then spareMark + row else row) } s)
  else
    let s := setStack m h s
    match h.spare with
    | .free => spareChannel m (row / 2 ^ 21) 1 [row] s
    | _ => fenceRow m row s

/-! ## Reads and writes of lines (R130, R131) -/

/-- What a read of a line delivers. -/
inductive LineOut where
  | data (bs : List Byte)
  | poison (bs : List Byte)
  | fenced
  deriving DecidableEq, Repr

/-- A two-symbol correction counted toward its interface line, but for a line that a copy to the spare will carry (R135). -/
def countTwo (p : LinePlace) (ifLine : Option Nat) (h : Hbm) : Hbm :=
  match ifLine with
  | none => h
  | some i =>
    let k := p.pc * 256 + i
    let leaving := match h.spare with
      | .copying c => c.chan == p.pc / 2 && !onSpare h p
      | _ => false
    if leaving then h else { h with twoSym := mset h.twoSym k (addOnce (mget h.twoSym [] k) p.index) }

/-- A channel is spared where 16 lines of a pseudo-channel needed two-symbol correction on one interface line in a pass (R135). -/
def twoFull (m pc : Nat) (ifLine : Option Nat) (s : State) : State :=
  match ifLine with
  | none => s
  | some i => if 16 ≤ (mget (stackAt s m).twoSym [] (pc * 256 + i)).length then spareChannel m (pc / 2) 0 [] s else s

/-- The row and the line under which a correction counts: those that the spare serves stand apart (R490). -/
def rowKey (h : Hbm) (p : LinePlace) : Nat := if onSpare h p then spareMark + rowOf p else rowOf p
def lineKey (h : Hbm) (p : LinePlace) : Nat := if onSpare h p then 2 ^ 32 + p.index else p.index

/-- A correction counted (R130 order 4, R133, R135). -/
def corrected (p : LinePlace) (ifLine : Option Nat) (s : State) : State :=
  let s := bump 0x3003 p.stack 1 s
  let h := stackAt s p.stack
  let row := rowKey h p
  let again := h.fresh.contains (lineKey h p)
  let ls := addOnce (mget h.corrected [] row) p.index
  let s := setStack p.stack (countTwo p ifLine { h with corrected := mset h.corrected row ls, fresh := addOnce h.fresh (lineKey h p) }) s
  twoFull p.stack p.pc ifLine (if again || decide (3 ≤ ls.length) then dueRow p s else s)

/-- The finding for a line among those of a command. -/
def findOf (fs : List LineFind) (a : Nat) : Option LineFind := fs.find? (fun f => f.addr == a)

/-- A line read without a correction is no longer watched for one (R133). -/
def unfresh (p : LinePlace) (s : State) : State :=
  let h := stackAt s p.stack
  if h.fresh.contains (lineKey h p) then setStack p.stack { h with fresh := dropEl h.fresh (lineKey h p) } s else s

/-- The errors that a read of a line meets: those that the command names, or those that stand in storage. -/
def errorsOf (fs : List LineFind) (a : Nat) (s : State) : Option LineFind :=
  match findOf fs a with
  | some f => some f
  | none => findOf s.mem.flips a

/-- Errors that have arisen stand in storage. -/
def upset (fs : List LineFind) (s : State) : State :=
  fs.foldl (fun s f => { s with mem := { s.mem with flips := f :: s.mem.flips.filter (fun g => g.addr != f.addr) } }) s

/-- A line stored anew holds no error. -/
def unflip (a : Nat) (s : State) : State :=
  if s.mem.flips.any (fun g => g.addr == a) then { s with mem := { s.mem with flips := s.mem.flips.filter (fun g => g.addr != a) } } else s

/-- What the decoder makes of the stored line with errors (R129, R130). -/
def verdict (s : State) (a : Nat) (errs : List (Nat × Nat)) : LineCode.Verdict :=
  let p := placeOf s a
  LineCode.decode p.index (LineCode.disturb (LineCode.codeword (getBs s.mem.m a 64) (isPoison s.mem.m a) p.index) errs)

/-- A read changes a line on the spare alone while the copy runs: the old channel's line is kept (R490). -/
def keepOld (a : Nat) (p : LinePlace) (s : State) : State :=
  let h := stackAt s p.stack
  match h.spare with
  | .copying k =>
    if onSpare h p && (mfind k.old a).isNone then
      setStack p.stack { h with spare := .copying { k with old := mset k.old a (getBs s.mem.m a 64, isPoison s.mem.m a) } } s
    else s
  | _ => s

/-- A write goes to both channels (R136). -/
def dropOld (a : Nat) (p : LinePlace) (s : State) : State :=
  let h := stackAt s p.stack
  match h.spare with
  | .copying k => if (mfind k.old a).isSome then setStack p.stack { h with spare := .copying { k with old := mdel k.old a } } s else s
  | _ => s

/-- HBM_UNCORRECTABLE, and the line rewritten with POISON set and its code regenerated (R130 orders 1 and 2). -/
def poisonLine (a cause : Nat) (p : LinePlace) (s : State) : State :=
  let s := unflip a (keepOld a p s)
  emit (stackSite p.stack) Ev.hbmUncorrectable [p.stack, p.pc, p.index, cause] (setMem s (setPoison s.mem.m a))

/-- A corrected line written back (R130 order 4): what the decoder delivers, were it miscorrected. -/
def rewriteLine (a : Nat) (bs : List Byte) (p : LinePlace) (s : State) : State :=
  let s := unflip a (if bs = getBs s.mem.m a 64 then s else keepOld a p s)
  setMem s (writeBs s.mem.m a bs)

/-- The decoder's outcome on a line that storage serves (R130). -/
def decodeLine (a : Nat) (fs : List LineFind) (s : State) : LineOut × State :=
  let p := placeOf s a
  let s := bump 0x3001 p.stack 1 s
  let bs := getBs s.mem.m a 64
  match errorsOf fs a s with
  | none => if isPoison s.mem.m a then (.poison bs, bump 0x3004 p.stack 1 s) else (.data bs, unfresh p s)
  | some f =>
    match verdict s a f.errs with
    | .lost => (.poison bs, dueRow p (unfresh p (poisonLine a 0 p s)))
    | .moved => (.poison bs, dueRow p (unfresh p (poisonLine a 1 p s)))
    | .line d true _ => (.poison d, bump 0x3004 p.stack 1 s)
    | .line d false 0 => (.data d, unfresh p s)
    | .line d false n => (.data d, corrected p (if n = 2 then f.ifLine else none) (rewriteLine a d p s))

/-- A read of the line at an HBM4 address. -/
def readLine (a : Nat) (fs : List LineFind) (s : State) : LineOut × State :=
  if lineFenced s (placeOf s a) then (.fenced, s) else decodeLine a fs s

/-- A write of a whole line: poison cleared, or written as poison (R131); false where the line is fenced. -/
def writeLine (a : Nat) (bs : List Byte) (poison : Bool) (s : State) : Bool × State :=
  let p := placeOf s a
  if lineFenced s p then (false, s)
  else
    let s := unflip a (dropOld a p s)
    let m := writeBs s.mem.m a bs
    (true, setMem (bump 0x3002 p.stack 1 s) (if poison then setPoison m a else m))

/-- A write of part of a line: the merge read follows R130, and a poisoned line stays poisoned (R131). -/
def writePart (a : Nat) (bs : List Byte) (fs : List LineFind) (s : State) : Bool × State :=
  let l := a / 64 * 64
  let p := placeOf s l
  let (o, s) := readLine l fs s
  match o with
  | .fenced => (false, s)
  | _ =>
    let s := unflip l (dropOld l p s)
    (true, bump 0x3002 p.stack 1 (setMem s (putBs s.mem.m a bs)))

/-! ## Device physical addresses (R124, R125) -/

/-- What a device physical address names (R124). -/
inductive Dpa where
  | hbm
  | cm (cl : Nat)
  | unmapped
  deriving DecidableEq, Repr

def dpaOf (part a : Nat) : Dpa :=
  if a < hbmSize part then .hbm
  else match cmOf part a with
    | some cl => .cm cl
    | none => .unmapped

/-- The range lies wholly in HBM4. -/
def inHbm (part a n : Nat) : Bool := decide (a + n ≤ hbmSize part)

/-- A partition reaches a line (R125): a cluster memory of its own dies, or a window whose enable matches. -/
def reaches (s : State) (p : Part) (wr : Bool) (a : Nat) : Bool :=
  match dpaOf s.pkg.part a with
  | .unmapped => false
  | .cm cl => bitN p.stackSet (cl / 8) || inWin a
  | .hbm => inWin a
where
  inWin (a : Nat) : Bool := p.windows.any (fun q => decide (q.2.base ≤ a ∧ a < q.2.base + q.2.len) && (if wr then q.2.wr else q.2.rd))

/-- A cluster memory on a fenced or absent die. -/
def cmFenced (s : State) (cl : Nat) : Bool := (mfind s.rel.stackF (cl / 8)).isSome

/-- In IDLE an access from outside to a cluster memory ungates its rood (spec/13 R385). -/
def touchCm (cl : Nat) (s : State) : State :=
  if s.pkg.power ≠ 1 then s
  else
    let r := rood s (siteKC (cl / 8)) (cl % 8)
    if r.gated || r.ungatedAt.isSome then setRood s (siteKC (cl / 8)) (cl % 8) { r with gated := false, ungatedAt := some s.now } else s

/-- Ports of a cluster memory that no core occupies in a cycle (R115). -/
def idlePorts (s : State) (cl x : Nat) : Nat :=
  12 - ((List.range 12).filter (fun k => decide (x < (coreAt s (cl * 16 + k)).portFree))).length

/-- The first cycle from `x` with a port for a block from outside, of which up to 6 are served in one cycle, and the cycles without an idle port
before it. A vector access occupies a port for 4 cycles. -/
def extSlot (s : State) (cl : Nat) (p : CmPipe) (fuel x waited : Nat) : Nat × Nat :=
  match fuel with
  | 0 => (x, waited)
  | f + 1 =>
    let i := idlePorts s cl x
    if i = 0 then extSlot s cl p f (x + 1) (waited + 1)
    else if min 6 i ≤ (if p.extCyc = x then p.extUsed else 0) then extSlot s cl p f (x + 1) waited
    else (x, waited)

/-- A 64-byte block of a cluster memory accessed from outside (R115, R43): it takes a port, what commits by its cycle has committed, and what samples
before it has sampled: it stands behind the cores, as one of number 12. What issues after it issues after that cycle, in which further blocks may take
the ports that are left. The waits are counted. -/
def extTake (cl : Nat) (s : State) : State :=
  let p := pipeOf s cl
  let now := clusterCyc s cl
  let q := extSlot s cl p 16 (if now = p.extCyc + 1 then p.extCyc else max now p.extCyc) 0
  let s := setPipe cl { p with extCyc := q.1, extUsed := (if p.extCyc = q.1 then p.extUsed else 0) + 1 } s
  let s := commitTo cl q.1 (sampleTo cl (q.1 - 1) (crossCl cl false s))
  let s := reachRood (siteKC (cl / 8)) (cl % 8) (q.1 + 1) s
  if q.2 = 0 then s else bump 0x1001 (corrInst 0 cl) q.2 s

/-- The outcome of a 64-byte line at an address that no window check stops: from HBM4, or from a cluster memory with what its code
finds (offsets from the line); the words that a cluster memory cannot correct. -/
def readDpaQ (a : Nat) (fs : List LineFind) (e : Ecc) (s : State) : LineOut × List Nat × State :=
  match dpaOf s.pkg.part a with
  | .hbm =>
    let (o, s) := readLine a fs s
    (o, [], s)
  | .cm cl =>
    if cmFenced s cl then (.fenced, [], s)
    else
      let s := extTake cl (touchCm cl s)
      let l := badWords s.mem.m a 64 e.bad
      let s := reportCorr a e.corr s
      if l.isEmpty then (.data (getBs s.mem.m a 64), [], s) else (.poison (getBs s.mem.m a 64), l, s)
  | .unmapped => (.fenced, [], s)

/-- The same, of an access of one line; the reader is that of R138. -/
def readDpa (a : Nat) (fs : List LineFind) (e : Ecc) (reader : Nat) (s : State) : LineOut × State :=
  let (o, l, s) := readDpaQ a fs e s
  (o, reportBad reader l s)

/-- The aligned lines that `n` bytes from an address touch. -/
def linesOf (a n : Nat) : List Nat := if n = 0 then [] else (List.range ((a + n - 1) / 64 - a / 64 + 1)).map (fun i => (a / 64 + i) * 64)

/-- What the code of a cluster memory finds in the line at `l`, given the offsets from `a` of an access; a correction counts with its first line. -/
def eccOf (e : Ecc) (a l : Nat) : Ecc :=
  { corr := e.corr && decide (l ≤ a), bad := e.bad.filterMap (fun o => if l ≤ a + o ∧ a + o < l + 64 then some (a + o - l) else none) }

/-- Lines read in order: the outcome of each, and one report of the first word that a cluster memory cannot correct (spec/04 R116). -/
def readLines (ls : List Nat) (a : Nat) (fs : List LineFind) (e : Ecc) (reader : Nat) (s : State) : List (Nat × LineOut) × State :=
  let r := ls.foldl (fun (x : List (Nat × LineOut) × List Nat × State) l =>
    let (o, b, s) := readDpaQ l fs (eccOf e a l) x.2.2
    (x.1 ++ [(l, o)], x.2.1 ++ b, s)) ([], [], s)
  (r.1, reportBad reader r.2.1 r.2.2)

/-- Words poisoned from an address of SRAM. -/
def poisonWords (m : Mem) (a n : Nat) : Mem := (unitsOf a n).foldl setPoison m

/-- The poison of a whole piece, where it is poison. -/
def allPoison (b : Bool) (n : Nat) : List (Nat × Nat) := if b then [(0, n)] else []

/-- Bytes of one line of HBM4 written: the whole line, or a part of it by a merge (R131). -/
def hbmWrite (a : Nat) (bs : List Byte) (poison : Bool) (s : State) : Bool × State :=
  if bs.length = 64 ∧ a % 64 = 0 then writeLine a bs poison s
  else
    let (ok, s) := writePart a bs [] s
    (ok, if poison && ok then setMem s (setPoison s.mem.m a) else s)

/-- Bytes of one line written at a device physical address. `poison` names the stretches of them that are poison, by offset and length: a line of
HBM4 is poison with any, a word of SRAM with any that touches it (spec/06 R190). -/
def writeDpa (a : Nat) (bs : List Byte) (poison : List (Nat × Nat)) (s : State) : Bool × State :=
  match dpaOf s.pkg.part a with
  | .hbm => hbmWrite a bs (!poison.isEmpty) s
  | .cm cl =>
    if cmFenced s cl then (false, s)
    else
      let s := extTake cl (touchCm cl s)
      (true, setMem s (poison.foldl (fun m q => poisonWords m (a + q.1) q.2) (writeBs s.mem.m a bs)))
  | .unmapped => (false, s)

/-- An atomic addition to the 64-bit word at an aligned address (spec/09 R283): the word is read through its code, and a poisoned one stays
poisoned. -/
def addWord (a v : Nat) (fs : List LineFind) (e : Ecc) (s : State) : Bool × State :=
  let sum (s : State) : List Byte := leBytes 8 ((getNum s.mem.m a 8 + v) % 2 ^ 64)
  match dpaOf s.pkg.part a with
  | .hbm =>
    let l := a / 64 * 64
    let p := placeOf s l
    match readLine l fs s with
    | (.fenced, s) => (false, s)
    | (_, s) =>
      let s := unflip l (dropOld l p s)
      (true, bump 0x3002 p.stack 1 (setMem s (putBs s.mem.m a (sum s))))
  | .cm cl =>
    if cmFenced s cl then (false, s)
    else
      let s := extTake cl (touchCm cl s)
      let l := badWords s.mem.m a 8 e.bad
      let m := writeBs s.mem.m a (sum s)
      (true, reportBad 4 l (setMem (reportCorr a e.corr s) (if l.isEmpty then m else poisonWords m a 8)))
  | .unmapped => (false, s)

end Sys2Proof.Machine
end

