-- ==== Sys2Proof/Machine/FabOps.lean ====
section
/-! DEFINITION. FabOps.lean: the fabric's tables, ports, streams and the sending of packets (spec/09 R265 to R267, R276 to R281, R285 to
R293). -/
namespace Sys2Proof.Machine

def peerOf (s : State) (pkg : Nat) : Peer := mget s.fab.peers {} pkg
def setPeer (pkg : Nat) (p : Peer) (s : State) : State := setFab { s.fab with peers := mset s.fab.peers pkg p } s
def portOf (s : State) (k : Nat) : EthPort := mget s.fab.ports {} k
def setPort (k : Nat) (p : EthPort) (s : State) : State := setFab { s.fab with ports := mset s.fab.ports k p } s
def modTel (k : Nat) (f : EthTel → EthTel) (s : State) : State := setFab { s.fab with tel := mmod s.fab.tel {} k f } s
/-- The fabric engine as an event source (spec/11 R348). -/
def fabSrc : Nat := 0x63
/-- This package's ID; a package outside a pod is package 0 of its own (spec/12 R377). -/
def ownPkg (s : State) : Nat := if s.pod.podState = 0 then 0 else s.pod.pkgId.toNat
/-- PAYLOAD_MAX in bytes, ACK_TIMER in µs, IPV6, PFC_EN and VLAN_EN of FAB_CFG (R276). -/
def payloadMax (s : State) : Nat := 1024 * 2 ^ (bitsN (cfgEff s 5 0) 41 2)
def pfcEn (s : State) (p : Nat) : Bool := bitN (cfgEff s 5 0) (32 + p)

/-! ## Tables -/

/-- A package's valid address entry (R267). -/
def addrOf (s : State) (pkg : Nat) : Option AddrEnt := (mfind s.fab.addrs pkg).filter (·.valid)

/-- The ACTIVE job of a partition. -/
def activeJob (s : State) (pt : Nat) : Option Job := if (job s pt).state = 1 then some (job s pt) else none

/-- Group `g` of a partition's job (R293). -/
def groupOf (s : State) (pt g : Nat) : Option GroupEnt :=
  let j := job s pt
  if j.state = 1 ∧ g < j.groupCount then (mfind s.fab.groups (j.groupBase + g)).filter (·.valid) else none

/-- A fenced package, or one whose fence state is in doubt (R295; spec/12 R369). -/
def pkgFenced (s : State) (pkg : Nat) : Bool := s.fab.fence.pkgs.contains pkg || s.fab.fence.doubt
/-- A fenced endpoint of this package. -/
def epFenced (s : State) (ep : Nat) : Bool := bitN s.fab.fence.eps ep || (decide (ep < 12) && (mfind s.rel.stackF ep).isSome)
/-- Endpoints of this package that a rank may name (R22, R23, R266). -/
def epPresent (s : State) (ep : Nat) : Bool := decide (ep < stacksOf s.pkg.part) || ep == 12

/-! ## Classes and ports -/

/-- Bytes of a frame: Ethernet header and check, tag, IP, UDP, the fabric header and the payload. -/
def frameBytes (s : State) (p : FabPkt) : Nat :=
  let c := cfgEff s 5 0
  14 + 4 + (if bitN c 19 then 4 else 0) + (if bitN c 40 then 40 else 20) + 8 + 80 + p.payload.length

/-- A port takes traffic: configured, with link, neither draining nor drained (R280, R281). -/
def portUp (s : State) (k : Nat) : Bool :=
  let p := portOf s k
  p.mode != 0 && p.link && p.draining.isNone && !p.drained
/-- The ports by which a package is reached. -/
def portsFor (s : State) (pkg : Nat) : List Nat :=
  match addrOf s pkg with
  | none => []
  | some a => (onesOf 16 a.portmask).filter (portUp s)

/-- Bytes queued in a port, of one class or of all. -/
def qBytes (p : EthPort) (cl : Nat) : Nat := (p.queue.filter (fun q => q.1 == cl)).foldl (fun n q => n + q.2) 0
def qAll (p : EthPort) : Nat := p.queue.foldl (fun n q => n + q.2) 0

/-- The class may enter the port's buffer (R290). -/
def classOpen (p : EthPort) (cl : Nat) : Bool :=
  match cl with
  | 0 => !p.closedMgmt
  | 1 => !p.closedResp
  | 2 => !p.closedOrd
  | _ => !p.closedBulk

/-- The least of a list by a key, the first on ties. -/
def leastBy (f : Nat → Nat) (l : List Nat) : Option Nat :=
  l.foldl (fun m a => match m with
    | none => some a
    | some b => if f a < f b then some a else some b) none

/-- The port of a flow that is not BULK, among those that are up (R280): the one that carries it, else one by hash. -/
def flowPort (s : State) (l : List Nat) (pkg cl : Nat) : Option Nat :=
  match (mfind (peerOf s pkg).flows cl).filter (fun k => l.contains k) with
  | some k => some k
  | none => l[Config.flowHash pkg cl % l.length]?

/-- The port of a packet among some (R280): BULK is sprayed to the emptiest open one, the rest keep one. -/
def choosePort (s : State) (l : List Nat) (pkg cl : Nat) : Option Nat :=
  if cl = 3 then leastBy (fun k => qAll (portOf s k)) (l.filter (fun k => classOpen (portOf s k) 3))
  else (flowPort s l pkg cl).filter (fun k => classOpen (portOf s k) cl)

/-- The bytes of a class at which it closes (R290): the reservations of MGMT and RESPONSE, and the thresholds of ORDERED and BULK. -/
def closeAt (cl : Nat) : Nat := match cl with
  | 0 => 64 * 1024
  | 1 => 256 * 1024
  | 2 => 256 * 1024
  | _ => 512 * 1024
/-- A class closes at its level and opens again at half of it (R290). -/
def classShut (p : EthPort) (shut : Bool) (cl : Nat) : Bool :=
  decide (closeAt cl ≤ qBytes p cl) || (shut && !decide (2 * qBytes p cl ≤ closeAt cl))
/-- The thresholds of a port looked at again after its queue has changed. -/
def reThreshold (p : EthPort) : EthPort :=
  { p with closedMgmt := classShut p p.closedMgmt 0, closedResp := classShut p p.closedResp 1
           closedOrd := classShut p p.closedOrd 2, closedBulk := classShut p p.closedBulk 3 }

/-- A frame entered in a port's egress queue, with the thresholds of R290. -/
def putFrame (k cl n : Nat) (s : State) : State :=
  let p := portOf s k
  let p := reThreshold { p with queue := p.queue ++ [(cl, n)] }
  modTel k (fun t => { t with qmax := max t.qmax (qAll p) }) (setPort k p s)

/-- The fields of a packet as they are sent. -/
def fabFields (p : FabPkt) : List Nat :=
  [p.type, p.flags, p.dstEp, p.srcEp, p.chan, p.srcPkg, p.dstPkg, p.seq, p.job, p.dseq, p.oseq, p.pkt, p.npkt, p.addr, p.arg,
   p.poison, p.saddr]

/-- An Ethernet frame put on a port (R277). -/
def etherOut (k : Nat) (x : List Byte) (s : State) : State := setFab { s.fab with wire := mmod s.fab.wire [] k (x :: ·) } s

/-- A packet put on a port: a packet boundary (spec/00 R12). -/
def emitFrame (k : Nat) (p : FabPkt) (s : State) : State :=
  let f := frameOf s k p
  let s := if classOf p = 3 then setFab { s.fab with spray := nextSpray s p } s else s
  let s := putFrame k (classOf p) (frameBytes s p) s
  packetBoundary (send (.fabric k p.dstPkg p.type (fabFields p) p.payload) (etherOut k f s))

/-- A packet sent to a peer is counted against RATE, but for MGMT and RESPONSE (R291). -/
def charged (p : FabPkt) (s : State) (pr : Peer) : Peer :=
  { pr with paceAt := if classOf p < 2 then pr.paceAt else max pr.paceAt (s.now * 1000) + 8000000 * frameBytes s p / max 1 pr.rate }
/-- A packet first sent to a peer is counted, and keeps its flow's port (R280). -/
def paced (k : Nat) (p : FabPkt) (s : State) (pr : Peer) : Peer :=
  let pr := charged p s pr
  { pr with flows := if classOf p = 3 then pr.flows else mset pr.flows (classOf p) k }

/-- RATE is below its maximum and does not let a packet leave now (R291). -/
def rateHeld (s : State) (pr : Peer) (cl : Nat) : Bool := decide (2 ≤ cl) && decide (pr.rate < 25600000) && decide (s.now * 1000 < pr.paceAt)

/-- A packet transmitted for the first time on a port: it takes the next SEQ of its stream (R285). -/
def transmit (k : Nat) (p : FabPkt) (s : State) : State :=
  let pr := paced k p s (peerOf s p.dstPkg)
  if p.type = 5 then emitFrame k p (setPeer p.dstPkg pr s)
  else if p.type = 7 then
    let p := { p with seq := pr.txM }
    emitFrame k p (setPeer p.dstPkg { pr with txM := (pr.txM + 1) % 2 ^ 32
                                              unackedM := pr.unackedM ++ [{ p := p, port := k, tried := 2 ^ k, sentAt := s.now, firstAt := s.now }] } s)
  else
    let p := { p with seq := pr.txD }
    emitFrame k p (setPeer p.dstPkg { pr with txD := (pr.txD + 1) % 2 ^ 32
                                              unackedD := pr.unackedD ++ [{ p := p, port := k, tried := 2 ^ k, sentAt := s.now, firstAt := s.now }] } s)

/-- The path works, and the stream's window beyond the last cumulative acknowledgement is open (R285, R288); an ACK is of no stream. -/
def streamOpen (pr : Peer) (p : FabPkt) : Bool :=
  !pr.failed && (p.type == 5 || (if p.type = 7 then decide ((pr.txM + 2 ^ 32 - pr.cumM) % 2 ^ 32 < 64)
    else decide ((pr.txD + 2 ^ 32 - pr.cumD) % 2 ^ 32 < 8192)))

/-- The port by which a packet can leave now: none while its path, its stream's window, RATE, an earlier packet of its class or every port stops it. -/
def portNow (s : State) (p : FabPkt) : Option Nat :=
  let pr := peerOf s p.dstPkg
  let cl := classOf p
  if pr.waiting.any (fun q => classOf q == cl) || !streamOpen pr p || rateHeld s pr cl then none
  else choosePort s (portsFor s p.dstPkg) p.dstPkg cl

/-- A packet to another package: sent, or entered among those that wait. -/
def sendFab (p : FabPkt) (s : State) : State :=
  let p := { p with srcPkg := ownPkg s }
  match portNow s p with
  | some k => transmit k p s
  | none => setPeer p.dstPkg { (peerOf s p.dstPkg) with waiting := (peerOf s p.dstPkg).waiting ++ [p] } s

/-- What a receiver keeps of a peer's stream: 0 data, 1 MGMT. -/
def rxOf (pr : Peer) (stream : Nat) : RxStream := if stream = 1 then pr.rxM else pr.rxD
def setRx (pr : Peer) (stream : Nat) (r : RxStream) : Peer := if stream = 1 then { pr with rxM := r } else { pr with rxD := r }

/-- The payload of an ACK for a stream (R286). -/
def ackBytes (r : RxStream) (stream : Nat) : List Byte :=
  let sack := r.beyond.foldl (fun m q => m ||| 2 ^ ((q + 2 ^ 32 - r.next) % 2 ^ 32)) 0
  leBytes 4 (r.next + 2 ^ 32 - 1) ++ leBytes 2 (min r.ce 65535) ++ leBytes 1 stream ++ leBytes 1 0 ++ leBytes 1024 sack

/-- An ACK sent for a stream, or kept due where no port takes it now (R286, R288, R290). -/
def sendAck (pkg stream : Nat) (s : State) : State :=
  let pr := peerOf s pkg
  let r := rxOf pr stream
  let p : FabPkt := { type := 5, chan := 3, srcPkg := ownPkg s, dstPkg := pkg, payload := ackBytes r stream }
  match portNow s p with
  | some k => transmit k p (setPeer pkg (setRx pr stream { r with ce := 0, arrivals := 0, since := none, due := false }) s)
  | none => setPeer pkg (setRx pr stream { r with due := true }) s

/-- The ACKs that are due to a peer, and then the packets that wait for it, tried again in order. -/
def flushPeer (pkg : Nat) (s : State) : State :=
  let l := (peerOf s pkg).waiting
  let s := setPeer pkg { (peerOf s pkg) with waiting := [] } s
  let s := [0, 1].foldl (fun s i => if (rxOf (peerOf s pkg) i).due then sendAck pkg i s else s) s
  l.foldl (fun s p => sendFab p s) s
def flushAll (s : State) : State := s.fab.peers.foldl (fun s q => flushPeer q.1 s) s

/-! ## Messages of the FM channel (R298; spec/12 R362) -/

/-- The envelope of 16 bytes: FM_SEQ, SRC_PKG, TERM, EPOCH, PLEN and two reserved bytes. -/
def fmEnvelope (s : State) (q plen : Nat) : List Byte :=
  leBytes 4 q ++ leBytes 2 s.pod.pkgId.toNat ++ leBytes 2 s.pod.fmTerm.toNat ++ leBytes 4 s.fab.epoch.toNat ++ leBytes 2 plen ++ leBytes 2 0
/-- A message as it travels: envelope, sixteen words and payload. -/
def fmFrame (s : State) (q : Nat) (ws : List Word32) (pl : List Byte) : List Byte :=
  fmEnvelope s q pl.length ++ ws.flatMap (fun w => leBytes 4 w.toNat) ++ pl
/-- A message of the FM channel sent to another package: in a MGMT packet of its own stream, and in a datagram where the out-of-band port is up. -/
def sendMgmt (pkg : Nat) (x : List Byte) (s : State) : State :=
  if pkg = ownPkg s then s
  else
    let s := if s.mp2.oobUp then send (.oobCopy pkg x) s else s
    sendFab { type := 7, chan := 4, dstPkg := pkg, dstEp := 12, srcEp := 12, payload := x } s

/-- A COMPLETE to a source package (R278, R283). -/
def sendComplete (pkg ep jobId dseq : Nat) (v : BitVec 64) (s : State) : State :=
  sendFab { type := 4, chan := 3, dstPkg := pkg, dstEp := ep, job := jobId, dseq := dseq, arg := v.toNat } s

/-! ## Completion values (R62, R273) -/

/-- The rank of a status in R273, lowest first. -/
def statusRank (st : Nat) : Nat :=
  match st with
  | 3 => 1 | 5 => 2 | 4 => 3 | 6 => 4 | 2 => 5 | _ => 6
/-- The first case of R273 that applies, of two statuses. -/
def joinStatus (a b : Nat) : Nat := if statusRank b < statusRank a then b else a
/-- A completion value. -/
def compVal (st skipped gen : Nat) : BitVec 64 :=
  if st = 2 then BitVec.ofNat 64 (gen * 2 ^ 32 + skipped % 2 ^ 24 * 2 ^ 8 + 2) else BitVec.ofNat 64 st

end Sys2Proof.Machine
end

