-- ==== Sys2Proof/Machine/Command.lean ====
section
/-! DEFINITION. Command.lean: how a command is checked, carried out and answered (spec/12 R355 to R363, R387; log 17). -/
namespace Sys2Proof.Machine

/-! ## STATUS codes (R358) -/
def stOK : Nat := 0x00
def stAccepted : Nat := 0x01
def stBadMessage : Nat := 0x02
def stBadOpcode : Nat := 0x03
def stBadArg : Nat := 0x04
def stDenied : Nat := 0x05
def stAbsent : Nat := 0x06
def stState : Nat := 0x07
def stBusy : Nat := 0x08
def stDeferred : Nat := 0x09
def stRefused : Nat := 0x0A
def stNotFound : Nat := 0x0B
def stNoSpace : Nat := 0x0C
def stAborted : Nat := 0x0D
def stFailed : Nat := 0x0E

/-! ## The command tables (R368, R370, R440) -/

/-- Where a command of level L1 names its partition. -/
inductive PtSel where
  | nowhere
  | arg0
  | core (arg : Nat)
  | sync
  | engine
  | jobArg
  | own
  deriving DecidableEq, Repr

/-- A row of the command tables: level, whether it waits, whether FORCE is named, the bits that each argument may set. -/
structure CmdSpec where
  level : Nat
  waits : Bool
  force : Bool
  sel : PtSel
  masks : List Nat
  deriving DecidableEq, Repr

def m32 : Nat := 0xFFFFFFFF
def mCore : Nat := 0xFEF
def mAddr : List Nat := [0xFFFFFFFF, 0xFFFF]

/-- The command tables. -/
def cmdSpec (op : Nat) : Option CmdSpec :=
  let row (l : Nat) (w : Bool) (sel : PtSel) (ms : List Nat) : Option CmdSpec := some ⟨l, w, false, sel, ms⟩
  match op with
  | 0x0000 => row 0 false .nowhere []
  | 0x0001 => row 0 false .nowhere [0xFFFF]
  | 0x0002 => row 0 false .nowhere []
  | 0x0003 => row 0 false .nowhere [0xFF]
  | 0x0100 => row 2 false .arg0 [0xF, 0x3F0FFF]
  | 0x0101 => row 2 false .arg0 [0xF]
  | 0x0102 => row 2 false .arg0 [0x70F0F, m32, 0xFFFF, m32, 0xFFFF]
  | 0x0103 => row 2 false .arg0 [0xF000F]
  | 0x0104 => row 1 false .arg0 [0xF, 0x7FFF]
  | 0x0105 => row 1 false .arg0 [0xF]
  | 0x0106 => row 0 false .arg0 [0xF]
  | 0x0110 => row 1 true .arg0 ([0xF] ++ mAddr)
  | 0x0111 => row 1 false .arg0 [0xF, m32]
  | 0x0112 => row 1 false .arg0 [0xF]
  | 0x0113 => row 1 false .arg0 [0xF]
  | 0x0200 => row 1 true (.core 0) ([mCore, 3] ++ mAddr ++ mAddr ++ mAddr)
  | 0x0201 => row 1 true (.core 0) ([mCore, 3] ++ mAddr ++ mAddr ++ mAddr)
  | 0x0202 => row 1 false (.core 0) [mCore]
  | 0x0203 => row 2 true (.core 0) [mCore]
  | 0x0210 => row 1 false .sync [0xF, mCore, 0x11F]
  | 0x0211 => row 2 false .sync [0xF, mCore, 0x11F, 0xF, m32, m32]
  | 0x0212 => row 2 false (.core 0) [mCore, 3]
  | 0x0300 => row 0 false .nowhere [0xF]
  | 0x0301 => row 0 true .nowhere ([0xF] ++ mAddr ++ [m32])
  | 0x0302 => row 2 false .nowhere [3, m32]
  | 0x0400 => row 0 false .nowhere [0x1F01FF]
  | 0x0401 => row 2 false .nowhere [0x1F01FF]
  | 0x0402 => row 0 false .nowhere [0xF0F]
  | 0x0403 => row 2 false .nowhere [0xF0F]
  | 0x0404 => row 0 false .nowhere [0xFF]
  | 0x0500 => row 1 false (.core 1) [0x11F, mCore, 0x1F]
  | 0x0501 => row 1 false .nowhere ([0x11F] ++ mAddr)
  | 0x0502 => row 2 false .nowhere [0x3F1F]
  | 0x0503 => row 2 false .nowhere [0x3F, m32, 0xFFFF]
  | 0x0504 => row 2 false .nowhere [0x10F]
  | 0x0600 => row 1 true .engine [m32, m32, m32, m32, m32, 0xFFFF]
  | 0x0601 => row 1 true .engine [m32, m32]
  | 0x0602 => row 1 false .engine [m32, m32]
  | 0x0603 => row 1 true .engine [0x3FFFFF]
  | 0x0604 => row 1 false .engine [0xFFFFF]
  | 0x0605 => row 1 false .engine [0xFFFFF]
  | 0x0700 => row 2 true .nowhere ([0xFFFF] ++ mAddr ++ [m32])
  | 0x0701 => row 2 true .nowhere (mAddr ++ [m32])
  | 0x0702 => row 1 true .jobArg [m32]
  | 0x0703 => row 2 true .nowhere ([0xFFFF] ++ mAddr)
  | 0x0704 => some ⟨2, true, true, .nowhere, [0x3FFFFF]⟩
  | 0x0705 => row 2 true .nowhere [0xF]
  | 0x0706 => row 2 true .nowhere ([0xFFFF] ++ mAddr)
  | 0x0707 => row 2 false .nowhere [0xFFFF, 0xFFFF, 0xFFFF, 0xFFFF]
  | 0x0800 => row 3 false .nowhere [0xFFFF, m32, m32, m32, m32, m32, m32, m32, m32]
  | 0x0801 => row 3 false .nowhere [m32, m32]
  | 0x0802 => row 3 false .nowhere [m32, m32]
  | 0x0803 => row 3 false .nowhere [m32, m32, m32, m32, m32, m32, m32, m32]
  | 0x0804 => row 3 false .nowhere [m32]
  | 0x0805 => row 3 false .nowhere [m32, m32]
  | 0x0806 => row 3 false .nowhere [m32, 0x3FFFF, 0x1FFF]
  | 0x0807 => row 3 false .nowhere [m32]
  | 0x0808 => row 3 false .nowhere [0xF]
  | 0x0809 => row 3 false .nowhere [0xFFFF]
  | 0x080A => row 3 false .nowhere []
  | 0x080B => row 3 false .nowhere [m32]
  | 0x0810 => row 3 false .nowhere [0xFFFF, m32, 0xFFFF, 1]
  | 0x0811 => row 3 false .nowhere [m32, 3, 0xFFFF]
  | 0x0900 => row 0 false .nowhere [0xFFFF, 0xF]
  | 0x0901 => row 2 false .nowhere [0xFFFF, 0xF, m32, m32]
  | 0x0A00 => row 1 false .own [0xFFFF, m32, 0xF]
  | 0x0A01 => some ⟨2, true, true, .nowhere, [0x1FF, 0xFF, 0x1F0F00]⟩
  | 0x0A02 => row 2 true .nowhere []
  | 0x0B00 => row 2 true .nowhere [3]
  | 0x0B01 => row 2 false .nowhere [m32]
  | 0x0C00 => row 2 true .nowhere []
  | 0x0C01 => row 2 true .nowhere []
  | 0x0C02 => row 2 false .nowhere [1]
  | 0x0C03 => row 0 true .nowhere (List.replicate 8 m32 ++ mAddr ++ [m32])
  | _ => none

/-- The commands of recovery mode (R440). -/
def rcvSpec (op : Nat) : Option CmdSpec :=
  match op with
  | 0x0000 => some ⟨0, false, false, .nowhere, []⟩
  | 0x0003 => some ⟨0, false, false, .nowhere, [0xFF]⟩
  | 0x0D00 => some ⟨0, false, false, .nowhere, [m32]⟩
  | 0x0D01 => some ⟨0, false, false, .nowhere, [m32, 0x3F] ++ List.replicate 11 m32⟩
  | 0x0D02 => some ⟨0, false, false, .nowhere, []⟩
  | 0x0D03 => some ⟨0, false, false, .nowhere, []⟩
  | _ => none

/-- The table that serves now. -/
def specNow (s : State) (op : Nat) : Option CmdSpec := if s.pkg.recovery then rcvSpec op else cmdSpec op

/-! ## Arguments -/

/-- Argument word `i`, as a number; 0 where absent. -/
def argN (r : Req) (i : Nat) : Nat := (r.args.getD i 0).toNat
/-- A device physical address in two words, the low word first. -/
def addrArg (r : Req) (i : Nat) : Nat := argN r i + 2 ^ 32 * (argN r (i + 1) % 2 ^ 16)
/-- The first argument word with a bit set that the command does not use (R357). -/
def badArgWord (ms : List Nat) (r : Req) : Option Nat :=
  (List.range 13).find? (fun i => (argN r i &&& (m32 - ms.getD i 0)) != 0)
/-- Stack, cluster and core of a CORE word (R368). -/
def cwStack (w : Nat) : Nat := bitsN w 8 4
def cwCluster (w : Nat) : Nat := bitsN w 5 3
def cwCore (w : Nat) : Nat := bitsN w 0 4
/-- The core number of a position: stack, cluster and core in one number. -/
def coreNum (stack cluster core : Nat) : Nat := (stack * 8 + cluster) * 16 + core
def cwNum (w : Nat) : Nat := coreNum (cwStack w) (cwCluster w) (cwCore w)
/-- The CORE word of a core number. -/
def numCw (c : Nat) : Nat := c / 128 * 256 + c / 16 % 8 * 32 + c % 16
/-- A site is absent on the part (R3). -/
def siteAbsent (s : State) (site : Nat) : Bool := !((sitesOf s.pkg.part).contains site)

/-! ## Privilege (R355, R356) -/

/-- The ceiling of a local channel. -/
def ceilingOf (s : State) (ch : Chan) : Nat :=
  match ch with
  | .pcie => bitsN (cfgEff s 1 0) 0 2
  | .oob _ _ => bitsN (cfgEff s 1 0) 2 2
  | .smbus => bitsN (cfgEff s 1 0) 4 2
  | .fm _ _ => 0

/-- A channel as PART_FORM encodes it. -/
def chanCode (ch : Chan) : Nat :=
  match ch with
  | .pcie => 0
  | .oob _ _ => 1
  | .smbus => 2
  | .fm _ _ => 3

/-- The partition that a command of level L1 acts on. -/
def selPart (s : State) (sel : PtSel) (r : Req) : Option Nat :=
  match sel with
  | .nowhere => none
  | .arg0 => some (bitsN (argN r 0) 0 4)
  | .core a => partOfStack s (cwStack (argN r a))
  | .sync => if bitsN (argN r 0) 0 4 ≤ 1 then partOfStack s (cwStack (argN r 1)) else some (bitsN (argN r 1) 0 4)
  | .engine => some (enginePart s)
  | .jobArg => partOfJob s (argN r 0)
  | .own => none

/-- The debugger commands, which need DEBUG_EN (R356). -/
def debugOp (op : Nat) : Bool := op == 0x0211 || op == 0x0212

/-- The command is admitted on its channel (R355, R356). CTR_READ has the rule of spec/16 R448. -/
def privOk (s : State) (c : CmdSpec) (op : Nat) (r : Req) : Bool :=
  (!debugOp op || debugEn s) && match r.chan with
  | .fm pkg _ =>
    c.level == 0 || (c.level == 3 && (if 0x0810 ≤ op then s.pod.members.contains pkg && s.pod.role == 1
      else pkg == s.pod.managerPkg.toNat || (s.pod.managerLost && pkg == s.pod.standbyPkg.toNat)))
  | ch =>
    let k := ceilingOf s ch
    if c.level = 0 then true
    else if c.level = 1 then
      decide (2 ≤ k) || (decide (1 ≤ k) && ((c.sel == .own && ctrAdmitted s (bitsN (argN r 0) 0 16) (argN r 1) (argN r 2) (chanCode ch)) ||
        ((selPart s c.sel r).bind (part s)).any (fun p => p.owner == chanCode ch)))
    else if c.level = 2 then decide (2 ≤ k) else false

/-! ## Answers -/

/-- The sixteen words of an answer (R358). -/
def answerWords (op tag status detail ticket : Nat) (ws : List Word32) : List Word32 :=
  let body := [BitVec.ofNat 32 (op * 2 ^ 16 + tag % 2 ^ 16), BitVec.ofNat 32 (status * 2 ^ 24 + detail % 256 * 2 ^ 16 + ticket % 2 ^ 16)]
    ++ (List.range 13).map (fun i => ws.getD i 0)
  body ++ [(crc16 (body.flatMap (fun w => leBytes 4 w.toNat))).zeroExtend 32]

/-- The words of a number, least significant first. -/
def wordsOf (n w : Nat) : List Word32 := (List.range n).map (fun i => BitVec.ofNat 32 (w / 2 ^ (32 * i)))

/-- An answer put into M2H, or kept until it is released (R338, R359). -/
def toHost (ws : List Word32) (s : State) : State :=
  if s.hp.m2hFull then { s with hp := { s.hp with m2hWait := s.hp.m2hWait ++ [ws] } }
  else { s with hp := { s.hp with m2hFull := true, m2hMw := ws, rose := addOnce s.hp.rose 32 } }

/-- An answer kept for repeats of its CHAN_SEQ (R361). -/
def oobKeep (peer seq : Nat) (ws : List Word32) (ps : List OobPeer) : List OobPeer :=
  ps.map (fun p => if p.addr = peer then { p with kept := p.kept.map (fun k => if k.1 = seq then (seq, some ws) else k) } else p)

/-- The words of an answer's request: its opcode and TAG, its STATUS (R358). -/
def ansStatus (ws : List Word32) : Nat := (ws.getD 1 0).toNat / 2 ^ 24

/-- An answer delivered on its channel. One of the FM channel travels in its envelope, by both paths (R362). -/
def deliver (ch : Chan) (ws : List Word32) (payload : List Byte) (s : State) : State :=
  match ch with
  | .pcie => toHost ws s
  | .oob peer seq => send (.answer ch ws payload) { s with mp2 := { s.mp2 with oobPeers := oobKeep peer seq ws s.mp2.oobPeers } }
  | .smbus => { s with mp2 := { s.mp2 with smbAnswer := some ws, smbBusy := false } }
  | .fm pkg seq => send (.answer ch ws payload) (sendMgmt pkg (fmFrame s seq ws payload) s)

/-- DETAIL as it is sent: a flash that fails is named by every answer (spec/15 R439). -/
def detailOf (s : State) (d : Nat) : Nat := if s.pkg.flashBad then Config.flashBadDetail else d

/-- An answer of a request, with its payload. -/
def answerPl (op : Nat) (r : Req) (status detail ticket : Nat) (ws : List Word32) (payload : List Byte) (s : State) : State :=
  deliver r.chan (answerWords op r.tag status (detailOf s detail) ticket ws) payload s
/-- An answer without a payload. -/
def answer (op : Nat) (r : Req) (status detail ticket : Nat) (ws : List Word32) (s : State) : State :=
  answerPl op r status detail ticket ws [] s

/-! ## Journal and tickets (R360, R363) -/

/-- The entry is the journal's record of this request: open, and not one whose ticket has been given but for a command to be carried out afresh. -/
def isEntry (op : Nat) (r : Req) (e : JEntry) : Bool :=
  e.op == op && e.req == r && decide (e.stage < 2) && e.ticket.isNone

/-- The journal has a place: fewer than 256 entries, or one that is ANSWERED. -/
def journalOpen (s : State) : Bool := decide (s.mp.journal.length < 256) || s.mp.journal.any (fun e => e.stage == 3)
/-- The journal of 256 entries: an answered one makes room. -/
def journalRoom (j : List JEntry) : List JEntry :=
  if j.length < 256 then j else
    match j.findIdx? (fun e => e.stage == 3) with
    | some i => j.eraseIdx i
    | none => j

/-- A command's entry written: TAKEN. -/
def journalAdd (op : Nat) (r : Req) (s : State) : State :=
  { s with mp := { s.mp with journal := journalRoom s.mp.journal ++ [{ op := op, req := r, takenAt := s.now }] } }

/-- A command taken: TAKEN in the journal, once. -/
def journalTake (op : Nat) (r : Req) (s : State) : State :=
  if s.mp.journal.any (isEntry op r) then s else journalAdd op r s

/-- The first element of which `p` holds, changed. -/
def mapFirst {α : Type} (p : α → Bool) (f : α → α) : List α → List α
  | [] => []
  | a :: l => if p a then f a :: l else a :: mapFirst p f l

/-- The entry of a request changed. -/
def journalSet (op : Nat) (r : Req) (f : JEntry → JEntry) (s : State) : State :=
  { s with mp := { s.mp with journal := mapFirst (isEntry op r) f s.mp.journal } }

/-- A free ticket, if fewer than 64 are held: the next number, modulo 65,536, that none of them has. -/
def freeTicket (s : State) : Option Nat :=
  if s.mp.tickets.length < 64 then
    ((List.range 64).map (fun i => (s.mp.nextTicket.toNat + i) % 2 ^ 16)).find? (fun t => (mfind s.mp.tickets t).isNone)
  else none

/-- A ticket issued. -/
def issueTicket (op t : Nat) (s : State) : State :=
  { s with mp := { s.mp with tickets := mset s.mp.tickets t { op := op }, nextTicket := BitVec.ofNat 16 (t + 1) } }

/-- A ticket withdrawn, for its command has not been accepted. -/
def dropTicket (t : Nat) (s : State) : State :=
  { s with mp := { s.mp with
      tickets := mdel s.mp.tickets t, nextTicket := BitVec.ofNat 16 t
      journal := s.mp.journal.map (fun e => if e.ticket = some t ∧ e.stage < 2 then { e with ticket := none } else e) } }

/-- A waiting command ends: its outcome kept and CMD_DONE emitted (R360). -/
def finishTicket (t status detail : Nat) (ws : List Word32) (s : State) : State :=
  match mfind s.mp.tickets t with
  | none => s
  | some k =>
    if k.done then s else
      let s := { s with mp := { s.mp with
        tickets := mset s.mp.tickets t { k with done := true, status := status, detail := detail, words := ws.take 12 }
        journal := s.mp.journal.map (fun e => if e.ticket = some t then { e with stage := 3 } else e) } }
      emitMp Ev.cmdDone [t, k.op, status, detail] s

/-! ## Two phases (R364) -/

/-- The controllers on which a command changes state, where they are more than one (log 17): those of a partition's stacks, and every site for a power state or
a package budget. -/
def cmdSites (s : State) (op : Nat) (r : Req) : List Nat :=
  let l := if op = 0x0100 then (onesOf 12 (argN r 1)).map siteKC
    else if 0x0101 ≤ op ∧ op ≤ 0x0113 ∧ op ≠ 0x0106 then ((part s (bitsN (argN r 0) 0 4)).map (fun p => (partStacks p).map siteKC)).getD []
    else if op = 0x0B00 ∨ op = 0x0B01 then sitesOf s.pkg.part
    else []
  if 2 ≤ l.length then l.filter (siteUp s) else []

/-- A message of the active processor to some controllers: 7 PREPARE, 8 COMMIT, 9 ABORT, 10 the control term alone (R354, R364, R365). -/
def toSites (kind : Nat) (fields sites : List Nat) (s : State) : State :=
  sites.foldl (fun s d => send (.mgmt d kind s.mp.term.toNat fields) s) s

/-- PREPARE goes to every controller concerned. -/
def beginSites (op : Nat) (r : Req) (s : State) : State :=
  let l := cmdSites s op r
  if l.isEmpty then s
  else toSites 7 [op, r.tag] l (journalSet op r (fun e => { e with sites := l }) s)

/-- The command is taken: in the journal, and prepared where it concerns more than one controller. -/
def beginCmd (op : Nat) (r : Req) (s : State) : State :=
  if s.mp.journal.any (isEntry op r) then s else beginSites op r (journalAdd op r s)

/-- What the controllers hold of a command, dropped. -/
def dropHeld (op : Nat) (r : Req) (s : State) : State :=
  { s with mp := { s.mp with held := s.mp.held.filter (fun h => !(h.2.2.1 == op && h.2.2.2 == r)) } }

/-- The effect is applied: COMMIT to the controllers that have not had it; or nothing is: ABORT to those that prepared. -/
def endSites (e : Option JEntry) (applied : Bool) (s : State) : State :=
  match e with
  | none => s
  | some e =>
    if e.sites.isEmpty then s
    else dropHeld e.op e.req (if applied then (if e.stage = 0 then toSites 8 [e.op, e.req.tag] e.sites s else s)
      else toSites 9 [e.op, e.req.tag] e.prepared s)

/-! ## Carrying out -/

/-- How a command ends: refused without effect; refused after a buffer has been read; done, with a payload or not; accepted and failed; or accepted and
still in progress. -/
inductive CmdOut where
  | bad (status detail : Nat)
  | deny (s : State) (status detail : Nat)
  | ok (s : State) (ws : List Word32)
  | okWith (s : State) (ws : List Word32) (payload : List Byte)
  | fail (s : State) (status detail : Nat)
  | later (s : State)

/-- Commands answered in DEEP, and before a start completes (R387, spec/17 R469). TIME_STATUS only of the KH die. -/
def deepOk (op : Nat) (r : Req) : Bool :=
  [0x0000, 0x0001, 0x0002, 0x0003, 0x0900, 0x0B00].contains op || (op == 0x0404 && argN r 0 == siteKH)

/-- A command stands refused by the state of the package. -/
def gateState (s : State) (op : Nat) (r : Req) : Bool :=
  !s.pkg.recovery && (s.pkg.starting || s.pkg.power == 2) && !deepOk op r

/-- The bits that the arguments may set. CTR_READ ignores its A2 at L2 (spec/16 R448). -/
def masksOf (s : State) (c : CmdSpec) (op : Nat) (r : Req) : List Nat :=
  if op = 0x0A00 ∧ 2 ≤ ceilingOf s r.chan then [0xFFFF, m32, m32] else c.masks

/-- The checks of R359 before a command's own: the first that fails, as (status, detail). -/
def firstCheck (s : State) (op : Nat) (r : Req) : Option (Nat × Nat) :=
  match specNow s op with
  | none => some (stBadOpcode, 0)
  | some c =>
    if r.force && !c.force then some (stBadMessage, 0)
    else if !privOk s c op r then some (stDenied, 0)
    else
      match badArgWord (masksOf s c op r) r with
      | some i => some (stBadArg, i)
      | none => none

/-- The stop lane (R367): PLAN_STOP, JOB_END, FAB_TEARDOWN and FAB_FENCE. -/
def stopLane (op : Nat) : Bool := op == 0x0112 || op == 0x0702 || op == 0x0805 || op == 0x0806
/-- A command of the stop lane has been taken and not yet carried out: it goes ahead of a command that is not of the lane (R367). -/
def stopWaits (s : State) (op : Nat) : Bool :=
  !stopLane op && s.mp.journal.any (fun e => stopLane e.op && e.stage == 0 && e.ticket.isNone)
/-- The ticket under which a request is carried out afresh (R366). -/
def redoTicket (op : Nat) (r : Req) (s : State) : Option Nat :=
  (s.mp.journal.find? (fun e => e.op == op && e.req == r && e.redo && decide (e.stage < 2))).bind (·.ticket)
/-- The processor carries out a command now: it runs, it has waited after a takeover (R366), and nothing of the stop lane is ahead. -/
def cmdTurn (s : State) (op : Nat) : Bool := s.mp.running && s.mp.takeoverAt.isNone && !stopWaits s op
/-- A request finds a place in the journal, or has one. -/
def journalHas (op : Nat) (r : Req) (s : State) : Bool := journalOpen s || s.mp.journal.any (isEntry op r)

/-- A command answered: COMMITTED with its result words, and ANSWERED once the answer stands in M2H or has been sent (R359, R363). -/
def closeCmd (op : Nat) (r : Req) (status detail : Nat) (ws : List Word32) (payload : List Byte) (s : State) : State :=
  let waits := r.chan == .pcie && s.hp.m2hFull
  journalSet op r (fun e => { e with stage := if waits then 2 else 3, status := status, detail := detailOf s detail, words := ws })
    (answerPl op r status detail 0 ws payload s)

/-- The outcome of a command carried out afresh, under its ticket (R366). -/
def redoCmd (t : Nat) (o : CmdOut) (s : State) : State :=
  let s0 (s : State) : State := { s with mp := { s.mp with journal := s.mp.journal.map (fun e => if e.ticket = some t then { e with redo := false } else e) } }
  match o with
  | .bad st d => finishTicket t st d [] (s0 s)
  | .deny s' st d => finishTicket t st d [] (s0 s')
  | .ok s' ws => finishTicket t stOK 0 ws (s0 s')
  | .okWith s' ws _ => finishTicket t stOK 0 ws (s0 s')
  | .fail s' st d => finishTicket t st d [] (s0 s')
  | .later s' => s0 s'

/-- The refusals that come before STATE and BUSY (R359). -/
def early (st : Nat) : Bool := st == stBadArg || st == stAbsent
/-- A command that cannot be taken now: answered with its own BAD_ARG or ABSENT, or else with `st`. -/
def turnAway (o : CmdOut) (st : Nat) : Nat × Nat :=
  match o with
  | .bad x d => if early x then (x, d) else (st, 0)
  | .deny _ x d => if early x then (x, d) else (st, 0)
  | _ => (st, 0)

/-- A command carried out whole: checked, applied, and answered once (R359, R360, R363, R364; log 17). `body` is given the ticket that the command would
take. -/
def runCmd (op : Nat) (r : Req) (body : State → Nat → CmdOut) (s : State) : State :=
  if !cmdTurn s op then s else
  match redoTicket op r s with
  | some t => redoCmd t (body s t) s
  | none =>
  match firstCheck s op r with
  | some (st, d) => if journalHas op r s then closeCmd op r st d [] [] (journalTake op r s) else answer op r st d 0 [] s
  | none =>
  if !journalHas op r s then (let x := turnAway (body s 0) stBusy; answer op r x.1 x.2 0 [] s) else
  if gateState s op r then (let x := turnAway (body s 0) stState; closeCmd op r x.1 x.2 [] [] (journalTake op r s)) else
    let s := beginCmd op r s
    let e := s.mp.journal.find? (isEntry op r)
    if ((specNow s op).map (·.waits)).getD false then
      match freeTicket s with
      | none => (let x := turnAway (body s 0) stBusy; closeCmd op r x.1 x.2 [] [] (endSites e false s))
      | some t =>
        match body (issueTicket op t (journalSet op r (fun e => { e with ticket := some t }) s)) t with
        | .bad st d => closeCmd op r st d [] [] (endSites e false s)
        | .deny s' st d => closeCmd op r st d [] [] (endSites e false (dropTicket t s'))
        | .ok s' ws => finishTicket t stOK 0 ws (answer op r stAccepted 0 t [] (endSites e true s'))
        | .okWith s' ws _ => finishTicket t stOK 0 ws (answer op r stAccepted 0 t [] (endSites e true s'))
        | .fail s' st d => finishTicket t st d [] (answer op r stAccepted 0 t [] (endSites e true s'))
        | .later s' => answer op r stAccepted 0 t [] (endSites e true s')
    else
      match body s 0 with
      | .bad st d => closeCmd op r st d [] [] (endSites e false s)
      | .deny s' st d => closeCmd op r st d [] [] (endSites e false s')
      | .ok s' ws => closeCmd op r stOK 0 ws [] (endSites e true s')
      | .okWith s' ws pl => closeCmd op r stOK 0 ws pl (endSites e true s')
      | .fail s' st d => closeCmd op r st d [] [] (endSites e true s')
      | .later s' => closeCmd op r stOK 0 [] [] (endSites e true s')

end Sys2Proof.Machine
end

