-- ==== Sys2Proof/Machine/Pho.lean ====
section
/-! DEFINITION. Pho.lean: the photonic layer's operations: bundles and their places, channels, the claims on λ16, bundle states, interpolation
and mislocks (spec/05 R139 to R168). -/
namespace Sys2Proof.Machine

/-- The bundles that a comb feeds. -/
def combBundles (part t c : Nat) : List Nat := (List.range 452).filter (fun b => bTile b == t && bComb b == c && bundleOn part b)

/-! ## State -/

def setPho (p : Pho) (s : State) : State := { s with pho := p }
def bundleOf (s : State) (b : Nat) : Bundle := mget s.pho.bundles {} b
def setBundle (b : Nat) (x : Bundle) (s : State) : State := setPho { s.pho with bundles := mset s.pho.bundles b x } s
def entOf (s : State) (b l : Nat) : CalEnt := mget s.pho.ents {} (b * 32 + l)
/-- The instance of a channel's counters, and of its status command (spec/16 R447). -/
def chInst (b l : Nat) : Nat := b + l * 2 ^ 16
def combOfTile (s : State) (t c : Nat) : Comb := mget s.pho.combs {} (t * 32 + c)
def setComb05 (t c : Nat) (x : Comb) (s : State) : State := setPho { s.pho with combs := mset s.pho.combs (t * 32 + c) x } s
/-- The comb of a bundle is CASTLING. -/
def castling (s : State) (b : Nat) : Bool := (combOfTile s (bTile b) (bComb b)).cast.isSome
/-- An event of the tile controller that transmits a bundle. -/
def emitTile (t code : Nat) (args : List Nat) (s : State) : State := emit (siteLT t) code args s

/-! ## Interpolation (R158) -/

/-- `n / d` to nearest, ties to even. -/
def halfEven (n : Int) (d : Nat) : Int :=
  let q := n / (d : Int)
  let r := n % (d : Int)
  if 2 * r < d then q else if (d : Int) < 2 * r then q + 1 else if q % 2 = 0 then q else q + 1

/-- The segment of a temperature in 1/16 °C. -/
def segOf (t : Int) : Nat := (clampI 0 3 ((t - 400) / 320)).toNat

/-- A value interpolated at a temperature, on the scale 0 to `mx`. -/
def interp (p : List Nat) (mx : Nat) (t : Int) : Nat :=
  let t := if 1680 < t then 1680 else t
  let i := segOf t
  let a : Int := p.getD i 0
  let b : Int := p.getD (i + 1) 0
  (clampI 0 mx (halfEven (a * 320 + (b - a) * (t - (400 + 320 * (i : Int)))) 320)).toNat

def ptTx (e : CalEnt) : List Nat := e.pts.map (·.1)
def ptRx (e : CalEnt) : List Nat := e.pts.map (·.2.1)
def ptBias (e : CalEnt) : List Nat := e.pts.map (·.2.2.1)
def ptSet (e : CalEnt) : List Nat := e.pts.map (·.2.2.2)

/-! ## Ring temperatures (R149) and channels -/

/-- The tile of a ring: a modulator's transmits its bundle, and a filter's stands under the endpoint that receives it. -/
def ringTile (b ring : Nat) : Nat :=
  if ring = 0 then bTile b else if bDst b < 12 then bDst b / 3 else if bDst b = 12 then 4 else bDst b - 16

/-- The reading of the nearest sensor of a list that works; 25 °C before any has been read (log 51). -/
def nearTemp (broken : List Nat) (temps : List (Option Int)) (near : List Nat) : Int :=
  (near.findSome? (fun i => if broken.contains i then none else temps.getD i none)).getD 400

/-- The sensors of a ring's tile, nearest first. -/
def sensorsBy (b l ring : Nat) : List Nat := Config.ringNear b l ring ++ List.range 32

/-- A ring's temperature in 1/16 °C, as sampled in its tile's last housekeeping round (R149). -/
def ringTemp (s : State) (b l ring : Nat) : Int :=
  let t := ringTile b ring
  nearTemp (mget s.pwr.therm {} (siteLT t)).broken (mget s.pwr.tileTemps [] t) (sensorsBy b l ring)

/-- Its temperature when the heaters were first set (R178). -/
def startTemp (s : State) (b l ring : Nat) : Int :=
  let t := ringTile b ring
  nearTemp (mget s.pwr.therm {} (siteLT t)).broken (mget s.pho.temps0 [] t) (sensorsBy b l ring)

/-- The interpolated code of a ring (R158). -/
def ringCode (s : State) (b l ring : Nat) : Nat :=
  interp (if ring = 0 then ptTx (entOf s b l) else ptRx (entOf s b l)) 4095 (ringTemp s b l ring)

/-- A channel that nothing has moved: DARK, or in its place on a lit bundle with its heaters at the codes interpolated at start-up (R178). -/
def chStart (s : State) (b l : Nat) : Ch :=
  let e := entOf s b l
  let tt := startTemp s b l 0
  let rt := startTemp s b l 1
  if (bundleOf s b).lit then
    { st := if l = 16 then 3 else 2, lane := l, tx := interp (ptTx e) 4095 tt, rx := interp (ptRx e) 4095 rt
      bias := interp (ptBias e) 1023 tt, setpt := interp (ptSet e) 255 tt, txTemp := tt, rxTemp := rt
      txLoop := { st := 0 }, rxLoop := { st := 0 } }
  else {}
def chOf (s : State) (b l : Nat) : Ch := mget s.pho.chans (chStart s b l) (b * 32 + l)
def setCh (b l : Nat) (c : Ch) (s : State) : State := setPho { s.pho with chans := mset s.pho.chans (b * 32 + l) c } s
def modCh (b l : Nat) (f : Ch → Ch) (s : State) : State := setCh b l (f (chOf s b l)) s

/-- The lane that a channel carries now, encoded as in R150: its own, the one λ16 carries for another, or none (16). -/
def laneNow (s : State) (b l : Nat) : Nat :=
  let c := chOf s b l
  if l = 16 then (if c.st = 4 then c.lane else 16) else if c.st = 2 then l else 16

/-! ## Lanes and bundle states (R141, R154) -/

/-- A data lane, or the service stream (17), has a channel. -/
def laneUp (s : State) (b n : Nat) : Bool :=
  (chOf s b n).st == 2 || ((chOf s b 16).st == 4 && (chOf s b 16).lane == n)
/-- Data lanes in service. -/
def dataLanes (s : State) (b : Nat) : Nat := ((List.range 16).filter (laneUp s b)).length

/-- The state of a bundle that carries `n` data lanes: λ16 held permanently or retired leaves NO_SPARE. A bundle without a data lane
is FAILED once no lane of it can recover. With 16 data lanes the model counts λ16 held for a channel that may yet return as FULL, and a dark λ16 as
NO_SPARE (DESIGN CHOICE, log 51). -/
def bundleSt (s : State) (b n : Nat) : Nat :=
  let x := bundleOf s b
  if !x.lit then 4
  else if n = 0 then
    if x.st = 4 ∨ (List.range 17).all (fun l => (chOf s b l).st == 9 || (chOf s b l).st == 0) then 4 else 3
  else if n < 16 then 2
  else
    let kept := match x.holder with
      | some (r, l) => decide (r ≤ 2) && (chOf s b l).st == 9
      | none => false
    if kept || (chOf s b 16).st == 9 || (chOf s b 16).st == 0 then 1 else 0

/-- A bundle's state follows its channels, with its events (R154). -/
def bundleEval (b : Nat) (s : State) : State :=
  let x := bundleOf s b
  let n := dataLanes s b
  let lost := !laneUp s b 17
  let st := bundleSt s b n
  let s1 := setBundle b { x with lanes := n, serviceLost := lost, upAt := if x.serviceLost && !lost then s.now else x.upAt, st := st } s
  let ev (code : Nat) (s : State) : State := emitTile (bTile b) code [b, n, b2n lost] s
  let s1 := if st = 3 ∧ x.st ≠ 3 then ev Ev.bundleDown s1 else s1
  let s1 := if st = 4 ∧ x.st ≠ 4 then ev Ev.bundleFailed s1 else s1
  let s1 := if st < 3 ∧ 3 ≤ x.st then ev Ev.bundleUp s1 else s1
  if n < 16 ∧ n ≠ x.lanes ∧ st = 2 then ev Ev.bundleReduced s1 else s1

/-! ## Claims on λ16 (R153) -/

/-- The rank of a channel's claim. -/
def claimRank (st l : Nat) : Nat := if st = 5 then 4 else if l = 17 then 1 else if st = 8 then 3 else 2

/-- The claim that goes first: lowest rank, then lower λ. -/
def firstClaim (l : List (Nat × Nat)) : Option (Nat × Nat) :=
  l.foldl (fun m x => match m with
    | none => some x
    | some y => if x.1 * 32 + x.2 < y.1 * 32 + y.2 then some x else some y) none

/-- λ16 handed to a claim. -/
def giveL16 (b : Nat) (k : Nat × Nat) (s : State) : State :=
  let x := bundleOf s b
  modCh b 16 (fun c => { c with st := 4, lane := k.2 })
    (setBundle b { x with holder := some k, waiting := x.waiting.filter (fun y => y != k) } s)

/-- A calibration run abandoned: the channel returns with its previous values and stays due (R160). -/
def abandonRun (b l : Nat) (s : State) : State :=
  let c := chOf s b l
  if c.st ≠ 5 then s
  else noteTests (testsChannel b l) (fun t => { t with preempted := true })
    (setCh b l { c with st := if l = 16 then 3 else 2, run := false, measured := false, txLoop := { st := 0 }, rxLoop := { st := 0 } } s)

/-- λ16 goes to the first claim that may have it; a claim of higher rank takes it from a lower one. -/
def grantL16 (b : Nat) (s : State) : State :=
  let x := bundleOf s b
  match firstClaim x.waiting with
  | none => s
  | some k =>
    match x.holder with
    | none => if (chOf s b 16).st = 3 then giveL16 b k s else s
    | some h =>
      if k.1 < h.1 then
        let s := bump 0x4003 (chInst b h.2) 1 s
        if 3 ≤ h.1 then giveL16 b k (abandonRun b h.2 s)
        else giveL16 b k (setBundle b { x with waiting := x.waiting ++ [h] } s)
      else s

/-- A channel no longer needs λ16: it returns to SPARE and serves the next claim. -/
def releaseL16 (b l : Nat) (s : State) : State :=
  let x := bundleOf s b
  if x.holder.any (fun h => h.2 == l) then
    let s := setBundle b { x with holder := none } s
    grantL16 b (if (chOf s b 16).st = 4 then modCh b 16 (fun c => { c with st := 3, lane := 16 }) s else s)
  else setBundle b { x with waiting := x.waiting.filter (fun y => y.2 != l) } s

/-- The line that castling moves next: λ0 to λ15, then λ17 (R172). -/
def castLine (n : Nat) : Nat := if n = 16 then 17 else n

/-- The lanes of the line in progress return, make-before-break where they rode λ16: its switch has been verified, or it goes back to the old comb
(R172, R173). -/
def castReturn (t c : Nat) (s : State) : State :=
  let x := combOfTile s t c
  match x.cast with
  | none => s
  | some k =>
    if !k.line then s
    else
      let l := castLine k.moved
      (combBundles s.pkg.part t c).foldl (fun s b =>
        if (chOf s b l).st ≠ 8 then s
        else bundleEval b (releaseL16 b l (modCh b l (fun h => { h with st := 2, txLoop := { st := 0 }, rxLoop := { st := 0 } }) s)))
        (setComb05 t c { x with cast := some { k with line := false } } s)

/-- A claim on λ16. One of rank 1 or 2, of a channel that castling has not taken, pauses castling at the line in progress (R173). -/
def claimL16 (b rank l : Nat) (s : State) : State :=
  let s := if rank ≤ 2 ∧ (chOf s b l).st ≠ 8 then castReturn (bTile b) (bComb b) s else s
  let x := bundleOf s b
  if x.holder.any (fun h => h.2 == l) then
    grantL16 b (setBundle b { x with holder := some (rank, l) } s)
  else
    grantL16 b (setBundle b { x with waiting := x.waiting.filter (fun y => y.2 != l) ++ [(rank, l)] } s)

/-- λ16 stops serving: its holder waits again, and loses its lane (R168). -/
def dropL16 (b : Nat) (s : State) : State :=
  let x := bundleOf s b
  match x.holder with
  | none => s
  | some h =>
    let s := setBundle b { x with holder := none, waiting := if h.1 = 4 then x.waiting else x.waiting ++ [h] } s
    if h.1 = 4 then abandonRun b h.2 s else s

/-! ## Mislock (R166 to R168) -/

/-- The rings of a channel taken as mislocked: those whose code differs by more than half their grid space from the interpolated code, or
both where neither does (R167). -/
def mislockRings (s : State) (b l : Nat) : Nat :=
  let c := chOf s b l
  let e := entOf s b l
  let far (a v spc : Nat) : Bool := decide (spc < 2 * (if a < v then v - a else a - v))
  let m := b2n (far c.tx (ringCode s b l 0) e.txSpc) + 2 * b2n (far c.rx (ringCode s b l 1) e.rxSpc)
  if m = 0 then 3 else m

/-- Steps 2 to 4 of R167 as an attempt begins: the mislocked rings go HELD and move to their interpolated codes, the channel sweeps, and immediate
training frames are asked for. -/
def sweepCh (b l : Nat) (s : State) : State :=
  let m := mislockRings s b l
  let s := modCh b l (fun c =>
    let c := if bitN m 0 then { c with tx := ringCode s b l 0, txLoop := { st := 3 } } else c
    let c := if bitN m 1 then { c with rx := ringCode s b l 1, rxLoop := { st := 3 } } else c
    { c with st := 7, rings := m, mism := 0, good := 0, run := false, measured := false }) s
  send (.link b 6 [l]) (bundleEval b s)

/-- A channel is mislocked: step 1 of R167 and what follows at once. -/
def mislock (b l : Nat) (s : State) : State :=
  let c := chOf s b l
  if c.st = 9 ∨ c.st = 7 ∨ c.st = 0 then s
  else
    let rings := mislockRings s b l
    let s := setCh b l { c with st := 6, attempts := 0, run := false, measured := false } s
    let s := if l = 16 then dropL16 b s else claimL16 b (claimRank 6 l) l s
    sweepCh b l (emitTile (bTile b) Ev.mislock [b, l, rings, 0] s)

/-! ## Usable bundles and relays (R155; spec/06 R195, R206) -/

def linkOf (s : State) (k : Nat) : Link := mget s.xpt.links {} k
def portSide (s : State) (port side : Nat) : PortSide := mget s.xpt.ports {} (port * 2 + side)
/-- The port that carries a port's bundles: itself, or the neighbour that has adopted them. -/
def carrier (s : State) (port : Nat) : Option Nat :=
  if (portSide s port 0).state ≠ 3 then some port
  else ((List.range 12).map (fun q => port / 12 * 12 + q)).find? (fun p => (portSide s p 0).adopted == some (port % 12))

/-- A bundle can be used: present, neither DOWN nor FAILED, its link not stuck, its ports carried. -/
def bundleUsable (s : State) (b : Nat) : Bool :=
  bundleOn s.pkg.part b && decide ((bundleOf s b).st < 3) && !(linkOf s (b * 2)).stuck && (bPorts b).all (fun p => (carrier s p).isSome)

/-- Some bundle joins two endpoints. -/
def joined (s : State) (x y : Nat) : Bool := (bundlesTo x y).any (bundleUsable s)

/-- The relay of a source and a destination (R155): the hub, else the lowest-numbered KC die. A fenced endpoint is none (spec/06 R197; DEDUCED, log 49). -/
def relayOf (s : State) (x y : Nat) : Option Nat :=
  (12 :: List.range (stacksOf s.pkg.part)).find? (fun r => r != x && r != y && !epFenced s r && joined s x r && joined s r y)

/-- Traffic from one endpoint reaches another. -/
def reachesEp (s : State) (x y : Nat) : Bool := joined s x y || (relayOf s x y).isSome

end Sys2Proof.Machine
end

