-- ==== Sys2Proof/Machine/Rs.lean ====
section
/-! DEFINITION. Rs.lean: the Reed-Solomon code of a flit over GF(2^10) (spec/06 R184). Symbol i of the message is the coefficient of the i-th
highest power, and the check symbols follow (log 21). -/
namespace Sys2Proof.Machine.Rs

/-- Times α, modulo x^10 + x^3 + 1. -/
def xtime (a : Nat) : Nat := if 512 ≤ a then (2 * a - 1024) ^^^ 9 else 2 * a
/-- Times α^n. -/
def xtimes (n a : Nat) : Nat :=
  match n with
  | 0 => a
  | n + 1 => xtimes n (xtime a)
/-- The product, bit by bit of `b` from the lowest (`n` bits). -/
def mulN (n a b : Nat) : Nat :=
  match n with
  | 0 => 0
  | n + 1 => (if b % 2 = 1 then a else 0) ^^^ mulN n (xtime a) (b / 2)
def mul (a b : Nat) : Nat := mulN 10 a b
/-- a^(2^10 - 2): nine squarings. -/
def invN (n a acc : Nat) : Nat :=
  match n with
  | 0 => acc
  | n + 1 => invN n (mul a a) (mul acc (mul a a))
def inv (a : Nat) : Nat := invN 9 a 1
def div (a b : Nat) : Nat := mul a (inv b)

/-- The 205 symbols of a flit: 2,008 message bits and two zero bits, then the check symbols of bytes 251 to 255. -/
def symbols (bs : List Byte) : List Nat :=
  let m := leNat (bs.take 251)
  let c := leNat ((bs.drop 251).take 5)
  (List.range 201).map (fun i => m / 2 ^ (10 * i) % 1024) ++ (List.range 4).map (fun i => c / 2 ^ (10 * i) % 1024)

/-- The syndrome at α^j. -/
def syndrome (j : Nat) (c : List Nat) : Nat := c.foldl (fun a x => xtimes j a ^^^ x) 0

/-- Powers of α from α^0. -/
def powers (n a : Nat) : List Nat :=
  match n with
  | 0 => []
  | n + 1 => a :: powers n (xtime a)

/-- The errors, as exponent and value; none where more than two symbols are in error. -/
def errors (c : List Nat) : Option (List (Nat × Nat)) :=
  let s0 := syndrome 0 c
  let s1 := syndrome 1 c
  let s2 := syndrome 2 c
  let s3 := syndrome 3 c
  let ps := (powers 205 1).zipIdx
  if s0 = 0 ∧ s1 = 0 ∧ s2 = 0 ∧ s3 = 0 then some []
  else
    let d := mul s0 s2 ^^^ mul s1 s1
    if d = 0 then
      if s0 = 0 then none
      else
        let x := div s1 s0
        if mul s1 x = s2 ∧ mul s2 x = s3 then (ps.find? (fun p => p.1 == x)).map (fun p => [(p.2, s0)]) else none
    else
      let a := div (mul s0 s3 ^^^ mul s1 s2) d
      let b := div (mul s1 s3 ^^^ mul s2 s2) d
      match ps.filter (fun p => mul p.1 p.1 ^^^ mul a p.1 ^^^ b == 0) with
      | [p, q] =>
        let y := div (s1 ^^^ mul p.1 s0) (p.1 ^^^ q.1)
        if y = 0 ∨ s0 ^^^ y = 0 then none else some [(p.2, s0 ^^^ y), (q.2, y)]
      | _ => none

/-- One symbol into the encoder's division by (x + 1)(x + α)(x + α^2)(x + α^3); the remainder stands highest power first. -/
def encStep (g r : List Nat) (x : Nat) : List Nat :=
  let f := r.headD 0 ^^^ x
  (r.tail ++ [0]).zipWith (fun a c => a ^^^ mul f c) g
/-- The generator's coefficients below the highest, from that of x^3 to that of x^0. -/
def generator : List Nat :=
  -- each root α^j takes a polynomial p, given lowest power first, to x p + α^j p
  let p := (List.range 4).foldl (fun p j => (0 :: p).zipWith (· ^^^ ·) ((p.map (xtimes j)) ++ [0])) [1]
  (p.take 4).reverse
/-- The 5 bytes of the check symbols of bytes 0 to 250 (R184). -/
def checkBytes (bs : List Byte) : List Byte :=
  let m := leNat bs
  let r := ((List.range 201).map (fun i => m / 2 ^ (10 * i) % 1024)).foldl (encStep generator) [0, 0, 0, 0]
  leBytes 5 (r.zipIdx.foldl (fun a q => a + q.1 * 2 ^ (10 * q.2)) 0)

/-- A flit decoded: its bytes 0 to 250, and whether a symbol was corrected. A correction that falls into the two implicit zero bits leaves no codeword of the message, and
the flit is errored (DESIGN CHOICE, log 49: R184 does not speak of it). -/
def decode (bs : List Byte) : Option (List Byte × Bool) :=
  match errors (symbols bs) with
  | none => none
  | some [] => some (bs.take 251, false)
  | some es =>
    let m := es.foldl (fun m (e : Nat × Nat) => if e.1 < 4 then m else m ^^^ (e.2 * 2 ^ (10 * (204 - e.1)))) (leNat (bs.take 251))
    if 2 ^ 2008 ≤ m then none else some (leBytes 251 m, true)

end Sys2Proof.Machine.Rs
end

