-- ==== Sys2Proof/Machine/Xpt.lean ====
section
/-! DEFINITION. Xpt.lean: packets in their flits, links, credits, arbitration, the choice of a bundle, and retry (spec/06 R183 to R197). -/
namespace Sys2Proof.Machine

def setXpt (x : Xpt) (s : State) : State := { s with xpt := x }
def setLink (k : Nat) (l : Link) (s : State) : State := setXpt { s.xpt with links := mset s.xpt.links k l } s
def setSide (port side : Nat) (p : PortSide) (s : State) : State := setXpt { s.xpt with ports := mset s.xpt.ports (port * 2 + side) p } s
/-- The key of a bundle's link, or of its service stream. -/
def linkKey (b : Nat) (svc : Bool) : Nat := b * 2 + b2n svc
/-- The link of the reverse bundle (R194). -/
def mate (k : Nat) : Nat := linkKey (reverseBundle (k / 2)) (k % 2 == 1)

/-! ## Packets and flits (R183 to R188) -/

/-- Flits of a packet (R187). -/
def flitsOf (len : Nat) : Nat := 1 + ceilDiv (len - 192) 240

/-- `n` bytes, filled with zeros. -/
def padTo (n : Nat) (bs : List Byte) : List Byte := (bs ++ List.replicate (n - bs.length) 0).take n

/-- The transaction header (R188). -/
def pktHeader (p : OPkt) : List Byte :=
  leBytes 1 p.op ++ leBytes 1 p.flags ++ leBytes 1 p.dst ++ leBytes 1 p.final ++ leBytes 2 p.dmask ++ leBytes 1 p.src ++ leBytes 1 p.part
    ++ leBytes 2 p.tag ++ leBytes 2 p.len ++ leBytes 4 0 ++ leBytes 8 p.addr ++ leBytes 8 p.poison ++ leBytes 8 p.arg ++ leBytes 8 0

/-- The BODYs of a packet's flits: the header with 192 bytes of payload, then 240 bytes each (R183, R187). -/
def pktBodies (p : OPkt) : List (List Byte) :=
  padTo 240 (pktHeader p ++ p.payload.take 192)
    :: (List.range (flitsOf p.len - 1)).map (fun i => padTo 240 ((p.payload.drop (192 + 240 * i)).take 240))

/-- The flits of a packet. -/
def pktFlits (p : OPkt) : List Flit := (pktBodies p).zipIdx.map (fun q => { vc := p.vc, head := q.2 == 0, body := q.1 })

/-- The packet that the BODYs of `n` flits of a channel make up (R187, R188). -/
def pktOfBodies (vc : Nat) (bodies : List (List Byte)) : OPkt :=
  let h := bodies.headD []
  let f (o n : Nat) : Nat := fieldAt h o n
  { op := f 0 1, flags := f 1 1, dst := f 2 1, final := f 3 1, dmask := f 4 2, src := f 6 1, part := f 7 1, tag := f 8 2, len := f 10 2
    addr := f 16 8, poison := f 24 8, arg := f 32 8, reserved := f 12 4 + f 40 8
    payload := (h.drop 48 ++ bodies.tail.flatten).take (f 10 2), vc := vc, flits := bodies.length }

/-- The 256 bytes of a flit (R183 to R185): LINK with MARK 1, BODY, the CRC, and the check symbols. -/
def flitBytes (seq ack ackk vc kind cvc ccnt shcnt : Nat) (body : List Byte) : List Byte :=
  let link := shcnt % 256 + 2 ^ 8 + ccnt % 256 * 2 ^ 13 + cvc % 8 * 2 ^ 21 + kind % 8 * 2 ^ 24 + vc % 8 * 2 ^ 27 + ackk % 4 * 2 ^ 30 + ack % 4096 * 2 ^ 32
    + seq % 4096 * 2 ^ 44
  let m := leBytes 7 link ++ padTo 240 body
  let m := m ++ leBytes 4 (crc32 m).toNat
  m ++ Rs.checkBytes m

/-- A flit put on a link: with the ACK of the reverse link's receiver, and the counts of the channel that comes next in rotation (R185, R192). The
bits of a VC7 flit wait for the frames of the service stream (R196). -/
def putWire (k kind vc seq ackk : Nat) (body : List Byte) (s : State) : State :=
  let r := linkOf s (mate k)
  let c := r.due.headD r.lastC
  let f := flitBytes seq ((r.expect + 4095) % 4096) ackk vc kind c (mget r.freed 0 c) r.freedSh body
  let s := setLink (mate k) { r with due := r.due.tail, lastC := c } s
  let l := linkOf s k
  setLink k (if k % 2 = 0 then { l with wire := f :: l.wire }
    else { l with wire := f :: l.wire, vcBits := l.vcBits + leNat f * 2 ^ l.vcLen, vcLen := l.vcLen + 2048 }) s

/-- A CTRL flit, whose BODY is 0, in place of an idle one (R186). -/
def sendCtrl (k ackk : Nat) (s : State) : State := putWire k 1 0 0 ackk [] s

/-! ## Credits and arbitration (R191 to R193) -/

/-- Reserved buffers of a virtual channel. -/
def reservedOf (vc : Nat) : Nat := if vc = 7 then 8 else 16
/-- A credit for a flit of a channel: one of its own buffers, else one of the shared pool. -/
def hasCredit (l : Link) (vc : Nat) : Bool := decide (mget l.used 0 vc < reservedOf vc) || (vc != 7 && decide (l.shared < 128))
/-- The credit taken. -/
def takeCredit (l : Link) (vc : Nat) : Link :=
  if mget l.used 0 vc < reservedOf vc then { l with used := mmod l.used 0 vc (· + 1) } else { l with shared := l.shared + 1 }
/-- A flit of a channel waits, with credit for it. -/
def canSend (l : Link) (vc : Nat) : Bool := l.waiting.any (fun f => f.vc == vc) && hasCredit l vc
/-- The channel of a class after the one granted last that can send. -/
def inTurn (lo n last : Nat) (ok : Nat → Bool) : Option Nat := ((List.range n).map (fun i => lo + (last - lo + 1 + i) % n)).find? ok
/-- A BULK channel that has waited with credit for 4 slots, the longest first: with four such channels each is granted one slot in 8 (R193). -/
def overdue (l : Link) : Option Nat :=
  ([2, 3, 4, 5].filter (fun v => canSend l v && decide (4 ≤ mget l.since 0 v))).foldl (fun m v => match m with
    | none => some v
    | some u => if mget l.since 0 u < mget l.since 0 v then some v else some u) none
/-- The channel that the transmitter serves next: VC6, then VC0 and VC1, then VC2 to VC5; each BULK channel with credit at least one slot in 8. -/
def nextVc (l : Link) : Option Nat :=
  let ok := canSend l
  if ok 7 then some 7
  else if (overdue l).isSome then overdue l
  else if ok 6 then some 6
  else (inTurn 0 2 l.lastO ok).or (inTurn 2 4 l.lastB ok)
/-- The retry buffer's size (R194, R196). -/
def retrySize (k : Nat) : Nat := if k % 2 = 1 then 16 else 256

/-- A slot granted to a channel: the slots for which each BULK channel has waited. -/
def waitedSlots (l : Link) (v : Nat) : Map Nat :=
  [2, 3, 4, 5].foldl (fun m u => mset m u (if u = v ∨ canSend l u = false then 0 else mget l.since 0 u + 1)) l.since

/-- The first flit of a channel among those that wait, and the rest. -/
def takeFirst (v : Nat) (l : List Flit) : Option (Flit × List Flit) :=
  match l with
  | [] => none
  | f :: r => if f.vc = v then some (f, r) else (takeFirst v r).map (fun q => (q.1, f :: q.2))

/-- A bundle's ports are ACTIVE on both sides (R204). -/
def portsReady (s : State) (b : Nat) : Bool :=
  (bPorts b).all (fun p => match carrier s p with
    | none => false
    | some q => (portSide s q 0).state == 2 && (portSide s q 1).state == 2)

/-- A data link whose ports do not carry flits now (R204); VC7 passes on the sideband. -/
def linkHeld (s : State) (k : Nat) : Bool := k % 2 == 0 && !portsReady s (k / 2)
/-- KIND of a HEAD and of a BODY flit (R185). -/
def kindOf (head : Bool) : Nat := if head then 2 else 3

/-- HEAD and BODY flits sent while there is room, credit and an ACTIVE port (at most `fuel`). -/
def pump (fuel k : Nat) (s : State) : State :=
  match fuel with
  | 0 => s
  | fuel + 1 =>
    let l := linkOf s k
    if retrySize k ≤ l.retry.length ∨ linkHeld s k = true then s
    else
      match (nextVc l).bind (fun v => takeFirst v l.waiting) with
      | none => s
      | some (f, rest) =>
        let v := f.vc
        let m := takeCredit l v
        let m := { m with retry := m.retry ++ [{ seq := l.next, vc := v, head := f.head, body := f.body, sh := decide (reservedOf v ≤ mget l.used 0 v) }], next := (m.next + 1) % 4096, waiting := rest
                          lastO := if v < 2 then v else m.lastO, lastB := if 2 ≤ v ∧ v ≤ 5 then v else m.lastB, since := waitedSlots l v }
        pump fuel k (putWire k (kindOf f.head) v l.next 0 f.body (bump 0x5001 (k / 2) 1 (setLink k m s)))
def pumpAll (k : Nat) (s : State) : State := pump 512 k s

/-- Flits put behind those that wait on a link. -/
def queueFlits (k : Nat) (fs : List Flit) (s : State) : State :=
  let l := linkOf s k
  pumpAll k (setLink k { l with waiting := l.waiting ++ fs } s)

/-! ## The bundle on which a packet leaves (spec/01 R32; R155, R197) -/

/-- The service stream of a bundle is up (spec/05 R154). -/
def svcUsable (s : State) (b : Nat) : Bool := bundleOn s.pkg.part b && (bundleOf s b).lit && !(bundleOf s b).serviceLost
/-- The bundles from one endpoint to another that can carry a packet, or a management message. -/
def bundlesUp (s : State) (svc : Bool) (src dst : Nat) : List Nat :=
  (bundlesTo src dst).filter (fun b => if svc then svcUsable s b else bundleUsable s b)
/-- The TAGs of a cluster's packets that have no answer yet, without the cluster's number in their upper bits (log 49). -/
def clusterTags (s : State) (cl : Nat) : List Nat :=
  (List.range 16).flatMap (fun k => (coreAt s (cl * 16 + k)).hmx.flatMap (fun x => x.reqs.map (fun q => q.tag % 8192)))
/-- The lowest `n` numbers below 8,192 that are not in use. -/
def freeTags (used : List Nat) (n : Nat) : List Nat :=
  (((List.range (used.length + n)).filter (fun t => !used.contains t)).take n).filter (fun t => decide (t < 8192))
/-- The die and the cluster at whose nearest port a packet leaves or comes in: the request of an HMX, or the answer to one. -/
def clusterEnd (p : OPkt) (src dst : Nat) : Option (Nat × Nat) :=
  if (p.op = 1 ∨ p.op = 2) ∧ p.src < 12 ∧ src = p.src then some (src, p.tag / 8192 % 8)
  else if (p.op = 3 ∨ p.op = 5) ∧ dst < 12 ∧ 16 ≤ p.src then some (dst, p.tag / 8192 % 8)
  else none
/-- The port of a die by which a bundle is carried. -/
def portOfBundle (s : State) (b die : Nat) : Option Nat := ((portAt b die).bind (carrier s)).map (· % 12)
/-- The key under which the port of a cluster's request is kept. -/
def reqKey (die tag : Nat) : Nat := die * 65536 + tag % 65536
/-- The bundle from an endpoint to another: through the port nearest to the cluster, the answer through the port of its request; the lowest where no cluster
sends (R32). -/
def bundleFor (s : State) (svc : Bool) (p : OPkt) (src dst : Nat) : Option Nat :=
  let l := bundlesUp s svc src dst
  match clusterEnd p src dst with
  | none => l.head?
  | some (die, cl) =>
    let ports := l.filterMap (fun b => (portOfBundle s b die).map (fun q => (b, q)))
    let back := if src = die then none else mfind s.xpt.reqPort (reqKey die p.tag)
    (((ports.find? (fun q => back == some q.2)).map (·.1)).or (nearestBundle cl ports)).or l.head?
/-- The port by which a cluster's request leaves is kept for its answer, and forgotten as the answer is sent (R32). -/
def notePort (p : OPkt) (src dst b : Nat) (s : State) : State :=
  match clusterEnd p src dst with
  | none => s
  | some (die, _) =>
    let k := reqKey die p.tag
    setXpt { s.xpt with reqPort := if src = die then (match portOfBundle s b die with
        | none => s.xpt.reqPort
        | some q => mset s.xpt.reqPort k q) else mdel s.xpt.reqPort k } s
/-- The relay of a source and a destination for management messages (R155): both service streams are up. -/
def svcRelay (s : State) (x y : Nat) : Option Nat :=
  (12 :: List.range (stacksOf s.pkg.part)).find? (fun r => r != x && r != y && !epFenced s r && !(bundlesUp s true x r).isEmpty && !(bundlesUp s true r y).isEmpty)

/-- A packet handed to its link, at the endpoint `src`: to the destination, or to a relay with RELAYED set and FINAL naming it (R197). -/
def sendVia (s : State) (p : OPkt) (src : Nat) (relay : Option Nat) : State :=
  let svc := p.vc == 7
  match relay with
  | none => match bundleFor s svc p src p.dst with
    | none => s
    | some b => queueFlits (linkKey b svc) (pktFlits p) (notePort p src p.dst b s)
  | some r => match bundleFor s svc p src r with
    | none => s
    | some b => queueFlits (linkKey b svc) (pktFlits { p with flags := p.flags ||| 2, dst := r, final := p.dst }) (notePort p src r b s)

/-- The path by which an answer returns (R197). -/
def pathKey (ep peer tag : Nat) : Nat := (ep * 32 + peer) * 65536 + tag % 65536

/-- A packet leaves an endpoint (R32, R155, R197): an answer by the relay through which its request came, else directly, else by the relay. -/
def routePkt (p : OPkt) (src : Nat) (s : State) : State :=
  let key := pathKey src p.dst p.tag
  let back := if p.op = 3 ∨ p.op = 5 then mfind s.xpt.paths key else none
  let s := if back.isSome then setXpt { s.xpt with paths := mdel s.xpt.paths key } s else s
  if src = p.dst then s
  else match back with
    | some r => sendVia s p src (some r)
    | none =>
      if (bundleFor s (p.vc == 7) p src p.dst).isSome then sendVia s p src none
      else sendVia s p src (if p.vc = 7 then svcRelay s src p.dst else relayOf s src p.dst)

/-! ## What has been sent is framed -/

/-- The channel of a packet that has been sent: RESPONSE, the channel that the sender named, or that of the FABRIC sub-kind (spec/09
R274). -/
def vcOfOut (op : Nat) (fields : List Nat) : Nat :=
  if op = 3 ∨ op = 5 then 6
  else if op = 7 ∧ fields.length ≠ 8 then
    match fields with
    | 1 :: _ => 1
    | 2 :: l => l.getD 2 2
    | 4 :: l => l.getD 2 2
    | 5 :: _ => 0
    | 6 :: l => if l.getD 2 2 = 2 then 2 else 0
    | _ => 6
  else fields.headD 0

/-- ARG of a FABRIC packet: the sub-kind and its fields (spec/09 R274). -/
def fabArg (fields : List Nat) : Nat :=
  match fields with
  | [1, q, 0] => 1 + q % 16 * 2 ^ 8
  | [1, q, _] => 1 + 2 ^ 12 + q % 32 * 2 ^ 13
  | [8, q, n] => 8 + q % 32 * 2 ^ 8 + n % 256 * 2 ^ 16
  | [6, _, n, _] => 6 + n % 2 ^ 16 * 2 ^ 8
  | k :: _ => k
  | [] => 0

/-- PART of a packet between a die and the hub: the partition of the die's stack. -/
def partOfEps (s : State) (src dst : Nat) : Nat := (partOfStack s (if src < 12 then src else dst)).getD 0xFF

/-- The packet that has been sent (R188). A request names its channel, FLAGS, SRC, PART, ADDR, POISON, ARG and DMASK; an answer its status, POISON
and PART; a BARRIER packet its channel and PART; a FABRIC packet its sub-kind and fields. -/
def pktOfOut (s : State) (op src dst tag : Nat) (fields : List Nat) (pl : List Byte) : OPkt :=
  let f (i : Nat) : Nat := fields.getD i 0
  let p : OPkt := { op := op, flags := 4, dst := dst, final := dst, src := src, part := 0xFF, tag := tag % 65536, payload := pl, len := pl.length
                    vc := vcOfOut op fields, flits := flitsOf pl.length }
  if fields.length = 8 then { p with flags := f 1, src := f 2, part := f 3, addr := f 4, poison := f 5, arg := f 6, dmask := f 7 }
  else if op = 3 ∨ op = 5 then { p with arg := f 0, poison := f 1, part := fields.getD 2 0xFF }
  else if op = 6 then { p with part := f 1 }
  else if op = 7 then
    { p with flags := if f 0 = 2 ∨ f 0 = 4 then 4 * f 4 else 4, part := partOfEps s src dst, arg := fabArg fields, addr := if f 0 = 2 ∨ (4 ≤ f 0 ∧ f 0 ≤ 6) then f 1 else 0
             poison := if f 0 = 2 ∨ f 0 = 4 ∨ f 0 = 7 then f 2 else 0 }
  else p

/-- The body of a time mark (spec/07 R226), and of any other management message, whose layout the spec does not give (log 49). -/
def mgmtPayload (kind term : Nat) (fields : List Nat) : List Byte :=
  let f (i : Nat) : Nat := fields.getD i 0
  if kind = 6 then leBytes 8 (f 0) ++ leBytes 4 (f 1) ++ leBytes 2 (f 2) ++ leBytes 1 (f 3) ++ leBytes 1 0
  else (Config.mgmtBody kind (term :: fields)).take 192

/-- The endpoint of a site. -/
def siteEp (x : Nat) : Nat := if x = siteKH then 12 else if x < 0x40 then x - 0x20 else x - 0x30

/-- What has just been sent is framed: packets on their bundle, management messages on the service stream. A message to the hub names its die first. -/
def frameOut (s : State) (o : Out) : State :=
  match o with
  | .packet op src dst tag fields pl => routePkt (pktOfOut s op src dst tag fields pl) src s
  | .mgmt site kind term fields =>
    let pl := mgmtPayload kind term fields
    let src := if site = siteKH then fields.headD 0 else 12
    routePkt { op := 8, flags := 4, dst := siteEp site, final := siteEp site, src := src, part := 0xFF, payload := pl, len := pl.length, vc := 7
               flits := flitsOf pl.length } src s
  | _ => s

/-- The flits of everything that a command has sent, in the order sent. -/
def linkSettle (a s : State) : State :=
  ((s.out.take (s.out.length - a.out.length)).reverse).foldl frameOut s

/-! ## Service frames (spec/05 R164; R196) -/

/-- A service frame: 128 blocks of the sync pattern and 14 bits of payload, of which the first 32 are the beacon and the rest carry VC7. -/
def serviceFrame (word : BitVec 32) (vc7 : Nat) : List (BitVec 16) :=
  let bits := word.toNat + vc7 % 2 ^ 1760 * 2 ^ 32
  (List.range 128).map (fun i => BitVec.ofNat 16 (2 + bits / 2 ^ (14 * i) % 2 ^ 14 * 4))

/-! ## Acknowledgement, credits and replay (R192, R194, R195) -/

/-- Buffered flits up to a sequence number are covered; a link that was stuck is clear once a flit is accepted. -/
def coverTo (k ack : Nat) (s : State) : State :=
  let l := linkOf s k
  let rest := l.retry.filter (fun f => newer 12 f.seq ack)
  let still := l.stuck && rest.length == l.retry.length
  setLink k { l with retry := rest, stuck := still, relayed := l.relayed && still } s
/-- An ACK. -/
def ackTo (k ack : Nat) (s : State) : State := pumpAll k (coverTo k ack s)

/-- The cumulative counts of freed buffers, of a channel and of the shared pool. -/
def creditTo (k cvc ccnt shcnt : Nat) (s : State) : State :=
  let l := linkOf s k
  let d := (ccnt + 256 - mget l.ccnt 0 cvc) % 256
  let e := (shcnt + 256 - l.shcnt) % 256
  pumpAll k (setLink k { l with used := mmod l.used 0 cvc (· - d), ccnt := mset l.ccnt cvc ccnt, shared := l.shared - e, shcnt := shcnt } s)

/-- A flit for a relay: the HEAD has RELAYED set, and FINAL names the destination (R188, R197). -/
def relayFlit (relay : Nat) (f : Flit) : Flit :=
  let fl := fieldAt f.body 1 1
  { f with body := if !f.head then f.body
      else f.body.take 1 ++ leBytes 1 (fl ||| 2) ++ leBytes 1 relay ++ (if bitN fl 1 then (f.body.drop 3).take 1 else (f.body.drop 2).take 1) ++ f.body.drop 4 }

/-- Buffers of a channel freed: counted, and the counts go back on the reverse bundle (R192). `res` and `sh` of them were in use. -/
def freeBufs (k vc res sh : Nat) (s : State) : State :=
  let l := linkOf s k
  sendCtrl (mate k) 0 (setLink k { l with
    held := mmod l.held 0 vc (· - res), heldSh := l.heldSh - sh, freed := mmod l.freed 0 vc (fun n => (n + res) % 256)
    freedSh := (l.freedSh + sh) % 256, due := addOnce l.due vc } s)

/-- The flits of the packets that a receiver has begun and not finished, from their HEADs. -/
def begunFlits (l : Link) : List Flit := l.asm.flatMap (fun a => a.bodies.zipIdx.map (fun q => { vc := a.vc, head := q.2 == 0, body := q.1 }))
/-- The traffic of a link that its receiver has not taken, in whole packets in their order: what it has begun, what it has not accepted, and what
waits. -/
def untaken (l : Link) : List Flit :=
  begunFlits l ++ (l.retry.filter (fun f => !f.gone && !newer 12 l.expect f.seq)).map (fun f => { vc := f.vc, head := f.head, body := f.body }) ++ l.waiting
/-- Whether a bundle's traffic can go by a relay now: the relay, and the bundle to it. -/
def relayPath (s : State) (b : Nat) : Option (Nat × Nat) :=
  (relayOf s (bSrc b) (bDst b)).bind (fun r => ((bundlesUp s false (bSrc b) r).head?).map (fun c => (r, c)))
/-- The traffic of a link leaves it for the relay path (R195, R206): the receiver gives up the packets that it has begun, and takes no flit of them from this
link. -/
def moveTraffic (k : Nat) (s : State) : State :=
  match relayPath s (k / 2) with
  | none => s
  | some (r, c) =>
    let l := linkOf s k
    let s := l.asm.foldl (fun s a => freeBufs k a.vc a.res a.sh s) s
    let m := linkOf s k
    let m := { m with asm := [], waiting := [], relayed := true, retry := l.retry.map (fun f => { f with gone := f.gone || !newer 12 l.expect f.seq }) }
    queueFlits (linkKey c false) ((untaken l).map (relayFlit r)) (setLink k m s)

/-- The traffic of a stuck link goes over the relay path in its order, once (R195). -/
def handOver (k : Nat) (s : State) : State :=
  let l := linkOf s k
  if !l.stuck || l.relayed || k % 2 == 1 then s else moveTraffic k s

/-- Every buffered flit sent again, in order, where the ports carry flits; one replayed for the sixteenth time makes the link stuck, and the
receiver asks for training frames. -/
def replayAll (k : Nat) (s : State) : State :=
  let l := linkOf s k
  let b := k / 2
  if linkHeld s k then s
  else
    let r := l.retry.map (fun f => { f with tries := f.tries + 1 })
    let hit := r.find? (fun f => decide (16 ≤ f.tries))
    let s := bump 0x5001 b r.length (bump 0x5004 b r.length (setLink k { l with retry := r, stuck := l.stuck || hit.isSome } s))
    let s := r.foldl (fun s f => putWire k (kindOf f.head) f.vc f.seq 0 f.body s) s
    match hit with
    | none => s
    | some f =>
      handOver k (if l.stuck then s else send (.link b 6 []) (emitTile (bTile b) Ev.linkStuck [b, f.seq, f.tries] s))

/-- A NAK that names the last flit accepted: what follows it is replayed before anything new is sent. -/
def nakTo (k ack : Nat) (s : State) : State := pumpAll k (replayAll k (coverTo k ack s))

end Sys2Proof.Machine
end

