-- ==== Sys2Proof/Machine/Arrived.lean ====
section
/-! DEFINITION. Arrived.lean: packets that stand in a receiver's buffers: their order, their answers, and relays (spec/06 R188, R189, R197, R198). -/
namespace Sys2Proof.Machine

/-- The answer to a request (R188, R189): READ_DATA to a READ, COMPLETION to the others. -/
def answerPkt (p : OPkt) (status mask : Nat) (bs : List Byte) (s : State) : State :=
  send (.packet (if p.op = 2 then 3 else 5) p.dst p.src p.tag [status, mask, p.part] bs) s

/-- A rejected packet: counted, and a request answered BAD_WINDOW. -/
def rejectPkt (p : OPkt) (s : State) : State :=
  let s := bump 0x5005 (p.dst % 32) 1 s
  if p.op = 1 ∨ p.op = 2 ∨ p.op = 4 then answerPkt p 6 0 [] s else s

/-- A fenced endpoint. -/
def endFenced (s : State) (e : Nat) : Bool :=
  if e < 12 then epFenced s e else if 16 ≤ e then (mfind s.rel.tileF (e - 16)).isSome else false

/-- An answer in another endpoint's name: the operation has ended FENCED (R197). -/
def answerAs (op ep peer tag part status : Nat) (at_ : Nat) (s : State) : State := send (.packet op at_ peer tag [6, 4, ep, part, 0, 0, status, 0] []) s

/-- A BARRIER packet is lost: the arrival, release or remote post that it carries never comes (R197; spec/08 R256, R258). -/
def loseBarrier (p : OPkt) (s : State) : State :=
  let f (o n : Nat) : Nat := fieldAt p.payload o n
  let sense := bitN (f 2 1) 0
  let y := s.sync
  let gone {A : Type} [DecidableEq A] (l : List A) (ok : A → Bool) : List A := match l.find? ok with
    | none => l
    | some a => l.erase a
  { s with sync := match f 0 1 with
    | 1 => { y with arrivals := gone y.arrivals (fun a => a.level == .package && a.pt == p.part && a.slot == f 1 1 && a.sense == sense
        && (match part s a.pt with
          | none => false
          | some q => (partStacks q)[a.sender]? == some p.src)) }
    | 2 => { y with releases := gone y.releases (fun r => r.level == .die && r.pt == p.part && r.slot == f 1 1 && r.sense == sense && r.unit == p.final) }
    | _ => { y with posts := gone y.posts (fun q => q.src / 128 == p.src && q.target / 128 == p.final && q.sem == f 1 1 && q.n == f 6 2) } }

/-- A packet is lost in a fenced relay: every operation that it carries ends FENCED (R197). A request is answered in its destination's name; an
answer goes on with that status; of put data the die learns it, and the lines travel as poison. HQCREDIT and MGMT packets are no operation. -/
def lostInRelay (p : OPkt) (s : State) : State :=
  match p.op with
  | 1 | 4 => answerAs 5 p.final p.src p.tag p.part 4 p.dst s
  | 2 => answerAs 3 p.final p.src p.tag p.part 4 p.dst s
  | 3 | 5 => answerAs p.op p.src p.final p.tag p.part 4 p.dst s
  | 6 => loseBarrier p s
  | 7 =>
    match p.arg % 256 with
    | 1 => send (.packet 7 p.dst p.src p.tag [6, 4, p.final, p.part, 0, 0, 3, 0] (leBytes 8 4)) s
    | 2 =>
      let s := { s with fab := { s.fab with dies := mmod s.fab.dies {} p.src (fun e =>
        { e with handles := match mfind e.handles p.tag with
            | none => e.handles
            | some h => mset e.handles p.tag { h with localSt := 4 } }) } }
      send (.packet 7 p.dst p.final p.tag [p.vc, p.flags - 2, p.src, p.part, p.addr, 2 ^ ceilDiv p.len 64 - 1, p.arg, 0] p.payload) s
    | 3 => send (.packet 7 p.dst p.final p.tag [6, 4, p.src, p.part, 0, 0, 3, 0] (leBytes 8 4)) s
    | 4 | 5 => answerAs 5 p.final p.src p.tag p.part 4 p.dst s
    | 6 => send (.packet 7 p.dst p.src p.tag [6, 4, p.final, p.part, 0, 0, 7, 0] []) s
    | 7 => send (.packet 7 p.dst p.final p.tag [6, 4, p.src, p.part, 0, 0, 7, 0] []) s
    | _ => s
  | _ => s

/-- The packet for a relay goes on to its final endpoint, with RELAYED clear (R197); a fenced relay loses it. -/
def relayPkt (p : OPkt) (s : State) : State :=
  if endFenced s p.dst then lostInRelay p s
  else send (.packet p.op p.dst p.final p.tag [p.vc, p.flags - 2, p.src, p.part, p.addr, p.poison, p.arg, p.dmask] p.payload) s

/-- Packets of one source to one endpoint on one ORDERED channel act in sending order (R198): of those that have arrived the first one is this. -/
def pktTurn (s : State) (p : OPkt) : Bool :=
  decide (1 < p.vc) || s.xpt.links.all (fun q => match q.2.arrived.find? (fun g => g.pkt.vc == p.vc && g.pkt.src == p.src && g.pkt.dst == p.dst) with
    | none => true
    | some g => g.pkt == p)

/-- The packet taken from the buffers in which it stands, if its flits have come by a link. -/
def takeBufs (p : OPkt) (s : State) : State :=
  match s.xpt.links.find? (fun q => q.2.arrived.any (fun g => g.pkt == p)) with
  | none => s
  | some (k, l) => match l.arrived.find? (fun g => g.pkt == p) with
    | none => s
    | some g => freeBufs k p.vc g.res g.sh (setLink k { l with arrived := l.arrived.erase g } s)

/-- BARRIER packets whose turn has come at a relay go on: no row names them there (R197, R198). -/
def relayBarriers (fuel : Nat) (s : State) : State :=
  match fuel with
  | 0 => s
  | n + 1 =>
    match (s.xpt.links.flatMap (fun q => q.2.arrived.map (·.pkt))).find? (fun p => p.op == 6 && bitN p.flags 1 && p.final != p.dst && pktTurn s p) with
    | none => s
    | some p => relayBarriers n (relayPkt p (takeBufs p s))
/-- A packet taken by its row; BARRIER packets behind it that a relay sends on go. -/
def takePkt (p : OPkt) (s : State) : State := relayBarriers (s.xpt.links.foldl (fun n q => n + q.2.arrived.length) 0) (takeBufs p s)

/-- A message between dies that a BARRIER packet carries (R198; spec/08 R258) acts in that packet's turn, and the packet is taken: of the KIND, the INDEX, the
SENSE, the TARGET and the COUNT given, from one endpoint to another. Where no such packet has come by flits, the row stands for it (log 9). -/
def asBarrier (src dst kind index : Nat) (sense : Bool) (target count : Nat) (f : State → State) (s : State) : State :=
  let is (p : OPkt) : Bool :=
    let b (o n : Nat) : Nat := fieldAt p.payload o n
    p.op == 6 && p.src == src && p.dst == dst && p.final == dst && b 0 1 == kind && b 1 1 == index && bitN (b 2 1) 0 == sense && b 4 2 == target
      && b 6 2 == count
  match (s.xpt.links.flatMap (fun q => q.2.arrived.map (·.pkt))).find? is with
  | none => f s
  | some p => if pktTurn s p then f (takePkt p s) else s

end Sys2Proof.Machine
end

