-- ==== Sys2Proof/Machine/Posts.lean ====
section
/-! DEFINITION. Posts.lean: how a queue accepts the descriptors that cores post (spec/02 R66). -/
namespace Sys2Proof.Machine

/-! ## The engine of a die -/

/-- The engine of a die. -/
def dieEng (s : State) (d : Nat) : DieEng := mget s.fab.dies {} d
def setEng (d : Nat) (e : DieEng) (s : State) : State := setFab { s.fab with dies := mset s.fab.dies d e } s

/-- The lowest free handle, of 1,024 (R271). -/
def freeHandle (e : DieEng) : Option Nat := (List.range 1024).find? (fun h => (mfind e.handles h).isNone)

/-- A FABRIC packet between a die and the hub (R274). -/
def sendFabric (src dst tag sub : Nat) (fields : List Nat) (pl : List Byte) (s : State) : State :=
  send (.packet 7 src dst tag (sub :: fields) pl) s

/-- The partition that a hub queue serves is the core's. -/
def hqServes (s : State) (hq : Nat) (pt : Nat) : Bool := (mget s.fab.hqs {} hq).owner == some pt

/-- No DPOST that has reached the same queue before waits there still: in one MESH cycle the lower logical cluster stands first, then the lower
logical core (R66). -/
def firstPost (s : State) (c : Nat) (d : DPostOp) : Bool :=
  !s.cores.core.any (fun q => match q.2.wait with
    | .dpost e => q.1 != c && coreStack q.1 == coreStack c && e.hub == d.hub && e.queue == d.queue
        && (decide (e.reach < d.reach) || (e.reach == d.reach && decide (q.1 < c)))
    | _ => false)

/-- A DPOST accepted (R66), in its turn and where there is room: a place in the die's queue, or a credit and a handle for the hub. -/
def acceptPost (c : Nat) (d : DPostOp) (s : State) : Option State :=
  let st := coreStack c
  let e := dieEng s st
  if !d.hub then
    let q := mget e.queues [] d.queue
    if q.length < 64 && firstPost s c d then
      some (setEng st { e with queues := mset e.queues d.queue (q ++ [{ core := c, tok := d.tok, sem := d.sem, desc := d.desc }]) } s)
    else none
  else
    match freeHandle e, coreParts s c with
    | some h, some pt =>
      let hd : Handle := { core := c, tok := d.tok, sem := d.sem, queue := d.queue, hub := true, jobPt := pt }
      if !hqServes s d.queue pt then
        -- assigned elsewhere, or to nobody: BAD_RANK
        some (setEng st { e with handles := mset e.handles h { hd with comp := some 5 } } s)
      else
        let cr := mget e.credits 0 d.queue
        if cr = 0 || !firstPost s c d then none
        else
          some (sendFabric st 12 h 1 [d.queue, 1] d.desc
            (setEng st { e with credits := mset e.credits d.queue (cr - 1), handles := mset e.handles h hd } s))
    | _, _ => none

/-- The MESH cycle in which a post reaches its queue is past: every post of that cycle has reached it. -/
def pastReach (c : Nat) (d : DPostOp) (s : State) : State := reachRood (coreSite c) 8 (d.reach + 1) s

end Sys2Proof.Machine
end

