-- ==== Sys2Proof/Machine/Operands.lean ====
section
/-! DEFINITION. Operands.lean: the issue of a core instruction: the fetch of its word, the registers and tiles that it reads, and how its
outcome moves the program counter (spec/02 R41, R47, R55 to R57, R73). -/
namespace Sys2Proof.Machine

/-- What the execution of an instruction comes to. -/
inductive Iss where
  /-- A core fault (R73). -/
  | fault (code : Nat) (s : State)
  /-- Done: the next word follows. -/
  | next (s : State)
  /-- A branch taken, by a word offset from itself: its latency is 2 (R58). -/
  | jump (off : Int) (s : State)
  /-- END. -/
  | halt (s : State)
  /-- It waits. -/
  | wait (w : Wait) (s : State)

/-- The word at a core's program counter: the schedule stands at the top of scratch (R47). -/
def fetchWord (s : State) (c : Nat) : Option (BitVec 64) :=
  let k := coreAt s c
  let pc := k.ctx.pc.toNat
  if pc < k.words then some (BitVec.ofNat 64 (getNum s.mem.m (scrBase c + schedBase k + 8 * pc) 8)) else none

/-- A core may issue: it runs, waits for nothing, and its rood runs. -/
def canIssue (s : State) (c : Nat) : Bool :=
  let k := coreAt s c
  k.cond == .issuing && k.wait == .none && !(coreRood s c).stopped

/-- The general and vector registers that an instruction reads (R55, R479 to R483). -/
def readsOf (o : CoreOp) : List Nat × List Nat :=
  match o with
  | .beqz a _ | .bnez a _ | .loop a _ | .csrw a _ | .spostr a _ _ | .bcfg a _ => ([a], [])
  | .salu f _ a b c _ =>
    match f with
    | .addi | .andi | .ori | .xori | .shli | .shri | .srai | .mov => ([a], [])
    | .sel => ([a, b, c], [])
    | _ => ([a, b], [])
  | .simm hi d _ => (if hi then [d] else [], [])
  | .slsLoad _ _ a _ | .scmLoad _ _ a _ | .vlsLd _ a _ | .vcmLd _ a _ => ([a], [])
  | .slsStore _ a b _ | .scmStore _ a b _ => ([a, b], [])
  | .vlsSt a b _ | .vcmSt a b _ => ([a], [b])
  | .vf _ f _ _ a b c =>
    match f with
    | .bcast => ([a], [])
    | .sqrt | .abs | .neg => ([], [a])
    | .fma | .fms | .fnma | .sel => ([], [a, b, c])
    | _ => ([], [a, b])
  | .vint f _ _ a b _ =>
    match f with
    | .bcast => ([a], [])
    | .shl | .shr | .sra => ([], [a])
    | _ => ([], [a, b])
  | .cvt _ _ _ _ _ d a => ([], [d, a])
  | .block _ _ _ d a _ => ([], [d, a])
  | .vred _ _ _ _ a => ([], [a])
  | .tmma _ _ _ ga gb _ _ _ _ => ([ga, gb], [])
  | .tslice _ _ _ _ ga gb _ _ => ([ga, gb], [])
  | .tstore _ gd _ _ => ([gd], [])
  | .vcx _ _ gs gv gl _ => ([gs, gv, gl], [])
  | .hmx _ _ gs ga gl _ => ([gs, ga, gl], [])
  | .dpost _ _ gs _ _ => ([gs], [])
  | _ => ([], [])

/-- The general and vector registers that an instruction writes (R57, R479 to R484). -/
def writesOf (o : CoreOp) : List Nat × List Nat :=
  match o with
  | .rdcyc d | .rdgtc d | .simm _ d _ | .slsLoad _ d _ _ | .scmLoad _ d _ _ | .waitt d _ | .tstat d _ | .csrr d _ | .stry d _ _
  | .sread d _ | .bstat d _ | .vred _ _ _ d _ => ([d], [])
  | .loop a _ => ([a], [])
  | .salu _ d _ _ _ _ => ([d], [])
  | .vlsLd d _ _ | .vcmLd d _ _ | .vf _ _ _ d _ _ _ | .vint _ _ d _ _ _ | .cvt _ _ _ _ _ d _ => ([], [d])
  | .block _ _ _ d _ x => ([x], [d])
  | _ => ([], [])

/-- The key of TSTORE's unit in `Core.ready`. -/
def storeUnit : Nat := 96

/-- The latency of an instruction on its result (R58; spec/08 R245, R251); a load of cluster memory delivers by R42. -/
def latencyOf (o : CoreOp) : Nat :=
  match o with
  | .slsLoad _ _ _ _ => 4
  | .vlsLd _ _ _ => 6
  | .vint _ _ _ _ _ _ => 2
  | .vf false _ _ _ _ _ _ | .cvt _ _ _ _ _ _ _ | .block _ _ _ _ _ _ => 4
  | .vf true _ _ _ _ _ _ => 6
  | .vred _ _ _ _ _ => 8
  | .tstore _ _ _ _ => 6
  | .tstat _ _ | .waitt _ _ | .stry _ _ _ | .sread _ _ | .bstat _ _ | .dpost _ _ _ _ _ => 2
  | _ => 1

/-- The token that an instruction makes PENDING, and the one that it looks at (R61). -/
def tokWrite (o : CoreOp) : Option Nat :=
  match o with
  | .vcx _ tok _ _ _ _ | .hmx _ tok _ _ _ _ | .dpost _ tok _ _ _ => some tok
  | _ => none
def tokRead (o : CoreOp) : Option Nat :=
  match o with
  | .waitt _ t | .tstat _ t => some t
  | _ => none

/-- What an instruction waits for besides registers, as keys of `Core.ready`: the token that it looks at, and the unit of TSTORE, which takes one in
2 cycles (R58). -/
def unitsOfOp (o : CoreOp) : List Nat :=
  (match tokRead o with
   | some t => [64 + t]
   | none => []) ++ (match o with
   | .tstore _ _ _ _ => [storeUnit]
   | _ => [])

/-- The cycles for which an instruction occupies its core's cluster-memory port (R42). -/
def portCycles (o : CoreOp) : Nat :=
  match o with
  | .scmLoad _ _ _ _ | .scmStore _ _ _ _ => 1
  | .vcmLd _ _ _ | .vcmSt _ _ _ => 4
  | _ => 0

/-- The wait of an instruction before its issue: the loads in flight to a register that it reads, or overwrites at once, are delivered; the
results that it reads are ready; its port or unit is free; its rood has reached its cycle (spec/07 R216); and the flags set before that stand in EXC_FLAGS (R42,
R55, R58, R111). -/
def awaitOps (c : Nat) (o : CoreOp) (s : State) : State :=
  let rd := readsOf o
  let wr := if 0 < portCycles o then ([], []) else writesOf o
  let s := awaitLoads c (rd.1 ++ wr.1) (rd.2 ++ wr.2) s
  let k := coreAt s c
  let t := (rd.1 ++ rd.2.map (· + 32) ++ unitsOfOp o).foldl (fun m r => max m (mget k.ready 0 r)) (if 0 < portCycles o then k.portFree else 0)
  let s := notBefore c t s
  let i := issueCycle s c
  landFlags c i (reachRood (coreSite c) (coreCluster c % 8) i s)

/-- What the issue of an instruction in cycle `t` leaves in the core: the next cycle, its port, and when its results are ready. -/
def takeCycle (o : CoreOp) (t : Nat) (k : Core) : Core :=
  let w := writesOf o
  let l := w.1 ++ w.2.map (· + 32) ++ (tokWrite o).toList.map (· + 64)
  let ready := l.foldl (fun m r => mset m r (t + latencyOf o)) k.ready
  { k with
    nextCyc := t + 1
    portFree := if portCycles o = 0 then k.portFree else t + portCycles o
    ready := match o with
      | .tstore _ _ _ _ => mset ready storeUnit (t + 2)
      | _ => ready }

/-- An instruction has completed at its word: the next word, or ADDR_RANGE, which the instruction in the last word raises after its
issue (R57). -/
def advance (c : Nat) (s : State) : State :=
  let k := coreAt s c
  if k.words ≤ k.ctx.pc.toNat + 1 then coreFault c 2 s else modCtx c (fun x => { x with pc := x.pc + 1 }) s

/-- The outcome of an instruction, on the core (R51, R57). -/
def finish (c : Nat) (i : Iss) : State :=
  match i with
  | .fault code s => coreFault c code s
  | .next s => advance c s
  | .jump off s =>
    let k := coreAt s c
    let t : Int := (k.ctx.pc.toNat : Int) + off
    if 0 ≤ t ∧ t < k.words then
      modCtx c (fun x => { x with pc := BitVec.ofNat 64 t.toNat }) (modCore c (fun k => { k with nextCyc := k.nextCyc + 1 }) s)
    else coreFault c 2 s
  | .halt s => modCore c (fun k => { k with cond := .ended }) s
  | .wait w s => modCore c (fun k => { k with wait := w, waitFrom := k.nextCyc - 1 }) s

/-- The waiting instruction of a core completes, and its wait is counted (spec/16 R447). -/
def resume (c : Nat) (s : State) : State :=
  let k := coreAt s c
  let n := if 1 ≤ waitClass k ∧ waitClass k ≤ 7 then issueCycle s c - k.waitFrom else 0
  advance c (modCore c (fun k => { k with wait := .none }) (countWait c n s))

/-- A core that the abort of its plan has stopped runs nothing more; one that runs goes on. -/
def stillRuns (s : State) (c : Nat) : Bool := (coreAt s c).cond == .issuing

/-- A waiting post accepted, or its turn without a place noted: from then on the core's wait counts. -/
def postNow (c : Nat) (d : DPostOp) (s : State) : State :=
  match acceptPost c d s with
  | some s => if stillRuns s c then resume c s else modCore c (fun k => { k with wait := .none }) s
  | none => if d.full then s else modCore c (fun k => { k with wait := .dpost { d with full := true }, waitFrom := issueCycle s c }) s

/-- The posts that wait on a die, in the order in which its queues accept them: by MESH cycle, then by cluster and core. -/
def waitingPosts (s : State) (st : Nat) : List (Nat × DPostOp) :=
  sortBy (fun q => q.2.reach * 2048 + q.1) (s.cores.core.filterMap (fun q => match q.2.wait with
    | .dpost d => if coreStack q.1 = st then some (q.1, d) else none
    | _ => none))

/-- The posts that reached a die's queues before the present MESH cycle are accepted in their turn. -/
def acceptDue (st : Nat) (s : State) : State :=
  ((waitingPosts s st).filter (fun q => decide (q.2.reach < (rood s (siteKC st) 8).cyc.toNat))).foldl (fun s q => postNow q.1 q.2 s) s

/-- Where the core's own post waits, the MESH cycle in which it reached the queue is past. -/
def settlePost (c : Nat) (s : State) : State :=
  match (coreAt s c).wait with
  | .dpost d => acceptDue (coreStack c) (pastReach c d s)
  | _ => s

/-- A die's waiting posts accepted in their turn, the present MESH cycle being past. -/
def settleDie (st : Nat) (s : State) : State :=
  if (waitingPosts s st).isEmpty then s
  else acceptDue st (reachRood (siteKC st) 8 ((rood s (siteKC st) 8).cyc.toNat + 1) s)

/-- The tick's share: each die with a waiting post accepts what is due. -/
def postsTick (s : State) : State :=
  (((s.cores.core.filter (fun q => match q.2.wait with
    | .dpost _ => true
    | _ => false)).map (fun q => coreStack q.1)).eraseDups).foldl (fun s st => acceptDue st s) s

/-- The core issues an instruction word (R41, R57): the command names the word that stands at its program counter, and `f` is
the meaning of the words of its row. A word that R57 calls illegal raises ILLEGAL_OP. -/
def issue (c : Nat) (w : BitVec 64) (f : CoreOp → Option (Nat → State → Iss)) (s : State) : State :=
  let s := settlePost c s
  if !canIssue s c || fetchWord s c != some w then s
  else match decodeWord w with
    | none => coreFault c 1 s
    | some o => match f o with
      | none => s
      | some g =>
        let s := awaitOps c o s
        if !stillRuns s c then s
        else
          let t := issueCycle s c
          let s := bump 1 (wordOfCore c) 1 (modCore c (takeCycle o t) s)
          finish c (g t s)

end Sys2Proof.Machine
end

