-- ==== Sys2Proof/Machine/Trace.lean ====
section
/-! DEFINITION. Trace.lean: trace records of a die (spec/16 R451, R452, R461), and lists given as one event argument (spec/11 R478). -/
namespace Sys2Proof.Machine

/-- A trace kind is on (R451): 0 PC, 1 SYNC, 2 DESC. -/
def traceOn (s : State) (site kind : Nat) : Bool := bitN (mget s.obs.trace 0 site) kind

/-- A trace record, unless the queue holds 2,048 records or more (R452). -/
def traceRecord (site kind : Nat) (args : List Nat) (s : State) : State :=
  let n := (mget s.evq {} site).recs.length
  if 2048 ≤ n ∨ s.obs.paused.contains site then
    let s1 := { s with obs := { s.obs with notWritten := mmod s.obs.notWritten 0 site (· + 1) } }
    if s.obs.paused.contains site then s1
    else emit site Ev.tracePaused [site, n] { s1 with obs := { s1.obs with paused := site :: s1.obs.paused } }
  else emit site Ev.traceRecord ((0x30 + kind) :: args) s

/-- TRACE_SYNC (R451): a SWAIT, BAR or BWAIT that waited, with its object and its wait. -/
def traceSync (c obj : Nat) (s : State) : State :=
  if !traceOn s (coreSite c) 1 then s
  else
    let k := coreAt s c
    let t := issueCycle s c
    modCore c (fun k => { k with nextCyc := t + 4 })
      (traceRecord (coreSite c) 1 [wordOfCore c, pairArg obj (t - k.waitFrom), waitClass k] s)

end Sys2Proof.Machine
end

