-- ==== Sys2Proof/Machine/Barrier.lean ====
section
/-! DEFINITION. Barrier.lean: barrier slots, combiners, arrivals and releases (spec/08 R249 to R259; spec/09 R297). -/
namespace Sys2Proof.Machine

/-! ## The slot (R249) -/

/-- A field of a slot replaced. -/
def putField (w : BitVec 64) (lo n v : Nat) : BitVec 64 :=
  let x := w.toNat
  BitVec.ofNat 64 (x % 2 ^ lo + v % 2 ^ n * 2 ^ lo + x / 2 ^ (lo + n) * 2 ^ (lo + n))
def slPly (w : BitVec 64) : Nat := fld w 0 10
def slOut (w : BitVec 64) : Nat := fld w 11 2
def slSense (w : BitVec 64) : Bool := bitN w.toNat 13
def slScope (w : BitVec 64) : Nat := fld w 14 2
def slGroup (w : BitVec 64) : Nat := fld w 16 16
def slDmask (w : BitVec 64) : Nat := fld w 32 12
def slKmask (w : BitVec 64) : Nat := fld w 44 8
def slCmask (w : BitVec 64) : Nat := fld w 52 12

/-- The sense of the oldest outstanding ply of a slot (R256). -/
def oldestSense (w : BitVec 64) : Bool := if slOut w = 1 then !slSense w else slSense w

/-! ## Combiners -/

def levelNum (l : Level) : Nat := match l with
  | .cluster => 0
  | .die => 1
  | .package => 2
  | .fabric => 3
/-- The key of a combiner's slot and sense. -/
def combKey (pt : Nat) (l : Level) (unit slot : Nat) (sense : Bool) : Nat :=
  ((((pt * 4 + levelNum l) * 1024 + unit) * 16) + slot) * 2 + b2n sense
def combOf (s : State) (k : Nat) : Combiner := mget s.sync.combs {} k
def setComb (k : Nat) (c : Combiner) (s : State) : State := { s with sync := { s.sync with combs := mset s.sync.combs k c } }

/-- The part of a configuration that a level compares (R254). -/
def levelCfg (l : Level) (w : BitVec 64) : Nat :=
  match l with
  | .cluster => slCmask w
  | .die => slKmask w
  | .package => slDmask w + slScope w * 2 ^ 12
  | .fabric => slGroup w

/-- The children that a combiner expects for a ply (R253). -/
def expected (s : State) (pt : Nat) (p : Part) (l : Level) (unit : Nat) (w : BitVec 64) : List Nat :=
  match l with
  | .cluster => (onesOf 12 (slCmask w)).map (fun k => unit * 16 + k) |>.filter (fun c => (mfind p.named c).isSome)
  | .die => (onesOf 8 (slKmask w)).filter (fun cl => p.named.any (fun q => q.1 / 16 == unit * 8 + cl))
  | .package => (onesOf 12 (slDmask w)).filter (fun i => match (partStacks p)[i]? with
      | none => false
      | some st => p.named.any (fun q => q.1 / 128 == st))
  | .fabric => match groupOf s pt (slGroup w) with
      | none => []
      | some g => ownPkg s :: g.children.map (·.1)

/-- A RELEASE of a partition's slot that another package has not acknowledged yet (R256, R258). -/
def releaseOut (s : State) (pt slot : Nat) : Bool :=
  s.fab.peers.any (fun q => ((q.2.unackedD.map (·.p)) ++ q.2.waiting).any (fun p =>
    p.type == 6 && p.job == (job s pt).id && fieldAt p.payload 0 1 == 2 && fieldAt p.payload 1 1 == slot))

/-- A release of the slot is on its way to some child of a combiner, near or far (R256). -/
def releasing (s : State) (pt : Nat) (l : Level) (unit slot : Nat) : Bool :=
  (l == .fabric && releaseOut s pt slot) || s.sync.releases.any (fun r => r.pt == pt && r.slot == slot && match l with
    | .cluster => r.level == .cluster && r.unit == unit
    | .die => (r.level == .die && r.unit == unit) || (r.level == .cluster && r.unit / 8 == unit)
    | .package => r.level != .fabric
    | .fabric => true)

/-- The payload of a BARRIER message (R258). -/
def barrierBytes (kind index : Nat) (sense fabric : Bool) (run : BitVec 8) (target count : Nat) (cfg : Option (BitVec 64)) (group : Nat) : List Byte :=
  [BitVec.ofNat 8 kind, BitVec.ofNat 8 index, BitVec.ofNat 8 (b2n sense + 2 * b2n fabric), run] ++ leBytes 2 target ++ leBytes 2 count
    ++ leBytes 2 (match cfg with
      | some w => slDmask w + slScope w * 2 ^ 12
      | none => 0) ++ leBytes 2 group ++ [0, 0, 0, 0]

/-- The payload is none that R258 gives: its KIND, a reserved bit, or a field that its KIND does not have. -/
def barrierPayloadBad (pl : List Byte) : Bool :=
  let f (o n : Nat) : Nat := fieldAt pl o n
  let k := f 0 1
  pl.length != 16 || decide (k < 1 ∨ 3 < k) || decide (4 ≤ f 2 1) || f 12 4 != 0 || decide ((if k = 3 then 32 else 16) ≤ f 1 1)
    || (if k = 3 then f 6 2 == 0 else decide (0 < f 4 2 + f 6 2)) || (if k = 1 then decide (2 ^ 14 ≤ f 8 2) else f 8 2 != 0) || (k == 3 && f 10 2 != 0)

/-- GROUP of a message: at fabric scope the group, else 0. -/
def groupField (w : BitVec 64) : Nat := if slScope w = 3 then slGroup w else 0

/-- An arrival of a die's combiner leaves for the hub on VC0 (R253, R258). -/
def sendArrive (st pt slot : Nat) (sense : Bool) (w : BitVec 64) (p : Part) (s : State) : State :=
  send (.packet 6 st 12 0 [0, pt] (barrierBytes 1 slot sense false p.run 0 0 (some w) (groupField w))) s

/-- A release of the hub's combiner leaves as one multicast packet, a copy on the bundle to each die of DMASK (R258; spec/06 R199). -/
def sendReleases (dies : List Nat) (pt slot : Nat) (sense : Bool) (w : BitVec 64) (p : Part) (s : State) : State :=
  dies.foldl (fun s d =>
    send (.packet 6 12 d 0 [0, 5, 12, pt, 0, 0, 0, maskOf dies] (barrierBytes 2 slot sense false p.run 0 0 none (groupField w))) s) s

/-- A fabric barrier packet to another package (R258, R297). -/
def sendBarrier (pkg pt kind slot : Nat) (sense : Bool) (cfg : Option (BitVec 64)) (group : Nat) (p : Part) (s : State) : State :=
  sendFab { type := 6, chan := 0, dstPkg := pkg, job := (job s pt).id
            payload := barrierBytes kind slot sense true p.run 0 0 cfg group } s

/-- The next combiner up from one, and the child that it is there (R253). -/
def upOf (s : State) (p : Part) (l : Level) (unit : Nat) : Level × Nat × Nat :=
  match l with
  | .cluster => (.die, unit / 8, unit % 8)
  | .die => (.package, 0, relStack p unit)
  | _ => (.fabric, 0, ownPkg s)

/-- The scope at which a level completes (R249). -/
def completesAt (l : Level) (w : BitVec 64) : Bool := slScope w == levelNum l

/-- All expected children have arrived: the ply completes at its scope, or one arrival goes on (R253, R255, R256). -/
def tryComb (pt : Nat) (l : Level) (unit slot : Nat) (sense : Bool) (s : State) : State :=
  let k := combKey pt l unit slot sense
  let c := combOf s k
  match part s pt, c.cfg with
  | some p, some w =>
    let ex := expected s pt p l unit w
    if c.sent || ex.isEmpty || !ex.all (fun x => c.arrived.contains x) then s
    else
      let done := setComb k { c with sent := true } s
      let rel (s : State) : State :=
        { s with sync := { s.sync with releases := s.sync.releases ++
          [{ pt := pt, run := p.run.toNat, level := l, unit := unit, slot := slot, sense := sense }] } }
      match l with
      | .fabric =>
        match groupOf s pt (slGroup w) with
        | none => s
        | some g =>
          if g.root then (if releasing s pt l unit slot then s else rel done)
          else sendBarrier g.parent pt 1 slot sense (some w) (slGroup w) p done
      | _ =>
        if completesAt l w then (if releasing s pt l unit slot then s else rel done)
        else
          let u := upOf s p l unit
          let done := if l = .die then sendArrive unit pt slot sense w p done else done
          { done with sync := { done.sync with arrivals := done.sync.arrivals ++
            [{ pt := pt, run := p.run.toNat, level := u.1, unit := u.2.1, slot := slot, sense := sense, sender := u.2.2, cfg := w }] } }
  | _, _ => s

/-- The level, unit and sense of a key, where it is of the partition and slot. -/
def keyParts (k : Nat) : Nat × Nat × Nat × Nat × Bool :=
  (k / 2 / 16 / 1024 / 4, k / 2 / 16 / 1024 % 4, k / 2 / 16 % 1024, k / 2 % 16, k % 2 == 1)
def levelOf (n : Nat) : Level := match n with
  | 0 => .cluster
  | 1 => .die
  | 2 => .package
  | _ => .fabric

/-- Every combiner of a partition's slot, tried again once a release has been delivered. -/
def retrySlot (pt slot : Nat) (s : State) : State :=
  s.sync.combs.foldl (fun s q =>
    let (a, l, u, sl, se) := keyParts q.1
    if a = pt ∧ sl = slot then tryComb pt (levelOf l) u slot se s else s) s

/-- Who emits an event of a combiner (R263). -/
def combSrc (s : State) (l : Level) (unit : Nat) : Nat :=
  match l with
  | .cluster => siteKC (unit / 8)
  | .die => siteKC unit
  | _ => mpSrc s

/-- The rood of a combiner: its cluster rood, the mesh rood, or the hub's router rood (R251; spec/07 R215). -/
def combRood (l : Level) (unit : Nat) : Nat :=
  match l with
  | .cluster => unit % 8
  | .die => 8
  | _ => 0

/-- An arrival counted by its combiner, or discarded (R253, R254, R258, R259). -/
def combArrive (a : Arrival) (s : State) : State :=
  match part s a.pt with
  | none => s
  | some p =>
    if a.level ≠ .fabric ∧ a.run ≠ p.run.toNat then s
    else
      let k := combKey a.pt a.level a.unit a.slot a.sense
      let c := combOf s k
      if a.level = .fabric ∧ (groupOf s a.pt (slGroup a.cfg)).isNone then
        emitRood (mpSrc s) 0 Ev.barGroupBad [a.pt, a.slot, slGroup a.cfg] s
      else if c.skip.contains a.sender then setComb k { c with skip := dropEl c.skip a.sender } s
      else
        match c.cfg with
        | some w =>
          if levelCfg a.level w ≠ levelCfg a.level a.cfg then
            emitRood (combSrc s a.level a.unit) (combRood a.level a.unit) Ev.barMismatch
              [a.pt, a.slot, levelNum a.level, levelCfg a.level w, levelCfg a.level a.cfg,
               if a.level = .cluster then wordOfCore a.sender else a.sender] s
          else tryComb a.pt a.level a.unit a.slot a.sense (setComb k { c with arrived := addOnce c.arrived a.sender } s)
        | none =>
          tryComb a.pt a.level a.unit a.slot a.sense
            (setComb k { c with arrived := addOnce c.arrived a.sender, cfg := some a.cfg } s)

/-! ## The core's side -/

/-- An arrival of a core under the slot's SENSE, which is inverted; OUT rises (R251). -/
def coreArrive (c slot : Nat) (s : State) : State :=
  match coreParts s c with
  | none => s
  | some pt => match part s pt with
    | none => s
    | some p =>
      let w := getSlot s c slot
      let w' := putField (putField w 13 1 (1 - b2n (slSense w))) 11 2 (slOut w + 1)
      let a : Arrival := { pt := pt, run := p.run.toNat, level := .cluster, unit := coreCluster c, slot := slot
                           sense := slSense w, sender := c, cfg := w, core := some c, seq := s.cores.seq }
      let s := setSlot c slot w' s
      { s with sync := { s.sync with arrivals := s.sync.arrivals ++ [a] }, cores := { s.cores with seq := s.cores.seq + 1 } }

/-- A release reaches a core: discarded where OUT is 0 or the sense is not that of its oldest ply (R255, R256). -/
def coreRelease (c slot : Nat) (sense : Bool) (s : State) : State :=
  let s := noteMoved c s
  let w := getSlot s c slot
  if slOut w = 0 ∨ oldestSense w ≠ sense then s
  else
    let w := putField (putField w 11 2 (slOut w - 1)) 0 10 (slPly w + 1)
    let s := setSlot c slot w s
    match (coreAt s c).wait with
    | .barr sl bar =>
      if sl ≠ slot then s
      else
        let s := coreArrive c slot s
        if bar then modCore c (fun k => { k with wait := .bar slot }) s else resume c s
    | .bwait sl => if sl = slot then resume c (traceSync c slot s) else s
    | .bar sl => if sl = slot ∧ slOut w = 0 then resume c (traceSync c slot s) else s
    | .bcfg sl v =>
      if sl = slot ∧ slOut w = 0 then resume c (setSlot c slot (putField w 14 50 (v.toNat / 2 ^ 14)) s) else s
    | _ => s

/-- The core waits in BAR or BWAIT on the ply of a slot that a release of a sense completes (R53, R255). -/
def waitsOn (s : State) (slot : Nat) (sense : Bool) (c : Nat) : Bool :=
  let w := getSlot s c slot
  slOut w != 0 && oldestSense w == sense && (match (coreAt s c).wait with
    | .bwait sl => sl == slot
    | .bar sl => sl == slot && slOut w == 1
    | _ => false)

/-- The cluster unit's release (R255): every participating core takes it in one CORE cycle, and those that wait on the ply issue next in the same
cycle, the one after (R53). -/
def clusterRelease (ch : List Nat) (slot : Nat) (sense : Bool) (s : State) : State :=
  let ws := ch.filter (waitsOn s slot sense)
  let t := ws.foldl (fun m c => max m (issueCycle s c)) 0
  let s := ch.foldl (fun s x => coreRelease x slot sense s) s
  let n := ws.foldl (fun m c => max m (coreAt s c).nextCyc) (t + 1)
  ws.foldl (fun s c => notBefore c n s) s

/-- A release at a combiner goes down to its children, and the combiner's count for the sense is cleared (R255). -/
def combRelease (r : Release) (s : State) : State :=
  match part s r.pt with
  | none => s
  | some p =>
    if r.level ≠ .fabric ∧ r.run ≠ p.run.toNat then s
    else
      let k := combKey r.pt r.level r.unit r.slot r.sense
      let c := combOf s k
      match c.cfg.or (r.tree.map (·.2)) with
      | none => s
      | some w =>
        let ch := expected s r.pt p r.level r.unit w
        let s := setComb k { ({} : Combiner) with skip := c.skip } s
        let down (l : Level) (u : Nat) (s : State) : State :=
          { s with sync := { s.sync with releases := s.sync.releases ++
            [{ r with level := l, unit := u, run := p.run.toNat, tree := none }] } }
        match r.level with
        | .cluster => clusterRelease ch r.slot r.sense s
        | .die => ch.foldl (fun s x => down .cluster (r.unit * 8 + x) s) s
        | .package =>
          -- a release of the fabric goes to the dies of DIEMASK (R297); a fenced die receives none
          let dies := (match r.tree with
            | some (m, _) => onesOf 12 m
            | none => ch.filterMap (fun i => (partStacks p)[i]?)).filter (fun e => !epFenced s e)
          dies.foldl (fun s st => down .die st s) (sendReleases dies r.pt r.slot r.sense w p s)
        | .fabric => match groupOf s r.pt (slGroup w) with
          | none => s
          | some g =>
            let s := { s with sync := { s.sync with releases := s.sync.releases ++
              [{ r with level := .package, unit := 0, run := p.run.toNat, tree := some (g.diemask, w) }] } }
            g.children.foldl (fun s q =>
              if pkgFenced s q.1 then s else sendBarrier q.1 r.pt 2 r.slot r.sense none (slGroup w) p s) s

/-- Stores of a core that entered the pipeline before an order number are carried to their commit (R247, R252). -/
def flushStores (c seq : Nat) (s : State) : State :=
  let cl := coreCluster c
  let p := pipeOf s cl
  match p.stores.filter (fun x => x.core == c && decide (x.seq < seq)) with
  | [] => s
  | l =>
    reachTo cl (l.foldl (fun m x => max m x.due) (clusterCyc s cl)) s

/-- ARRIVE: the arrival that stands first of its sender, slot and level reaches its combiner. A core's own waits for its earlier
stores and posts (R252). -/
def arriveEff (lv unit slot sender : Nat) (s : State) : State :=
  let same (a : Arrival) : Bool := a.level == levelOf lv && a.unit == unit && a.slot == slot && a.sender == sender
  match s.sync.arrivals.find? same with
  | none => s
  | some a =>
    let posts := match a.core with
      | none => false
      | some c => s.sync.posts.any (fun q => q.src == c && decide (q.seq < a.seq))
    if posts then s
    else
      let s := match a.core with
        | none => s
        | some c => flushStores c a.seq s
      -- to the hub a die's arrival comes in its BARRIER packet, in that packet's turn (R258)
      let act (s : State) : State := combArrive a { s with sync := { s.sync with arrivals := s.sync.arrivals.erase a } }
      if a.level ≠ .package then act s
      else match (part s a.pt).bind (fun p => (partStacks p)[a.sender]?) with
        | none => act s
        | some st => asBarrier st 12 1 a.slot a.sense 0 0 act s

/-- RELEASE: the release that stands first for a combiner's slot reaches it. -/
def releaseEff (lv unit slot : Nat) (s : State) : State :=
  let same (r : Release) : Bool := r.level == levelOf lv && r.unit == unit && r.slot == slot
  match s.sync.releases.find? same with
  | none => s
  | some r =>
    let act (s : State) : State := retrySlot r.pt r.slot (combRelease r { s with sync := { s.sync with releases := s.sync.releases.erase r } })
    if r.level = .die then asBarrier 12 r.unit 2 r.slot r.sense 0 0 act s else act s

/-- FAB_BARRIER's content (R258, R297), rejected where its payload is malformed (spec/06 R189): an arrival from a child package, or a release from the parent, for the partition whose job
the packet names. -/
def fabBarrier (pt src : Nat) (pl : List Byte) (s : State) : State :=
  let b (i : Nat) : Nat := ((pl[i]?).getD 0).toNat
  let kind := b 0
  let slot := b 1 % 16
  let sense := bitN (b 2) 0
  let group := b 10 + 256 * b 11
  let cfg := b 8 + 256 * b 9
  if barrierPayloadBad pl then bump 0x5005 12 1 s
  else match part s pt, groupOf s pt group with
  | some p, some g =>
    if kind = 1 then
      if !(g.children.map (·.1)).contains src then s
      else combArrive { pt := pt, run := b 3, level := .fabric, unit := 0, slot := slot, sense := sense, sender := src
                        cfg := putField (putField (putField 0 16 16 group) 14 2 (bitsN cfg 12 2)) 32 12 (bitsN cfg 0 12) } s
    else if kind = 2 ∧ !g.root ∧ g.parent = src then
      let k := combKey pt .fabric 0 slot sense
      let s := if (combOf s k).cfg.isSome then s
        else setComb k { (combOf s k) with cfg := some (putField (putField 0 16 16 group) 14 2 3) } s
      { s with sync := { s.sync with releases := s.sync.releases ++
        [{ pt := pt, run := p.run.toNat, level := .fabric, unit := 0, slot := slot, sense := sense }] } }
    else s
  | some _, none => if kind = 1 then emitRood (mpSrc s) 0 Ev.barGroupBad [pt, slot, group] s else s
  | _, _ => s

/-- The combiner state of a partition's slots cleared, at the levels given (R250). -/
def clearCombs (pt : Nat) (fabric : Bool) (s : State) : State :=
  { s with sync := { s.sync with
      combs := s.sync.combs.filter (fun q =>
        let (a, l, _, _, _) := keyParts q.1
        !(a == pt && (if fabric then l == 3 else decide (l < 3))))
      arrivals := s.sync.arrivals.filter (fun a => !(a.pt == pt && (if fabric then a.level == .fabric else a.level != .fabric)))
      releases := s.sync.releases.filter (fun a => !(a.pt == pt && (if fabric then a.level == .fabric else a.level != .fabric))) } }

end Sys2Proof.Machine
end

