-- ==== Sys2Proof/Machine/Scalar.lean ====
section
/-! DEFINITION. Scalar.lean: control, branches, scalar integers, scalar memory accesses, CSRs, BRK and tokens (spec/02 R56 to R62, R73,
R74, R480). One meaning per row of the table, over `issue`. -/
namespace Sys2Proof.Machine

/-! ## Control (R57) -/

def nopEff (c : Nat) (w : BitVec 64) (s : State) : State :=
  issue c w (fun o => match o with
    | .nop => some (fun _ s => .next s)
    | _ => none) s

/-- Every named core has executed END: the partition enters ENDING (R49). -/
def endIfAll (c : Nat) (s : State) : State :=
  match coreParts s c with
  | none => s
  | some pt => match part s pt with
    | none => s
    | some p =>
      if p.plan = 2 && p.named.all (fun q => (coreAt s q.1).cond == .ended) then setPart s pt { p with plan := 3 } else s

def endEff (c : Nat) (w : BitVec 64) (s : State) : State :=
  endIfAll c (issue c w (fun o => match o with
    | .endPlan => some (fun _ s => .halt s)
    | _ => none) s)

def rdcycEff (c : Nat) (w : BitVec 64) (s : State) : State :=
  issue c w (fun o => match o with
    | .rdcyc d => some (fun t s => .next (setG c d (BitVec.ofNat 64 t) s))
    | _ => none) s

/-- TIME cycles from now to the cycle `t` of a core's rood, to which commands may have carried the rood ahead of its clock (log 3). -/
def nsToCycle (s : State) (c t : Nat) : Nat :=
  let r := coreRood s c
  let n := nominal (coreSite c * 16 + coreCluster c % 8) r
  ((t - periodNo r) * n - r.phase) / 8

/-- RDGTC (spec/07 R235): the second or third TIME cycle after the issue cycle, and never less than the core's last. -/
def rdgtcEff (c : Nat) (w : BitVec 64) (s : State) : State :=
  issue c w (fun o => match o with
    | .rdgtc d => some (fun t s =>
        let (b, s) := drawBit s
        let g := gtcAfter s (coreSite c) (nsToCycle s c t + (if b then 3 else 2))
        let l := mget s.clk.lastGtc 0 c
        let v := if g.toNat < l.toNat then l else g
        .next (setG c d v { s with clk := { s.clk with lastGtc := mset s.clk.lastGtc c v } }))
    | _ => none) s

def waitcycEff (c : Nat) (w : BitVec 64) (s : State) : State :=
  issue c w (fun o => match o with
    | .waitcyc n => some (fun _ s => if n = 0 then .next s else .wait (.cycles n) s)
    | _ => none) s

/-- WAITCYC_EXPIRY: the count of cycles has passed. -/
def waitcycExpiryEff (c : Nat) (s : State) : State :=
  let k := coreAt s c
  match k.wait with
  | .cycles n => resume c (setCore s c { k with nextCyc := k.nextCyc + n })
  | _ => s

/-! ## Branches (R57) -/

def brEff (c : Nat) (w : BitVec 64) (s : State) : State :=
  issue c w (fun o => match o with
    | .br off => some (fun _ s => .jump off s)
    | _ => none) s

def beqzEff (c : Nat) (w : BitVec 64) (s : State) : State :=
  issue c w (fun o => match o with
    | .beqz a off => some (fun _ s => if getG s c a = 0 then .jump off s else .next s)
    | _ => none) s

def bnezEff (c : Nat) (w : BitVec 64) (s : State) : State :=
  issue c w (fun o => match o with
    | .bnez a off => some (fun _ s => if getG s c a ≠ 0 then .jump off s else .next s)
    | _ => none) s

/-- A branch target inside the schedule. -/
def inSchedule (k : Core) (off : Int) : Bool := decide (0 ≤ (k.ctx.pc.toNat : Int) + off ∧ (k.ctx.pc.toNat : Int) + off < k.words)

/-- LOOP. One whose target lies outside the schedule faults with gA as it was (DESIGN CHOICE, log 45). -/
def loopEff (c : Nat) (w : BitVec 64) (s : State) : State :=
  issue c w (fun o => match o with
    | .loop a off => some (fun _ s =>
        let v := getG s c a - 1
        if v = 0 then .next (setG c a v s)
        else if inSchedule (coreAt s c) off then .jump off (setG c a v s) else .fault 2 s)
    | _ => none) s

/-! ## Integers (R480) -/

/-- The result of a SALU function. -/
def saluVal (f : SaluFn) (a b c : BitVec 64) (imm : Nat) : BitVec 64 :=
  let i := BitVec.ofInt 64 (sext 32 imm)
  let z := BitVec.ofNat 64 imm
  let one (p : Bool) : BitVec 64 := if p then 1 else 0
  match f with
  | .add => a + b
  | .sub => a - b
  | .addi => a + i
  | .mul => a * b
  | .mulhu => BitVec.ofNat 64 (a.toNat * b.toNat / 2 ^ 64)
  | .mulhs => BitVec.ofInt 64 (a.toInt * b.toInt / 2 ^ 64)
  | .and => a &&& b
  | .or => a ||| b
  | .xor => a ^^^ b
  | .andi => a &&& z
  | .ori => a ||| z
  | .xori => a ^^^ z
  | .shl => a <<< (b.toNat % 64)
  | .shr => a >>> (b.toNat % 64)
  | .sra => a.sshiftRight (b.toNat % 64)
  | .shli => a <<< (imm % 64)
  | .shri => a >>> (imm % 64)
  | .srai => a.sshiftRight (imm % 64)
  | .slt => one (a.slt b)
  | .sltu => one (a.ult b)
  | .seq => one (a == b)
  | .min => if a.slt b then a else b
  | .max => if a.slt b then b else a
  | .minu => if a.ult b then a else b
  | .maxu => if a.ult b then b else a
  | .sel => if c ≠ 0 then a else b
  | .mov => a

def saluEff (c : Nat) (w : BitVec 64) (s : State) : State :=
  issue c w (fun o => match o with
    | .salu f d a b x imm => some (fun _ s => .next (setG c d (saluVal f (getG s c a) (getG s c b) (getG s c x) imm) s))
    | _ => none) s

def simmEff (c : Nat) (w : BitVec 64) (s : State) : State :=
  issue c w (fun o => match o with
    | .simm hi d imm => some (fun _ s =>
        let v := if hi then getG s c d &&& 0xFFFFFFFF#64 ||| BitVec.ofNat 64 imm <<< 32 else BitVec.ofNat 64 imm
        .next (setG c d v s))
    | _ => none) s

/-! ## Scratch (R57) -/

/-- A read of scratch by a load: the bytes, undefined where a word cannot be corrected; then the plan stops (spec/04 R116). -/
def scrLoad (c a n reader : Nat) (e : Ecc) (s : State) : List Byte × State :=
  let p := scrBase c + a
  let bads := badWords s.mem.m p n e.bad
  if bads.isEmpty then (getBs s.mem.m p n, reportCorr p e.corr s)
  else
    let (d, s) := drawBytes n (reportCorr p e.corr s)
    (d, reportStop c reader bads s)

/-- The core's next word after an access: one that the error of SRAM has stopped issues nothing more. -/
def nextIfRuns (c : Nat) (s : State) : Iss := if stillRuns s c then .next s else .wait (coreAt s c).wait s

def slsLoadEff (c : Nat) (w : BitVec 64) (e : Ecc) (s : State) : State :=
  issue c w (fun o => match o with
    | .slsLoad n d a off => some (fun _ s =>
        let p := effAddr (getG s c a) off
        match scrFault (coreAt s c) n p n with
        | some f => .fault f s
        | none =>
          let (bs, s) := scrLoad c p n 0 e s
          nextIfRuns c (setG c d (BitVec.ofNat 64 (leNat bs)) s))
    | _ => none) s

def slsStoreEff (c : Nat) (w : BitVec 64) (e : Ecc) (s : State) : State :=
  issue c w (fun o => match o with
    | .slsStore n a b off => some (fun _ s =>
        let p := effAddr (getG s c a) off
        match scrFault (coreAt s c) n p n with
        | some f => .fault f s
        | none =>
          nextIfRuns c (sramStore (scrBase c + p) (leBytes n (getG s c b).toNat) e.corr (!e.bad.isEmpty) s))
    | _ => none) s

/-! ## Cluster memory (R42) -/

/-- Bytes of a cluster memory. -/
def cmSize : Nat := 2 ^ 24

/-- A store entered in the pipeline of the core's cluster. -/
def queueStore (c p lat t : Nat) (bs : List Byte) (e : Ecc) (s : State) : State :=
  let cl := coreCluster c
  let q := pipeOf s cl
  let x : CmStore := { core := c, seq := s.cores.seq, addr := p, bytes := bs, due := t + lat, corr := e.corr, bad := !e.bad.isEmpty }
  let s := setPipe cl { q with stores := q.stores ++ [x] } s
  { s with cores := { s.cores with seq := s.cores.seq + 1 } }

/-- A load entered in it. -/
def queueLoad (c p n lat t d : Nat) (vec : Bool) (e : Ecc) (s : State) : State :=
  let cl := coreCluster c
  let q := pipeOf s cl
  let x : CmLoad := { core := c, addr := p, len := n, vec := vec, d := d, sample := t + lat, deliver := t + lat + 7
                      corr := e.corr, bad := e.bad }
  setPipe cl { q with loads := q.loads ++ [x] } s

def scmLoadEff (c : Nat) (w : BitVec 64) (e : Ecc) (s : State) : State :=
  issue c w (fun o => match o with
    | .scmLoad n d a off => some (fun t s =>
        let p := effAddr (getG s c a) off
        match rangeFault cmSize n p n with
        | some f => .fault f s
        | none => .next (queueLoad c p n 7 t d false e s))
    | _ => none) s

def scmStoreEff (c : Nat) (w : BitVec 64) (e : Ecc) (s : State) : State :=
  issue c w (fun o => match o with
    | .scmStore n a b off => some (fun t s =>
        let p := effAddr (getG s c a) off
        match rangeFault cmSize n p n with
        | some f => .fault f s
        | none => .next (queueStore c p 8 t (leBytes n (getG s c b).toNat) e s))
    | _ => none) s

/-! ## CSRs (R74) -/

/-- The value of a CSR. VC_STATE is the width of the channel of the physical core (R64). -/
def csrVal (s : State) (c i : Nat) : BitVec 64 :=
  let k := coreAt s c
  match i with
  | 0 => k.coreId
  | 1 => k.ctx.flags
  | 2 => k.ctx.seed
  | 3 => if (mget s.mem.vcs {} (physOf s c)).state = 2 then 1 else 0
  | 4 => k.planCyc0
  | _ => 0x0000004000040308#64

def csrrEff (c : Nat) (w : BitVec 64) (s : State) : State :=
  issue c w (fun o => match o with
    | .csrr d i => some (fun _ s => .next (setG c d (csrVal s c i) s))
    | _ => none) s

/-- CSRW: SR_SEED alone is writable; its write clears the generator's counter (spec/03 R97). -/
def csrwEff (c : Nat) (w : BitVec 64) (s : State) : State :=
  issue c w (fun o => match o with
    | .csrw a i => some (fun _ s =>
        .next (if i = 2 then modCtx c (fun x => { x with seed := getG s c a, ctr := 0 }) s else s))
    | _ => none) s

/-! ## BRK (R60; spec/16 R449) -/

def brkEff (c : Nat) (w : BitVec 64) (s : State) : State :=
  issue c w (fun o => match o with
    | .brk => some (fun t s =>
        if (coreAt s c).debugger then
          .wait .none (emitCore c Ev.dbgHalt [wordOfCore c, (coreAt s c).ctx.pc.toNat, t]
            (modCore c (fun k => { k with cond := .brk }) s))
        else .next (bump 4 (wordOfCore c) 1 s))
    | _ => none) s

/-! ## Tokens (R61, R62) -/

def waittEff (c : Nat) (w : BitVec 64) (s : State) : State :=
  issue c w (fun o => match o with
    | .waitt d t => some (fun _ s => match getTok s c t with
        | .free => .fault 5 s
        | .pending => .wait (.waitt d t) s
        | .done v => .next (setG c d v (setTok c t .free s)))
    | _ => none) s

/-- WAITT_RESUME: the token is DONE. -/
def waittResumeEff (c : Nat) (s : State) : State :=
  match (coreAt s c).wait with
  | .waitt d t => match getTok s c t with
    | .done v => resume c (setG c d v (setTok c t .free s))
    | _ => s
  | _ => s

def tstatEff (c : Nat) (w : BitVec 64) (s : State) : State :=
  issue c w (fun o => match o with
    | .tstat d t => some (fun _ s => match getTok s c t with
        | .free => .fault 5 s
        | .pending => .next (setG c d 0 s)
        | .done v => .next (setG c d v s))
    | _ => none) s

/-- A token of the core is PENDING. -/
def anyPending (k : Core) : Bool := k.tokens.any (fun p => p.2 == .pending)

def waitallEff (c : Nat) (w : BitVec 64) (s : State) : State :=
  issue c w (fun o => match o with
    | .waitall => some (fun _ s => if anyPending (coreAt s c) then .wait .waitall s else .next s)
    | _ => none) s

/-- WAITALL_RESUME: no token is PENDING. -/
def waitallResumeEff (c : Nat) (s : State) : State :=
  let k := coreAt s c
  match k.wait with
  | .waitall => if anyPending k then s else resume c s
  | _ => s

end Sys2Proof.Machine
end

