-- ==== Sys2Proof/Machine/Vector.lean ====
section
/-! DEFINITION. Vector.lean: the vector unit: memory accesses, floating point, integers, conversions and reductions (spec/02 R481 to
R484; spec/03 R90 to R98, R108, R109). -/
namespace Sys2Proof.Machine

/-! ## Lanes -/

/-- The lanes of `wd` bits of a register, lane 0 first. -/
def lanesOf (wd : Nat) (v : BitVec 2048) : List Nat := (List.range (2048 / wd)).map (fun i => bitsN v.toNat (wd * i) wd)
/-- Fields of `wd` bits joined, the first lowest. -/
def joinBits (wd : Nat) (l : List Nat) : Nat :=
  match l with
  | [] => 0
  | a :: r => a % 2 ^ wd + 2 ^ wd * joinBits wd r
/-- A register from its lanes. -/
def packLanes (wd : Nat) (l : List Nat) : BitVec 2048 := BitVec.ofNat 2048 (joinBits wd l)

/-! ## Memory (R57) -/

def vlsLdEff (c : Nat) (w : BitVec 64) (e : Ecc) (s : State) : State :=
  issue c w (fun o => match o with
    | .vlsLd d a off => some (fun _ s =>
        let p := effAddr (getG s c a) off
        match scrFault (coreAt s c) 64 p 256 with
        | some f => .fault f s
        | none =>
          let (bs, s) := scrLoad c p 256 0 e s
          nextIfRuns c (setV c d (BitVec.ofNat 2048 (leNat bs)) s))
    | _ => none) s

def vlsStEff (c : Nat) (w : BitVec 64) (s : State) : State :=
  issue c w (fun o => match o with
    | .vlsSt a b off => some (fun _ s =>
        let p := effAddr (getG s c a) off
        match scrFault (coreAt s c) 64 p 256 with
        | some f => .fault f s
        | none => .next (sramStore (scrBase c + p) (leBytes 256 (getV s c b).toNat) false false s))
    | _ => none) s

def vcmLdEff (c : Nat) (w : BitVec 64) (e : Ecc) (s : State) : State :=
  issue c w (fun o => match o with
    | .vcmLd d a off => some (fun t s =>
        let p := effAddr (getG s c a) off
        match rangeFault cmSize 64 p 256 with
        | some f => .fault f s
        | none => .next (queueLoad c p 256 10 t d true e s))
    | _ => none) s

def vcmStEff (c : Nat) (w : BitVec 64) (s : State) : State :=
  issue c w (fun o => match o with
    | .vcmSt a b off => some (fun t s =>
        let p := effAddr (getG s c a) off
        match rangeFault cmSize 64 p 256 with
        | some f => .fault f s
        | none => .next (queueStore c p 11 t (leBytes 256 (getV s c b).toNat) {} s))
    | _ => none) s

/-! ## Floating point (R481, R108) -/

/-- A lane of all ones or all zeros. -/
def maskLane (wd : Nat) (p : Bool) : Nat := if p then 2 ^ wd - 1 else 0

/-- A value rounded into a vector format. -/
def vround (f : Fm) (rz : Bool) (r : Fv × Nat) : Nat × Nat :=
  let x := convert f (if rz then .zero else .near) 0 r.1
  (x.1, orF x.2 r.2)

/-- One lane of a VF32 or VF64 function: its bits and flags. -/
def vfLane (f : Fm) (fn : VfFn) (rz : Bool) (x y z : Nat) : Nat × Nat :=
  let wd := fmWidth f
  let a := valueOf f x
  let b := valueOf f y
  let c := valueOf f z
  match fn with
  | .add => vround f rz (addV a b)
  | .sub => vround f rz (addV a (negV b))
  | .mul => vround f rz (mulV a b)
  | .fma => vround f rz (fmaV a b c)
  | .fms => vround f rz (fmaV a b (negV c))
  | .fnma => vround f rz (fmaV (negV a) b c)
  | .div => vround f rz (divV a b)
  | .sqrt => vround f rz (sqrtV a)
  | .min => vround f false (minV a b, 0)
  | .max => vround f false (maxV a b, 0)
  | .abs => if a = .nan then (canonNan f, 0) else (x % 2 ^ (wd - 1), 0)
  | .neg => if a = .nan then (canonNan f, 0) else ((x + 2 ^ (wd - 1)) % 2 ^ wd, 0)
  | .cmpeq => (maskLane wd (eqV a b), 0)
  | .cmplt => if a = .nan ∨ b = .nan then (0, fInvalid) else (maskLane wd (ltV a b), 0)
  | .cmple => if a = .nan ∨ b = .nan then (0, fInvalid) else (maskLane wd (!ltV b a), 0)
  | .bcast => (x, 0)
  | .sel => (if z ≠ 0 then x else y, 0)

/-- The lanes of a VF32 or VF64 function, with the lane bits of its operands. -/
def vfLanes (f : Fm) (fn : VfFn) (rz : Bool) (a b c : BitVec 2048) : List (Nat × Nat) :=
  let wd := fmWidth f
  (List.range (2048 / wd)).map (fun i =>
    vfLane f fn rz (bitsN a.toNat (wd * i) wd) (bitsN b.toNat (wd * i) wd) (bitsN c.toNat (wd * i) wd))

/-- The effect of a VF instruction. -/
def vfApply (c : Nat) (dbl : Bool) (fn : VfFn) (rz : Bool) (d a b x : Nat) (t : Nat) (s : State) : Iss :=
  let f := if dbl then Fm.fp64 else Fm.fp32
  let wd := fmWidth f
  let va := if fn = .bcast then packLanes wd (List.replicate (2048 / wd) (getG s c a).toNat) else getV s c a
  let r := vfLanes f fn rz va (getV s c b) (getV s c x)
  .next (countOp c (if dbl then 7 else 6) (fmId f) 1
    (raiseAt c (t + (if dbl then 6 else 4)) (flagsOf r) (setV c d (packLanes wd (r.map (·.1))) s)))

def vf32Eff (c : Nat) (w : BitVec 64) (s : State) : State :=
  issue c w (fun o => match o with
    | .vf false fn rz d a b x => some (fun t s => vfApply c false fn rz d a b x t s)
    | _ => none) s

def vf64Eff (c : Nat) (w : BitVec 64) (s : State) : State :=
  issue c w (fun o => match o with
    | .vf true fn rz d a b x => some (fun t s => vfApply c true fn rz d a b x t s)
    | _ => none) s

/-! ## Integers (R482) -/

/-- One lane of a VINT function. -/
def vintLane (fn : VintFn) (wd sh x y : Nat) : Nat × Nat :=
  let a := sext wd x
  let b := sext wd y
  let lo : Int := -(2 ^ (wd - 1) : Int)
  let hi : Int := 2 ^ (wd - 1) - 1
  let sat (i : Int) : Nat × Nat := (ofInt wd (clampI lo hi i), if clampI lo hi i = i then 0 else fIntOverflow)
  match fn with
  | .add => ((x + y) % 2 ^ wd, 0)
  | .sub => (ofInt wd (a - b), 0)
  | .adds => sat (a + b)
  | .subs => sat (a - b)
  | .mul => (x * y % 2 ^ wd, 0)
  | .and => (x &&& y, 0)
  | .or => (x ||| y, 0)
  | .xor => (x ^^^ y, 0)
  | .shl => (x * 2 ^ sh % 2 ^ wd, 0)
  | .shr => (x / 2 ^ sh, 0)
  | .sra => (ofInt wd (a / 2 ^ sh), 0)
  | .min => (if a < b then x else y, 0)
  | .max => (if a < b then y else x, 0)
  | .cmpeq => (maskLane wd (x == y), 0)
  | .cmplt => (maskLane wd (decide (a < b)), 0)
  | .bcast => (x, 0)

def vintEff (c : Nat) (w : BitVec 64) (s : State) : State :=
  issue c w (fun o => match o with
    | .vint fn wd d a b sh => some (fun t s =>
        let va := if fn = .bcast then packLanes wd (List.replicate (2048 / wd) (getG s c a).toNat) else getV s c a
        let vb := getV s c b
        let r := (List.range (2048 / wd)).map (fun i =>
          vintLane fn wd sh (bitsN va.toNat (wd * i) wd) (bitsN vb.toNat (wd * i) wd))
        .next (raiseAt c (t + 2) (flagsOf r) (setV c d (packLanes wd (r.map (·.1))) s)))
    | _ => none) s

/-! ## Conversions (R483, R90, R98) -/

/-- Draws taken from the core's generator for `n` elements where the rounding is stochastic (R98); zeros otherwise. -/
def takeDraws (c : Nat) (r : Rnd) (n : Nat) (s : State) : List Nat × State :=
  if r = .stoch then
    let x := (coreAt s c).ctx
    let calls := ceilDiv n 4
    (draws x.seed x.ctr calls, modCtx c (fun x => { x with ctr := x.ctr + BitVec.ofNat 128 calls }) s)
  else (List.replicate n 0, s)

/-- `n` elements of `wd` bits of a register, from element `i0`. -/
def elems (v : BitVec 2048) (wd i0 n : Nat) : List Nat := (List.range n).map (fun i => bitsN v.toNat (wd * (i0 + i)) wd)

/-- Elements written into a register from element `i0`; the other bits keep their values. -/
def putElems (v : BitVec 2048) (wd i0 : Nat) (l : List Nat) : BitVec 2048 :=
  let lo := wd * i0
  let n := wd * l.length
  let x := v.toNat
  BitVec.ofNat 2048 (x % 2 ^ lo + 2 ^ lo * joinBits wd l + x / 2 ^ (lo + n) * 2 ^ (lo + n))

def cvtEff (c : Nat) (w : BitVec 64) (s : State) : State :=
  issue c w (fun o => match o with
    | .cvt r src dst sg dg d a => some (fun t s =>
        let n := if src = .fp64 ∨ dst = .fp64 then 32 else 64
        let xs := elems (getV s c a) (fmWidth src) (sg * n) n
        let (dr, s) := takeDraws c r n s
        let res := (xs.zip dr).map (fun p => convert dst r p.2 (valueOf src p.1))
        .next (countOp c 8 (fmId dst) 1
          (raiseAt c (t + 4) (flagsOf res) (setV c d (putElems (getV s c d) (fmWidth dst) (dg * n) (res.map (·.1))) s))))
    | _ => none) s

/-- emax of R90. -/
def blockEmax (f : Fm) : Int :=
  match f with
  | .e4m3 => 8 | .e5m2 => 15 | .e3m2 => 4 | .e2m3 | .e2m1 => 2 | _ => 0

/-- The exponent of the largest magnitude of a block, where it has one that is not zero. -/
def blockTop (l : List Fv) : Option Int :=
  l.foldl (fun t v => match v with
    | .fin _ m e => if m = 0 then t else
        let x := e + bitLen m - 1
        match t with
        | none => some x
        | some y => some (if y < x then x else y)
    | _ => t) none

/-- One block of 32 values (R90): the elements with their flags, and the scale code. -/
def blockConv (dst : Fm) (r : Rnd) (l : List (Fv × Nat)) : List (Nat × Nat) × Nat :=
  let special := l.any (fun p => match p.1 with
    | .fin _ _ _ => false
    | _ => true)
  if special then (l.map (fun _ => (0, fInvalid)), 0xFF)
  else
    let x : Int := match blockTop (l.map (·.1)) with
      | none => -127
      | some t => clampI (-127) 127 (t - blockEmax dst)
    let up : Int := if dst = .int8 then 6 - x else -x
    (l.map (fun p => match p.1 with
      | .fin n m e => convert dst r p.2 (.fin n m (e + up))
      | v => convert dst r p.2 v), (x + 127).toNat)

def blockEff (c : Nat) (w : BitVec 64) (s : State) : State :=
  issue c w (fun o => match o with
    | .block r dst dg d a x => some (fun t s =>
        let vs := (elems (getV s c a) 32 0 64).map (valueOf .fp32)
        let (dr, s) := takeDraws c r 64 s
        let l := vs.zip dr
        let b0 := blockConv dst r (l.take 32)
        let b1 := blockConv dst r (l.drop 32)
        let res := b0.1 ++ b1.1
        let s := setV c d (putElems (getV s c d) (fmWidth dst) (dg * 64) (res.map (·.1))) s
        .next (countOp c 8 (fmId dst) 1 (raiseAt c (t + 4) (flagsOf res) (setG c x (BitVec.ofNat 64 (b0.2 + 256 * b1.2)) s))))
    | _ => none) s

/-! ## Reductions (R484, R109) -/

/-- One step of a reduction: two lanes combined, rounded once (R108). -/
def redStep (f : Fm) (fn : RedFn) (rz : Bool) (x y : Nat) : Nat × Nat :=
  match fn with
  | .sum => vfLane f .add rz x y 0
  | .max => vfLane f .max false x y 0
  | .min => vfLane f .min false x y 0

/-- The pairwise tree of R109 over `2 ^ k` lanes: lane i with lane i + half. -/
def redTree (f : Fm) (fn : RedFn) (rz : Bool) (k : Nat) (l : List Nat) (fl : Nat) : Nat × Nat :=
  match k with
  | 0 => (l.headD 0, fl)
  | j + 1 =>
    let h := 2 ^ j
    let r := ((l.take h).zip (l.drop h)).map (fun p => redStep f fn rz p.1 p.2)
    redTree f fn rz j (r.map (·.1)) (orF fl (flagsOf r))

def vredEff (c : Nat) (w : BitVec 64) (s : State) : State :=
  issue c w (fun o => match o with
    | .vred fn dbl rz d a => some (fun t s =>
        let f := if dbl then Fm.fp64 else Fm.fp32
        let r := redTree f fn rz (if dbl then 5 else 6) (lanesOf (fmWidth f) (getV s c a)) 0
        .next (countOp c 9 (fmId f) 1 (raiseAt c (t + 8) r.2 (setG c d (BitVec.ofNat 64 r.1) s))))
    | _ => none) s

end Sys2Proof.Machine
end

