-- ==== Sys2Proof/Machine/Tensor.lean ====
section
/-! DEFINITION. Tensor.lean: the tensor engine: tiles, TMMA, TSLICE, TSTORE and its queue (spec/02 R59, R67 to R72; spec/03 R87, R88, R99
to R103, R106, R111). Operands are read as an instruction's occupancy ends (log 12). -/
namespace Sys2Proof.Machine

/-! ## Operands -/

/-- Products per lane and cycle, and the occupancy (R69, R70). -/
def occupancy (t : TOp) : Nat :=
  ceilDiv (32 * (t.nch + 1)) (match fmOf t.fmtA with
    | some f => rateClass f
    | none => 1)

/-- Bytes of an operand: its blocks of `rows` rows, and its scales padded to 64 bytes (R68). -/
def dataBytes (f : Fm) (rows nch : Nat) : Nat := (nch + 1) * rows * 32 * fmWidth f / 8
def operandBytes (f : Fm) (rows nch : Nat) (mx : Bool) : Nat :=
  dataBytes f rows nch + (if mx then ceilDiv ((nch + 1) * rows) 64 * 64 else 0)

/-- The format of an identifier, FP64 for none. -/
def fmD (n : Nat) : Fm := (fmOf n).getD .fp64

/-- The lowest fault of a list. -/
def minFault (l : List (Option Nat)) : Option Nat :=
  l.foldl (fun m x => match m, x with
    | none, y => y
    | some a, some b => some (if b < a then b else a)
    | some a, none => some a) none

/-- The elements of row `r` in chunk `j` of an operand of `rows` rows whose data is the number `x` (R68). -/
def rowElems (f : Fm) (x rows j r : Nat) : List Nat :=
  (List.range 32).map (fun i => bitsN x (fmWidth f * (((j * rows) + r) * 32 + i)) (fmWidth f))

/-- The scale of a row in a chunk (R68): byte rows * j + r after the data. -/
def scaleOf (f : Fm) (x rows nch j r : Nat) : Nat := bitsN x (8 * (dataBytes f rows nch + rows * j + r)) 8

/-! ## TMMA (R99, R100, R102) -/

/-- The contribution of one chunk to one lane, with its flags (R100). `sa` and `sb` are the scales, where set. -/
def chunkSum (fa fb : Fm) (as bs : List Nat) (sa sb : Option Nat) : Fv × Nat :=
  let va := as.map (valueOf fa)
  let vb := bs.map (valueOf fb)
  let scaleNan := sa == some 255 || sb == some 255
  if scaleNan then (.nan, fScaleNan)
  else if va.contains .nan || vb.contains .nan then (.nan, 0)
  else
    let ps := (va.zip vb).map (fun p => mulV p.1 p.2)
    if ps.any (fun p => p.2 != 0) then (.nan, fInvalid)
    else
      let pos := ps.any (fun p => p.1 == .inf false)
      let neg := ps.any (fun p => p.1 == .inf true)
      if pos && neg then (.nan, fInvalid)
      else if pos then (.inf false, 0)
      else if neg then (.inf true, 0)
      else
        let s := match ps with
          | [] => Fv.fin false 0 0
          | p :: r => r.foldl (fun (a : Fv) (q : Fv × Nat) => (addV a q.1).1) p.1
        -- an INT8 element under block scaling carries 2^-6 (R88)
        let sh (f : Fm) (x : Option Nat) : Int := match x with
          | none => 0
          | some k => (k : Int) - 127 - (if f = .int8 then 6 else 0)
        match s with
        | .fin n m e => (.fin n m (e + sh fa sa + sh fb sb), 0)
        | v => (v, 0)

/-- One chunk added to an element: the element and the flags (R99, R103). -/
def addChunk (el : BitVec 128) (c : Fv × Nat) : BitVec 128 × Nat :=
  let r := addV (valueOf .fp64 (bitsN el.toNat 0 64)) c.1
  let chunks := bitsN el.toNat 64 32
  let y := (convert .fp64 .near 0 r.1).1
  (BitVec.ofNat 128 (y + (if chunks < 2 ^ 32 - 1 then chunks + 1 else chunks) * 2 ^ 64), orF c.2 r.2)

/-- The elements of a tile, zeros where none are listed. -/
def tileEls (t : Tile) : List (BitVec 128) := if t.els.isEmpty then List.replicate 128 0 else t.els

/-- TMMA on a tile: its elements after the instruction, and the flags. -/
def tmmaEls (m : Mem) (c : Nat) (t : TOp) (old : List (BitVec 128)) : List (BitVec 128) × Nat :=
  let fa := fmD t.fmtA
  let fb := fmD t.fmtB
  let xa := getNum m (scrBase c + t.a) (operandBytes fa 16 t.nch t.mxa)
  let xb := getNum m (scrBase c + t.b) (operandBytes fb 8 t.nch t.mxb)
  let r := (List.range 128).map (fun l =>
    let row := l / 8
    let col := l % 8
    let e0 : BitVec 128 := if t.acc then (old[l]?).getD 0 else 0
    (List.range (t.nch + 1)).foldl (fun (p : BitVec 128 × Nat) j =>
      let ch := chunkSum fa fb (rowElems fa xa 16 j row) (rowElems fb xb 8 j col)
        (if t.mxa then some (scaleOf fa xa 16 t.nch j row) else none)
        (if t.mxb then some (scaleOf fb xb 8 t.nch j col) else none)
      let q := addChunk p.1 ch
      (q.1, orF p.2 q.2)) (e0, 0))
  (r.map (·.1), r.foldl (fun f p => orF f p.2) 0)

/-! ## TSLICE (R106) -/

/-- One chunk added to an integer element, saturating. -/
def addSlice (acc s : Int) (shift : Nat) : Int × Nat :=
  let t := acc + s * 2 ^ shift
  let lo : Int := -(2 ^ 63 : Int)
  let hi : Int := 2 ^ 63 - 1
  (clampI lo hi t, if clampI lo hi t = t then 0 else fIntOverflow)

def tsliceEls (m : Mem) (c : Nat) (t : TOp) (old : List (BitVec 128)) : List (BitVec 128) × Nat :=
  let xa := getNum m (scrBase c + t.a) (operandBytes .int8 16 t.nch false)
  let xb := getNum m (scrBase c + t.b) (operandBytes .int8 8 t.nch false)
  let iv (u : Bool) (x : Nat) : Int := if u then (x : Int) else sext 8 x
  let r := (List.range 128).map (fun l =>
    let e0 : Int := if t.acc then sext 64 ((old[l]?).getD 0).toNat else 0
    (List.range (t.nch + 1)).foldl (fun (p : Int × Nat) j =>
      let as := rowElems .int8 xa 16 j (l / 8)
      let bs := rowElems .int8 xb 8 j (l % 8)
      let s := (as.zip bs).foldl (fun (a : Int) q => a + iv t.ua q.1 * iv t.ub q.2) 0
      let q := addSlice p.1 s t.shift
      (q.1, orF p.2 q.2)) (e0, 0))
  (r.map (fun p => BitVec.ofNat 128 (ofInt 64 p.1)), r.foldl (fun f p => orF f p.2) 0)

/-! ## The queue (R59, R70) -/

/-- The byte offsets of found errors that fall in a range of scratch. -/
def badIn (e : Ecc) (a n : Nat) : List Nat := (e.bad.filter (fun o => decide (a ≤ o ∧ o < a + n))).map (· - a)

/-- The instruction that executes reaches the end of its occupancy: its tile is written, its flags wait for the result. `e` is
what the code of scratch finds, as offsets in scratch. -/
def tensorStep (c : Nat) (e : Ecc) (s : State) : State :=
  let k := coreAt s c
  match k.queue with
  | [] => s
  | t :: rest =>
    let s := setCore s c { k with queue := rest }
    let s := bump 3 (wordOfCore c) (occupancy t) s
    let na := operandBytes (fmD t.fmtA) 16 t.nch t.mxa
    let nb := operandBytes (fmD t.fmtB) 8 t.nch t.mxb
    let s := countOp c (if t.slice then 3 else if t.mxa || t.mxb then 2 else 1) t.fmtA (t.nch + 1) s
    let bads := badWords s.mem.m (scrBase c + t.a) na (badIn e t.a na)
      ++ badWords s.mem.m (scrBase c + t.b) nb (badIn e t.b nb)
    let s := reportCorr (scrBase c) e.corr s
    let old := getTile s c t.td
    if bads.isEmpty then
      let r := if t.slice then tsliceEls s.mem.m c t (tileEls old) else tmmaEls s.mem.m c t (tileEls old)
      modCore c (fun k => { k with unready := k.unready ++ [(t.td, r.2)] }) (setTile c t.td { old with els := r.1 } s)
    else
      -- undefined data in the bytes that an element of the mode has, and the plan stops (spec/03 R103; spec/04 R116)
      let els := (List.range 128).map (fun i =>
        (Config.freeWord (s.fresh + i)).zeroExtend 128 + (if old.int then 0#128 else
          ((Config.freeWord (s.fresh + 128 + i)).zeroExtend 128 &&& 0xFFFFFFFF#128) <<< 64))
      let s := setTile c t.td { old with els := els } { s with fresh := s.fresh + 256 }
      reportStop c 1 bads s

/-- A stalled scalar unit finds a place in the tensor queue (R59). -/
def tensorPlace (c : Nat) (s : State) : State :=
  let k := coreAt s c
  match k.wait with
  | .tensor t => if k.queue.length < 5 then resume c (setCore s c { k with queue := k.queue ++ [t] }) else s
  | _ => s

/-- TENSOR_QUEUE_ADVANCE: the occupancy of the executing instruction ends, and the next one starts. -/
def tensorQueueAdvanceEff (c : Nat) (e : Ecc) (s : State) : State := tensorPlace c (tensorStep c e s)

/-- TENSOR_RESULT_READY: the oldest result is ready and its flags are set (R111). -/
def tensorResultReadyEff (c : Nat) (s : State) : State :=
  let k := coreAt s c
  match k.unready with
  | [] => s
  | r :: rest => raiseFlags c r.2 (setCore s c { k with unready := rest })

/-- The tensor engine carried until no instruction of the queue writes tile `t` (at most `fuel` instructions). -/
def drainTile (fuel c t : Nat) (e : Ecc) (s : State) : State :=
  match fuel with
  | 0 => s
  | f + 1 => if (coreAt s c).queue.any (fun o => o.td == t) then drainTile f c t e (tensorStep c e s) else s

/-- The results that precede the last one of a tile, that one among them, and those that follow it. -/
def upToTile (t : Nat) (l : List (Nat × Nat)) : List (Nat × Nat) × List (Nat × Nat) :=
  match l with
  | [] => ([], [])
  | r :: rest =>
    let q := upToTile t rest
    if r.1 = t ∨ !q.1.isEmpty then (r :: q.1, q.2) else ([], r :: rest)

/-- An instruction that reads a tile still being written waits (R55): the results up to the tile's become ready, and set their flags (R111). -/
def awaitTile (c t : Nat) (e : Ecc) (s : State) : State :=
  let s := drainTile 5 c t e s
  let k := coreAt s c
  let q := upToTile t k.unready
  q.1.foldl (fun s r => raiseFlags c r.2 s) (setCore s c { k with unready := q.2 })

/-! ## The instructions -/

def tzeroEff (c : Nat) (w : BitVec 64) (e : Ecc) (s : State) : State :=
  issue c w (fun o => match o with
    | .tzero int t => some (fun _ s =>
        let s := awaitTile c t e s
        if stillRuns s c then .next (setTile c t { int := int, els := [] } s) else .wait (coreAt s c).wait s)
    | _ => none) s

/-- A tensor instruction enters the queue, or the scalar unit stalls (R59). -/
def enqueue (c : Nat) (t : TOp) (s : State) : Iss :=
  let k := coreAt s c
  if k.queue.length < 5 then .next (setCore s c { k with queue := k.queue ++ [t] }) else .wait (.tensor t) s

/-- The fault of a tensor instruction (R67, R68): its operands' ranges, then the tile's mode. -/
def tensorFault (k : Core) (t : TOp) : Option Nat :=
  minFault [scrFault k 64 t.a (operandBytes (fmD t.fmtA) 16 t.nch t.mxa),
            scrFault k 64 t.b (operandBytes (fmD t.fmtB) 8 t.nch t.mxb),
            if (mget k.ctx.tiles {} t.td).int == t.slice then none else some 6]

def tmmaEff (c : Nat) (w : BitVec 64) (s : State) : State :=
  issue c w (fun o => match o with
    | .tmma td fa fb ga gb nch mxa mxb acc => some (fun _ s =>
        let t : TOp := { slice := false, td := td, fmtA := fmId fa, fmtB := fmId fb, a := (getG s c ga).toNat
                         b := (getG s c gb).toNat, nch := nch, mxa := mxa, mxb := mxb, acc := acc }
        match tensorFault (coreAt s c) t with
        | some f => .fault f s
        | none => enqueue c t s)
    | _ => none) s

def tsliceEff (c : Nat) (w : BitVec 64) (s : State) : State :=
  issue c w (fun o => match o with
    | .tslice td shift ua ub ga gb nch acc => some (fun _ s =>
        let t : TOp := { slice := true, td := td, a := (getG s c ga).toNat, b := (getG s c gb).toNat, nch := nch, acc := acc
                         shift := shift, ua := ua, ub := ub }
        match tensorFault (coreAt s c) t with
        | some f => .fault f s
        | none => enqueue c t s)
    | _ => none) s

/-- What TSTORE writes: bytes and flags (R72, R103). -/
def storeBytes (t : Tile) (f : Option (Fm × Rnd)) (dr : List Nat) : List Byte × Nat :=
  match f with
  | none =>
    let n := if t.int then 8 else 16
    (((tileEls t).map (fun e => leBytes n e.toNat)).flatten, 0)
  | some (fm, r) =>
    let res := ((tileEls t).zip dr).map (fun p => convert fm r p.2 (valueOf .fp64 (bitsN p.1.toNat 0 64)))
    (leBytes (128 * fmWidth fm / 8) (joinBits (fmWidth fm) (res.map (·.1))), flagsOf res)

/-- TSTORE (R72): once the tile is ready its bytes stand in scratch from the instruction's issue on (DESIGN CHOICE, log 12: R58 gives the instruction a latency of 6 and does not
say in which cycle scratch, which is not interlocked, holds them). -/
def tstoreEff (c : Nat) (w : BitVec 64) (e : Ecc) (s : State) : State :=
  issue c w (fun o => match o with
    | .tstore ts gd f zero => some (fun t s =>
        let s := awaitTile c ts e s
        if !stillRuns s c then .wait (coreAt s c).wait s
        else
          let x := getTile s c ts
          let a := (getG s c gd).toNat
          let n := match f with
            | none => if x.int then 1024 else 2048
            | some p => 128 * fmWidth p.1 / 8
          match minFault [scrFault (coreAt s c) 64 a n, if f.isSome && x.int then some 6 else none] with
          | some x => .fault x s
          | none =>
            let (dr, s) := takeDraws c ((f.map (·.2)).getD .near) 128 s
            let r := storeBytes x f dr
            let s := sramStore (scrBase c + a) r.1 false false s
            let s := if zero then setTile c ts { x with els := [] } s else s
            let s := match f with
              | none => countOp c 5 (if x.int then 10 else 0) 1 s
              | some p => countOp c 4 (fmId p.1) 1 s
            .next (raiseAt c (t + 6) r.2 s))
    | _ => none) s

end Sys2Proof.Machine
end

