-- ==== Sys2Proof/Machine/Transfer.lean ====
section
/-! DEFINITION. Transfer.lean: VCX and HMX and their completions (spec/02 R61 to R65; spec/04 R116, R120, R125, R131). Data moves
when a transfer completes (log 12). -/
namespace Sys2Proof.Machine

/-- A length of R63 or R65: a multiple of `u` from `u` to 524,288. -/
def lenOk (u n : Nat) : Bool := n % u == 0 && decide (u ≤ n ∧ n ≤ 524288)

/-- The fault of a transfer at issue: lengths and ranges, alignment, the schedule region, the token (R61, R63, R65). `far` is the
size of the far memory, where it has one. -/
def xferFault (s : State) (c u tok scr fr n : Nat) (far : Option Nat) : Option Nat :=
  let k := coreAt s c
  minFault [
    if lenOk u n then none else some 2,
    if 524288 < scr + n then some 2 else none,
    (match far with
     | some z => if z < fr + n then some 2 else none
     | none => none),
    if scr % u != 0 || fr % u != 0 then some 3 else none,
    if schedBase k < scr + n then some 4 else none,
    if getTok s c tok == .free then none else some 5]

def vcxEff (c : Nat) (w : BitVec 64) (s : State) : State :=
  issue c w (fun o => match o with
    | .vcx toSlice tok gs gv gl sem => some (fun _ s =>
        let scr := (getG s c gs).toNat
        let fr := (getG s c gv).toNat
        let n := (getG s c gl).toNat
        match xferFault s c 128 tok scr fr n (some (2 ^ 21)) with
        | some f => .fault f s
        | none =>
          let x : Xfer := { toScr := !toSlice, tok := tok, scr := scr, far := fr, len := n, sem := sem }
          .next (modCore c (fun k => { k with vcx := k.vcx ++ [x] }) (setTok c tok .pending s)))
    | _ => none) s

/-- The endpoint that holds an address: a memory group or a KC die. -/
def epOfAddr (s : State) (a : Nat) : Nat :=
  match dpaOf s.pkg.part a with
  | .hbm => 16 + (placeOf s a).stack / 4
  | .cm cl => cl / 8
  | .unmapped => 12

/-- The packets that a transfer needs: the runs of lines at one endpoint of at most 4,096 bytes, by first line, number of lines and endpoint. A line
that the windows refuse, that cannot be reached, or that lies on the core's own die needs none (R65; spec/06 R187). -/
def hmxRuns (s : State) (c : Nat) (p : Part) (x : Xfer) : List (Nat × Nat × Nat) :=
  ((List.range (x.len / 64)).foldl (fun l i =>
    let far := x.far + 64 * i
    let ep := epOfAddr s far
    if !reaches s p (!x.toScr) far || ep == coreStack c || !reachesEp s (coreStack c) ep then l
    else match l with
      | (f, n, e) :: r => if e = ep ∧ f + n = i ∧ n < 64 then (f, n + 1, e) :: r else (i, 1, ep) :: l
      | [] => [(i, 1, ep)]) []).reverse

/-- One packet of a transfer: a READ, or a WRITE of the bytes of scratch, on BULK channel VC2 + (c mod 4) of the cluster (R65; spec/06 R188, R191);
`last` where it ends its transfer. -/
def sendHmx (c pt : Nat) (x : Xfer) (q : XReq) (last : Bool) (s : State) : State :=
  let f := q.first
  let n := q.n
  let scr := scrBase c + x.scr + 64 * f
  let poison := if x.toScr then 0 else maskOf ((List.range n).filter (fun i => !(badWords s.mem.m (scr + 64 * i) 64 []).isEmpty))
  send (.packet (if x.toScr then 2 else 1) (coreStack c) q.ep q.tag
    [2 + coreCluster c % 4, 4 * b2n last, coreStack c, pt, x.far + 64 * f, poison, if x.toScr then 64 * n else 0, 0]
    (if x.toScr then [] else getBs s.mem.m scr (64 * n))) s

/-- The packets of a transfer, each with a TAG of the cluster that no packet without an answer has. A run of lines that finds none goes by no
packet, and is carried as the transfer completes (log 49). -/
def hmxReqs (s : State) (c : Nat) (l : List (Nat × Nat × Nat)) : List XReq :=
  (l.zip (freeTags (clusterTags s (coreCluster c)) l.length)).map (fun q =>
    { first := q.1.1, n := q.1.2.1, ep := q.1.2.2, tag := coreCluster c % 8 * 8192 + q.2 })

/-- The packets of a transfer sent, in order. -/
def startHmx (c : Nat) (x : Xfer) (s : State) : State :=
  match (coreParts s c).bind (fun pt => (part s pt).map (fun p => (pt, p))) with
  | none => modCore c (fun k => { k with hmx := k.hmx ++ [x] }) s
  | some (pt, p) =>
    let l := hmxReqs s c (hmxRuns s c p x)
    let s := modCore c (fun k => { k with hmx := k.hmx ++ [{ x with reqs := l }] }) s
    l.zipIdx.foldl (fun s q => sendHmx c pt x q.1 (q.2 + 1 == l.length) s) s

def hmxEff (c : Nat) (w : BitVec 64) (s : State) : State :=
  issue c w (fun o => match o with
    | .hmx toFar tok gs ga gl sem => some (fun _ s =>
        let scr := (getG s c gs).toNat
        let fr := (getG s c ga).toNat
        let n := (getG s c gl).toNat
        match xferFault s c 64 tok scr fr n none with
        | some f => .fault f s
        | none =>
          let x : Xfer := { toScr := !toFar, tok := tok, scr := scr, far := fr, len := n, sem := sem }
          .next (startHmx c x (crossCl (coreCluster c) true (setTok c tok .pending s))))
    | _ => none) s

/-- The 128-byte beats of a source range that hold one of the words (R116). -/
def badBeats (src : Nat) (l : List Nat) : List Nat := l.foldl (fun b u => addOnce b ((u - src) / 128)) []

/-- VCX_COMPLETION: the oldest VCX of the core has moved its beats (R64). A beat with an uncorrectable word is written as poison. -/
def vcxCompletionEff (c : Nat) (e : Ecc) (s : State) : State :=
  let k := coreAt s c
  match k.vcx with
  | [] => s
  | x :: rest =>
    if (mget s.mem.vcs {} (physOf s c)).testing then s
    else
      let s := setCore s c { k with vcx := rest }
      let src := if x.toScr then slBase c + x.far else scrBase c + x.scr
      let dst := if x.toScr then scrBase c + x.scr else slBase c + x.far
      let bads := badWords s.mem.m src x.len e.bad
      let s := reportCorr src e.corr s
      let m := writeBs s.mem.m dst (getBs s.mem.m src x.len)
      let m := (badBeats src bads).foldl (fun m b => poisonWords m (dst + 128 * b) 128) m
      let s := reportBad 2 bads (setMem s m)
      endXfer c x.tok x.sem (if bads.isEmpty then 1 else 7) s

/-- One line of an HMX: the status that it leaves: 1 OK, 4 FENCED, 6 BAD_WINDOW, 7 UNCORRECTABLE; the words that a cluster memory cannot correct;
and the state. -/
def hmxLine (c : Nat) (p : Part) (x : Xfer) (e : Ecc) (fs : List LineFind) (i : Nat) (s : State) : Nat × List Nat × State :=
  let far := x.far + 64 * i
  let scr := scrBase c + x.scr + 64 * i
  let ep := epOfAddr s far
  if !reaches s p (!x.toScr) far then (6, [], s)
  else if ep ≠ coreStack c ∧ reachesEp s (coreStack c) ep = false then (4, [], s)
  else if x.toScr then
    let hbm := dpaOf s.pkg.part far == .hbm
    let (o, b, s) := readDpaQ far fs (if hbm then {} else eccOf e x.far far) s
    match o with
    | .fenced => (4, b, s)
    | .data bs => (1, b, setMem s (writeBs s.mem.m scr bs))
    | .poison bs =>
      if hbm then
        let (d, s) := drawBytes 64 s
        (7, b, setMem s (writeBs s.mem.m scr d))
      else (1, b, setMem s (poisonWords (writeBs s.mem.m scr bs) scr 64))
  else
    let bad := badWords s.mem.m scr 64 (badIn e (64 * i) 64)
    let (ok, s) := writeDpa far (getBs s.mem.m scr 64) (allPoison (!bad.isEmpty) 64) s
    (if ok then 1 else 4, [], s)

/-- The status of a transfer from those of its lines: BAD_WINDOW, then FENCED, then UNCORRECTABLE, else OK. -/
def worst (l : List Nat) : Nat := if l.contains 6 then 6 else if l.contains 4 then 4 else if l.contains 7 then 7 else 1

/-- HMX_COMPLETION: all lines of the HMX of a token are done (R65). -/
def hmxCompletionEff (c tok : Nat) (e : Ecc) (fs : List LineFind) (s : State) : State :=
  let k := coreAt s c
  match k.hmx.find? (fun x => x.tok == tok), (coreParts s c).bind (part s) with
  | some x, some p =>
    let s := setCore s c { k with hmx := k.hmx.filter (fun y => y.tok != tok) }
    let bads := if x.toScr then [] else badWords s.mem.m (scrBase c + x.scr) x.len e.bad
    let s := reportBad 3 bads (if x.toScr then s else reportCorr (scrBase c) e.corr s)
    let r := (List.range (x.len / 64)).foldl (fun (a : List Nat × List Nat × State) i =>
      match mfind x.got i with
      | some st => (st :: a.1, a.2)
      | none =>
        let q := hmxLine c p x e fs i a.2.2
        (q.1 :: a.1, a.2.1 ++ q.2.1, q.2.2)) ([], [], s)
    endXfer c x.tok x.sem (BitVec.ofNat 64 (worst r.1)) (reportBad 4 r.2.1 r.2.2)
  | _, _ => s

end Sys2Proof.Machine
end

