-- ==== Sys2Proof/Machine/Descr.lean ====
section
/-! DEFINITION. Descr.lean: fabric descriptors and the descriptor engines of the dies (spec/02 R66; spec/09 R264, R268 to R274). -/
namespace Sys2Proof.Machine

/-! ## Descriptors (R268, R269) -/

/-- A descriptor's fields. -/
structure FDesc where
  op : Nat
  flags : Nat
  target : Nat
  laddr : Nat
  raddr : Nat
  len : Nat
  saddr : Nat
  sval : Nat
  deriving DecidableEq, Repr

def parseDesc (bs : List Byte) : FDesc :=
  { op := fieldAt bs 0 1, flags := fieldAt bs 1 1, target := fieldAt bs 4 4, laddr := fieldAt bs 8 8, raddr := fieldAt bs 16 8
    len := fieldAt bs 24 4, saddr := fieldAt bs 32 8, sval := fieldAt bs 40 8 }

def dOrdered (d : FDesc) : Bool := bitN d.flags 0
/-- The channel of a descriptor's packets (R278): ORDERED 0 or 1, or BULK. -/
def dChan (d : FDesc) : Nat := if dOrdered d then b2n (bitN d.flags 1) else 2
/-- The descriptor ends with a signal. -/
def dSignals (d : FDesc) : Bool := d.op == 3 || (d.op == 4 && bitN d.flags 2)

/-- The offset of the first bad field of a malformed descriptor (R269). -/
def badField (bs : List Byte) : Option Nat :=
  let d := parseDesc bs
  if d.op = 0 ∨ 4 < d.op then some 0
  else if d.flags / 8 ≠ 0 ∨ (bitN d.flags 1 ∧ ¬ bitN d.flags 0) ∨ (bitN d.flags 2 ∧ d.op ≠ 4) then some 1
  else if fieldAt bs 2 2 ≠ 0 then some 2
  else if (if d.op = 4 then 2 ^ 16 else 2 ^ 20) ≤ d.target then some 4
  else if d.laddr % 8 ≠ 0 then some 8
  else if d.raddr % 8 ≠ 0 then some 16
  else if d.len % 8 ≠ 0 ∨ 2 ^ 30 < d.len ∨ (d.len = 0 ∧ !dSignals d) then some 24
  else if fieldAt bs 28 4 ≠ 0 then some 28
  else if (if dSignals d then d.saddr % 8 ≠ 0 else d.saddr ≠ 0) then some 32
  else if !dSignals d ∧ d.sval ≠ 0 then some 40
  else if fieldAt bs 48 16 ≠ 0 then some 48
  else none

/-- Rank translation (R266): the package and endpoint, or nothing for BAD_RANK. An endpoint absent on another package is found by that package, which
answers BAD_RANK. -/
def translate (s : State) (j : Job) (rank : Nat) : Option (Nat × Nat) :=
  if j.rankCount ≤ rank then none
  else
    let e := (mget s.fab.ranks 0 (j.rankBase + rank)).toNat
    let pkg := bitsN e 16 16
    let ep := e % 32
    if !bitN e 15 || decide (12 < ep) then none
    else if (addrOf s pkg).isNone then none
    else if pkg = ownPkg s ∧ epPresent s ep = false then none
    else some (pkg, ep)

/-! ## Ranges of local memory -/

/-- Every line of a range passes the window check (R125). -/
def rangeReaches (s : State) (p : Part) (wr : Bool) (a n : Nat) : Bool := (linesOf a n).all (fun l => reaches s p wr l)

/-- No bundle and no relay joins an endpoint to the one that holds a line (spec/05 R155). -/
def lineCut (s : State) (ep a : Nat) : Bool :=
  let far := epOfAddr s a
  dpaOf s.pkg.part a != .unmapped && far != ep && !reachesEp s ep far

/-- Some line of a range cannot be reached from an endpoint, or lies in fenced HBM4, or in a cluster memory that cannot be reached (R273). -/
def rangeFenced (s : State) (ep a n : Nat) : Bool :=
  (linesOf a n).any (fun l => lineCut s ep l || match dpaOf s.pkg.part l with
    | .hbm => lineFenced s (placeOf s l)
    | .cm cl => cmFenced s cl
    | .unmapped => false)

/-- `n` bytes read from an address for an endpoint, with the mask of payload lines that are poison (R188, R190); a line that is fenced or cut off
travels as poison. -/
def readRange (ep a n : Nat) (fs : List LineFind) (e : Ecc) (s : State) : List Byte × Nat × State :=
  let x := readLines (linesOf a n) a fs e 4 s
  let r := ((x.1.filter (fun q => match q.2 with
    | .data _ => false
    | _ => true)).map (·.1) ++ (linesOf a n).filter (lineCut s ep), x.2)
  let mask := (List.range (ceilDiv n 64)).filter (fun i => (linesOf (a + 64 * i) (min 64 (n - 64 * i))).any (fun l => r.1.contains l))
  (getBs r.2.mem.m a n, maskOf mask, r.2)

/-! ## The engine of a die -/

/-- DPOST (R66): the descriptor is read within the instruction's 2 cycles and passes the crossing to the queue, which accepts it in the die's mesh
rood (`acceptDue`): until then the core issues nothing more. An uncorrectable word of scratch makes the descriptor undefined, and the plan stops as for a
load (DESIGN CHOICE, log 12). -/
def dpostEff (c : Nat) (w : BitVec 64) (e : Ecc) (s : State) : State :=
  issue c w (fun o => match o with
    | .dpost queue tok gs sem hub => some (fun _ s =>
        let a := (getG s c gs).toNat
        match minFault [scrFault (coreAt s c) 64 a 64, if getTok s c tok == .free then none else some 5] with
        | some f => .fault f s
        | none =>
          let (bs, s) := scrLoad c a 64 0 e (crossCl (coreCluster c) true (setTok c tok .pending s))
          .wait (.dpost { tok := tok, sem := sem, hub := hub, queue := queue, desc := bs, reach := (rood s (coreSite c) 8).cyc.toNat }) s)
    | _ => none) s

/-- DPOST_RESUME: the waiting descriptor is accepted in its turn where there is room or a credit. After an abort it is still accepted, and its core
stays stopped. -/
def dpostResumeEff (c : Nat) (s : State) : State :=
  match (coreAt s c).wait with
  | .dpost d => postNow c d (pastReach c d s)
  | _ => s

/-- A malformed descriptor counted and reported (R269): die or hub, queue, OP, offset. -/
def malformed (unit queue : Nat) (bs : List Byte) (off : Nat) (s : State) : State :=
  emit fabSrc Ev.fabDescMalformed [if unit = 12 then siteKH else siteKC unit, queue, fieldAt bs 0 1, off]
    (bump 0x6007 (unit * 2 ^ 8 + queue) 1 s)

/-- The destination of a descriptor by its rank or group number, the field's own bits (R268); an MPUT's stands as (0, 0). -/
def descRank (s : State) (pt : Nat) (d : FDesc) : Option (Nat × Nat) :=
  if d.op = 4 then (groupOf s pt (d.target % 2 ^ 16)).map (fun _ => (0, 0)) else translate s (job s pt) (d.target % 2 ^ 20)

/-- A put or get names a fenced endpoint of its own package (R273, R402). -/
def destFenced (s : State) (d : FDesc) (rank : Option (Nat × Nat)) : Bool :=
  d.op != 4 && (match rank with
    | some (pkg, ep) => pkg == ownPkg s && epFenced s ep
    | none => false)

/-- What the posting side finds in a descriptor (R269, R273): the status with which it completes at once, or nothing. The destination of
an MPUT is judged by the hub. -/
def postCheck (s : State) (pt : Nat) (bs : List Byte) : Option Nat :=
  let j := job s pt
  if j.state = 2 then some 3
  else if j.state ≠ 1 then some 5
  else
    let d := parseDesc bs
    let rank := descRank s pt d
    if d.op ≠ 0 ∧ d.op < 5 ∧ rank.isNone then some 5
    else if (badField bs).isSome then some 6
    else if destFenced s d rank then some 4
    else match part s pt with
      | none => some 5
      | some p => if rangeReaches s p (d.op == 2) d.laddr d.len then none else some 6

/-- The destination package of a descriptor that leaves by Ethernet has an open port; for an MPUT at its root, every child that is not fenced (R290). -/
def canServe (s : State) (pt : Nat) (bs : List Byte) : Bool :=
  let d := parseDesc bs
  let open_ (pkg : Nat) : Bool := pkg == ownPkg s || (choosePort s (portsFor s pkg) pkg (if dOrdered d then 2 else 3)).isSome
  if d.op = 4 then
    match groupOf s pt d.target with
    | none => true
    | some g => g.children.all (fun q => pkgFenced s q.1 || open_ q.1)
  else match translate s (job s pt) d.target with
    | none => true
    | some (pkg, _) => open_ pkg

/-- Queues in rotation after one, of `n`. -/
def rotation (n rot : Nat) : List Nat := (List.range n).map (fun i => (rot + 1 + i) % n)

/-- One turn of a die's engine on queue `q` (R271): a new head is checked and its DESC sent, or the next packet of its data. -/
def dieTurn (st pt q : Nat) (x : QDesc) (rest : List QDesc) (fs : List LineFind) (ec : Ecc) (s : State) : State :=
  let e := dieEng s st
  let d := parseDesc x.desc
  match mfind e.cur q with
  | none =>
    match freeHandle e with
    | none => s
    | some h =>
      let hd : Handle := { core := x.core, tok := x.tok, sem := x.sem, queue := q, jobPt := pt }
      match postCheck s pt x.desc with
      | some stt =>
        let s := match badField x.desc with
          | some off => malformed st q x.desc off s
          | none => s
        setEng st { e with queues := mset e.queues q rest, rot := q
                           handles := mset e.handles h { hd with comp := some (BitVec.ofNat 64 stt) } } s
      | none =>
        let loc := if rangeFenced s st d.laddr d.len then 4 else 1
        let only := d.op == 2 || d.len == 0
        sendFabric st 12 h 1 [q, 0] x.desc
          (setEng st { e with rot := q, handles := mset e.handles h { hd with localSt := loc }
                              queues := if only then mset e.queues q rest else e.queues
                              cur := if only then e.cur else mset e.cur q (h, 0) } s)
  | some (h, off) =>
    let n := min (payloadMax s) (d.len - off)
    let (bs, mask, s) := readRange st (d.laddr + off) n fs ec s
    let last := decide (d.len ≤ off + n)
    sendFabric st 12 h 2 [off, mask, dChan d, b2n last] bs
      (setEng st { e with rot := q, queues := if last then mset e.queues q rest else e.queues
                          cur := if last then mdel e.cur q else mset e.cur q (h, off + n) } s)

/-- The queue that an engine serves next: the first in rotation whose head can move. -/
def nextQueue (s : State) (pt : Nat) (e : DieEng) : Option (Nat × QDesc × List QDesc) :=
  (rotation 16 e.rot).findSome? (fun q => match mget e.queues [] q with
    | [] => none
    | x :: rest =>
      let begun := (mfind e.cur q).isSome
      if (begun || ((freeHandle e).isSome && !safeState s 2 0)) && canServe s pt x.desc then some (q, x, rest) else none)

/-- DESCRIPTOR_COMPLETION: a handle whose completion value is there ends: the token, the semaphore, the trace (R61, R271). -/
def descriptorCompletionEff (st h : Nat) (s : State) : State :=
  let e := dieEng s st
  match mfind e.handles h with
  | none => s
  | some x => match x.comp with
    | none => s
    | some v =>
      let stt := joinStatus (v.toNat % 16) x.localSt
      let v := if stt = v.toNat % 16 then v else BitVec.ofNat 64 stt
      let s := endXfer x.core x.tok x.sem v (setEng st { e with handles := mdel e.handles h } s)
      if traceOn s (siteKC st) 2 && !x.hub then
        traceRecord (siteKC st) 2 [wordOfCore x.core, listArg [x.queue, h, stt], waitClass (coreAt s x.core)] s
      else s

/-- A die receives the completion value of a handle (R274). -/
def takeComp (st h : Nat) (v : BitVec 64) (s : State) : State :=
  let e := dieEng s st
  match mfind e.handles h with
  | none => s
  | some x => if x.comp.isSome then s else setEng st { e with handles := mset e.handles h { x with comp := some v } } s

/-- A die receives credits of a hub queue (R66, R274). -/
def takeCredits (st hq n : Nat) (s : State) : State :=
  let e := dieEng s st
  if 32 ≤ hq then s else setEng st { e with credits := mset e.credits hq (min 64 (mget e.credits 0 hq + n)) } s

end Sys2Proof.Machine
end

