-- ==== Sys2Proof/Machine/FabHub.lean ====
section
/-! DEFINITION. FabHub.lean: the hub's fabric engine: descriptors accepted, data sent and received, ordering contexts, multicast trees
(spec/09 R264 to R274, R282 to R284, R293 to R297). -/
namespace Sys2Proof.Machine

/-! ## The hub's packets to a die (R274) -/

/-- A die can be asked: a bundle or a relay joins it to the hub (spec/05 R155). -/
def canAsk (s : State) (ep : Nat) : Bool := decide (ep < 12) && reachesEp s 12 ep

/-- The hub notes what a packet asks for; the TAG of the packet. -/
def noteWork (w : HubWork) (s : State) : Nat × State :=
  let t := s.fab.nextWork % 65536
  (t, setFab { s.fab with works := mset s.fab.works t w, nextWork := t + 1 } s)
/-- A FABRIC packet of a sub-kind from the hub to a die. -/
def askDie (w : HubWork) (ep sub : Nat) (fields : List Nat) (pl : List Byte) (s : State) : State :=
  let (t, s) := noteWork w s
  sendFabric 12 ep t sub fields pl s
/-- Something of a descriptor's number is asked for and not yet answered. -/
def awaited (s : State) (h : Nat) : Bool :=
  s.fab.works.any (fun q => match q.2 with
    | .copy k _ => k == h
    | .copySignal k _ => k == h
    | .got k _ => k == h
    | _ => false)

/-! ## Writes at a destination -/

/-- The pieces of a write, one per 64-byte line of memory: address, bytes, and the stretches of them that a marked payload line holds (spec/06 R190). -/
def pieces (a : Nat) (bs : List Byte) (mask : Nat) : List (Nat × List Byte × List (Nat × Nat)) :=
  (linesOf a bs.length).map (fun l =>
    let lo := max a l
    let hi := min (a + bs.length) (l + 64)
    let i := (lo - a) / 64
    -- the payload lines i and i + 1 meet at this address
    let cut := min hi (a + 64 * (i + 1))
    (lo, (bs.drop (lo - a)).take (hi - lo),
      (if bitN mask i then [(0, cut - lo)] else []) ++ (if cut < hi ∧ bitN mask (i + 1) = true then [(cut - lo, hi - cut)] else [])))

/-- Data written for a partition at an endpoint: the status by lines (R189, R190, R273). -/
def dieWrite (ep pt a : Nat) (bs : List Byte) (mask : Nat) (s : State) : Nat × State :=
  match part s pt with
  | none => (6, s)
  | some p =>
    let s := if mask = 0 then s else bump 0x6008 0 (popN 64 mask) s
    (pieces a bs mask).foldl (fun (x : Nat × State) q =>
      if !reaches x.2 p true q.1 then (joinStatus x.1 6, x.2)
      else if lineCut x.2 ep q.1 then (joinStatus x.1 4, x.2)
      else
        let (ok, s) := writeDpa q.1 q.2.1 q.2.2 x.2
        (if ok then x.1 else joinStatus x.1 4, s)) (1, s)

/-- A device-to-host pip rung (spec/11 R342, R343). -/
def ringOut (k : Nat) (s : State) : State :=
  bump 0x8001 (k + 256) 1 { s with hp := { s.hp with d2hPending := s.hp.d2hPending ||| (1#32 <<< k) } }

/-- A signal to a return counter of the request engine marks the slot's batch as returned; one to a slot that holds none is counted
and ignored (spec/10 R309, R326). -/
def markReturn (pt a : Nat) (s : State) : State :=
  let base := bitsN (cfgEff s 7 0) 21 27 * 2 ^ 21 + 0x24800000
  if pt ≠ enginePart s ∨ a < base ∨ base + 512 ≤ a ∨ (a - base) % 64 ≠ 0 then s
  else
    let n := (a - base) / 64
    if (mfind s.eng.slots n).isSome then { s with eng := { s.eng with returned := addOnce s.eng.returned n } }
    else bump 0x7004 0 1 s

/-- A signal (R283): an atomic addition to a 64-bit counter; one that the hub performs rings a bound pip (spec/11 R342). -/
def signalAt (pt a v : Nat) (byHub : Bool) (fs : List LineFind) (e : Ecc) (s : State) : Nat × State :=
  match part s pt with
  | none => (6, s)
  | some p =>
    if !reaches s p true a then (6, s)
    else
      let (ok, s) := addWord a v fs e s
      if !ok then (4, s)
      else (1, markReturn pt a (if byHub then (s.hp.pipOut.filter (fun q => q.2 == a)).foldl (fun s q => ringOut q.1 s) s else s))

/-! ## Multicast writes (R270, R294, R295) -/

/-- An address of the cluster memories' range, whatever its die (R124). -/
def inCmRange (a : Nat) : Bool := decide (cmBase 0 ≤ a ∧ a < cmBase 96)
/-- The address at an endpoint: its own block of cluster memory for an address of that range, and any other as given, an unmapped one too (R125, R270). -/
def mcAddr (ep a : Nat) : Nat := if inCmRange a then cmBase (ep * 8) + a % 2 ^ 27 else a

/-- A mask names an absent die (R199): its copies complete BAD_RANK and nothing is sent. -/
def maskAbsent (s : State) (mask : Nat) : Bool := (onesOf 12 mask).any (fun e => !epPresent s e)

/-- The endpoints of a mask that write: all for cluster memory, the lowest one for any other address; the hub's bit is ignored. -/
def mcEps (s : State) (mask a : Nat) : List Nat :=
  let l := onesOf 12 mask
  if maskAbsent s mask then [] else if inCmRange a then l else l.take 1

/-! ## Descriptors at the hub -/

def hubKey (src tag : Nat) : Nat := src * 65536 + tag
def hubDesc (s : State) (k : Nat) : Option HubDesc := mfind s.fab.descs k
def setHub (k : Nat) (d : HubDesc) (s : State) : State := setFab { s.fab with descs := mset s.fab.descs k d } s
def delHub (k : Nat) (s : State) : State := setFab { s.fab with descs := mdel s.fab.descs k } s

/-- The next DSEQ of a pair, taken (R282). -/
def takeDseq (pkg pt : Nat) (s : State) : Nat × State :=
  let n := mget s.fab.dseq 0 (pkg * 16 + pt)
  (n, setFab { s.fab with dseq := mset s.fab.dseq (pkg * 16 + pt) ((n + 1) % 2 ^ 32) } s)
/-- The next OSEQ of a channel in a pair, taken; 0 for BULK. -/
def takeOseq (pkg pt ch : Nat) (s : State) : Nat × State :=
  let o := mget s.fab.oseq (0, 0) (pkg * 16 + pt)
  match ch with
  | 0 => (o.1, setFab { s.fab with oseq := mset s.fab.oseq (pkg * 16 + pt) ((o.1 + 1) % 2 ^ 32, o.2) } s)
  | 1 => (o.2, setFab { s.fab with oseq := mset s.fab.oseq (pkg * 16 + pt) (o.1, (o.2 + 1) % 2 ^ 32) } s)
  | _ => (0, s)

/-- A descriptor of a hub queue has completed (R66): it no longer holds the queue. -/
def hqDone (hq : Option Nat) (s : State) : State :=
  match hq with
  | none => s
  | some q => setFab { s.fab with hqs := mmod s.fab.hqs {} q (fun x => { x with open_ := x.open_ - 1 }) } s

/-- The tag of the request engine's PUT that clears its dispatch counter. -/
def clearTag : Nat := 65535
/-- That PUT has ended: its write has committed, or is to be posted again (spec/10 R325). -/
def clearEnds (v : BitVec 64) (s : State) : State :=
  if s.eng.clearing then { s with eng := { s.eng with clearing := false, cleared := v.toNat % 16 == 1 } } else s

/-- A completion value goes to the die that posted (R274), or to the request engine. -/
def compTo (src tag : Nat) (hq : Option Nat) (v : BitVec 64) (s : State) : State :=
  let s := hqDone hq s
  if src < 12 then sendFabric 12 src tag 3 [v.toNat] (leBytes 8 v.toNat) s else if src = 12 ∧ tag = clearTag then clearEnds v s else s

/-- An accepted descriptor ends. -/
def finishDesc (k : Nat) (d : HubDesc) (v : BitVec 64) (s : State) : State := compTo d.src d.tag d.hq v (delHub k s)

/-- The completion value between two replication points: the skipped destinations and the highest generation, whatever the status (R296). -/
def edgeVal (st skipped gen : Nat) : BitVec 64 := BitVec.ofNat 64 (gen * 2 ^ 32 + skipped % 2 ^ 24 * 2 ^ 8 + st)

/-- The later of two fence generations (R241, R296). -/
def laterGen (a b : Nat) : Nat := if newer 32 b a then b else a

/-- An MPUT whose copies and children are done ends (R296): at the root its descriptor completes, elsewhere its COMPLETE goes to the
PARENT. -/
def mputCheck (k : Nat) (s : State) : State :=
  match hubDesc s k with
  | none => s
  | some d =>
    if !d.localDone || !d.waitFor.isEmpty then s
    else
      let st := joinStatus d.status (if 0 < d.skipped then 2 else 1)
      match d.up with
      | none => finishDesc k d (compVal st d.skipped d.gen) s
      | some (pkg, dseq) => sendComplete pkg 12 d.job dseq (edgeVal st d.skipped d.gen) (delHub k s)

/-- A destination of an MPUT is skipped (R295). -/
def skipDest (k n : Nat) (s : State) : State :=
  match hubDesc s k with
  | none => s
  | some d => setHub k { d with skipped := d.skipped + n, gen := laterGen d.gen s.fab.fence.gen.toNat } s

/-- COMPLETE received (R283, R296): the descriptor of the pair, or the child's edge of an MPUT. -/
def recvComplete (p : FabPkt) (s : State) : State :=
  let isIt (q : Nat × HubDesc) : Bool :=
    q.2.job == p.job && ((q.2.op != 4 && q.2.dstPkg == p.srcPkg && q.2.dseq == p.dseq) || (q.2.op == 4 && mfind q.2.waitFor p.srcPkg == some p.dseq))
  match s.fab.descs.find? isIt with
  | none => s
  | some (k, d) =>
    let st := p.arg % 16
    if d.op = 4 then
      mputCheck k (setHub k { d with waitFor := mdel d.waitFor p.srcPkg, skipped := d.skipped + bitsN p.arg 8 24
                                     gen := laterGen d.gen (bitsN p.arg 32 32), status := if st = 2 then d.status else joinStatus d.status st } s)
    else if d.op = 2 then
      if st ≠ 1 ∨ d.len ≤ d.done then finishDesc k d (BitVec.ofNat 64 (joinStatus st d.status)) s
      else setHub k { d with localDone := true } s
    else
      let w := joinStatus st d.status
      finishDesc k d (BitVec.ofNat 64 (if w = st then p.arg else w)) s

/-- Bytes of a GET stand at its destination (R272): with the COMPLETE and the last of them it ends. -/
def gotBytes (k n st : Nat) (s : State) : State :=
  match hubDesc s k with
  | none => s
  | some d =>
    let d := { d with done := d.done + n, status := joinStatus d.status st }
    if d.localDone ∧ d.len ≤ d.done then finishDesc k d (BitVec.ofNat 64 d.status) s else setHub k d s

/-- READ_DATA received (R264, R272, R274): the die that posted the GET writes it, by RXDATA; for a hub queue the hub writes it itself. -/
def recvReadData (p : FabPkt) (s : State) : State :=
  match s.fab.descs.find? (fun q => q.2.job == p.job && q.2.op == 2 && q.2.dstPkg == p.srcPkg && q.2.dseq == p.dseq) with
  | none => s
  | some (k, d) =>
    let a := d.laddr + p.addr
    if d.hq.isNone ∧ d.src < 12 then
      if canAsk s d.src then askDie (.got k p.payload.length) d.src 4 [a, p.poison, 3, p.flags % 2, d.pt] p.payload s
      else gotBytes k p.payload.length 4 s
    else
      let (st, s) := dieWrite 12 d.pt a p.payload p.poison s
      gotBytes k p.payload.length st s

/-- A COMPLETE or READ_DATA on its way: delivered here where the package is its own target (R266). -/
def answerFab (p : FabPkt) (s : State) : State :=
  let p := { p with srcPkg := ownPkg s }
  if p.dstPkg = ownPkg s then (if p.type = 4 then recvComplete p s else recvReadData p s) else sendFab p s

/-! ## Ordering contexts (R282 to R284) -/

def ctxKey (pkg pt : Nat) : Nat := pkg * 16 + pt
def ctxOf (s : State) (k : Nat) : Ctx9 := mget s.fab.ctxs {} k
def setCtx (k : Nat) (c : Ctx9) (s : State) : State := setFab { s.fab with ctxs := mset s.fab.ctxs k c } s
def modRx (k dseq : Nat) (f : RxDesc → RxDesc) (s : State) : State :=
  let c := ctxOf s k
  match mfind c.descs dseq with
  | none => s
  | some r => setCtx k { c with descs := mset c.descs dseq (f r) } s

/-- A READ_DATA packet of a GET (R278). -/
def readDataPkt (pkg jobId dseq pkt npkt off mask : Nat) (bs : List Byte) : FabPkt :=
  { type := 3, flags := b2n (decide (pkt + 1 = npkt)), chan := 3, dstPkg := pkg, job := jobId, dseq := dseq, pkt := pkt, npkt := npkt, addr := off
    poison := mask, payload := bs }

/-- One READ_DATA packet of a descriptor has been sent, or its read has failed. -/
def readDone (k dseq st : Nat) (s : State) : State :=
  modRx k dseq (fun r => { r with left := r.left.map (· - 1), status := joinStatus r.status st }) s

/-- A stretch of a GET's source is read (R65, R274): at a die by RXREAD, at endpoint 12 by the hub. -/
def readStretch (pkg pt jobId dseq chan ep a n pkt npkt off : Nat) (s : State) : State :=
  let k := ctxKey pkg pt
  let ok := match part s pt with
    | none => false
    | some p => rangeReaches s p false a n
  if !ok then readDone k dseq 6 s
  else if rangeFenced s ep a n then readDone k dseq 4 s
  else if canAsk s ep then askDie (.read pkg pt jobId dseq pkt npkt off ep a n) ep 6 [a, n, chan] [] s
  else if ep < 12 then readDone k dseq 4 s
  else
    let (bs, mask, s) := readRange 12 a n [] {} s
    readDone k dseq 1 (answerFab (readDataPkt pkg jobId dseq pkt npkt off mask bs) s)

/-- The reads of a GET, all of whose READ packets have arrived (R278, R282): each in stretches of PAYLOAD_MAX. -/
def startReads (pkg pt jobId dseq : Nat) (r : RxDesc) (s : State) : State :=
  let pm := payloadMax s
  let per (n : Nat) : Nat := ceilDiv n pm
  let npkt := r.reads.foldl (fun t q => t + per q.2.2.2) 0
  let s := modRx (ctxKey pkg pt) dseq (fun r => { r with reads := [], left := some npkt }) s
  r.reads.foldl (fun s q => (List.range (per q.2.2.2)).foldl (fun s i =>
    readStretch pkg pt jobId dseq r.chan q.2.1 (q.2.2.1 + pm * i) (min pm (q.2.2.2 - pm * i)) (q.1 * (65536 / pm) + i) npkt (q.1 * 65536 + pm * i) s) s) s

/-- Signals of the copies that an MPUT has made here (R270, R294, R296), each by RXSIGNAL. -/
def copySignals (h mask a v : Nat) (s : State) : State :=
  ((mcEps s mask a).filter (fun e => !epFenced s e)).foldl (fun s e =>
    if canAsk s e then askDie (.copySignal h e) e 5 [mcAddr e a] (leBytes 8 v) s
    else match hubDesc s h with
      | none => s
      | some d => setHub h { d with status := joinStatus d.status 4 } s) s

/-- The local copies of an MPUT go on (R294, R296): once all its packets are replicated and their copies committed, the signals are asked for, and then its local
side is done. -/
def copiesStep (h : Nat) (s : State) : State :=
  match hubDesc s h with
  | none => s
  | some d =>
    if !d.sent || d.localDone || awaited s h then s
    else
      let mask := match groupOf s d.pt d.group with
        | none => 0
        | some g => g.diemask
      let s := if bitN d.flags 2 ∧ d.signalled = false then copySignals h mask d.saddr d.sval (setHub h { d with signalled := true } s) else s
      match hubDesc s h with
      | none => s
      | some d => if awaited s h then s else setHub h { d with localDone := true } s

/-- The signal of an arriving descriptor that no replication carries (R283): by RXSIGNAL, or by the hub at endpoint 12. -/
def rxSignal (pkg pt jobId dseq : Nat) (q : Nat × Nat × Nat) (s : State) : State :=
  let k := ctxKey pkg pt
  let s := modRx k dseq (fun r => { r with sigSent := true }) s
  let done (st : Nat) (s : State) : State := modRx k dseq (fun r => { r with sigDone := true, status := joinStatus r.status st }) s
  if canAsk s q.1 then askDie (.signal pkg pt jobId dseq) q.1 5 [q.2.1] (leBytes 8 q.2.2) s
  else if q.1 < 12 then done 4 s
  else
    let (t, s) := if lineCut s 12 q.2.1 then (4, s) else signalAt pt q.2.1 q.2.2 true [] {} s
    done t s

/-- The oldest descriptor of a context that is not committed goes one stage on (R282, R283): its reads are begun, its signal is asked for, or it is committed and
its COMPLETE sent. False where it waits. -/
def advanceOne (pkg pt jobId : Nat) (s : State) : Bool × State :=
  let k := ctxKey pkg pt
  let c := ctxOf s k
  let next (s : State) : State :=
    let c := ctxOf s k
    setCtx k { c with low := (c.low + 1) % 2 ^ 32, descs := mdel c.descs c.low } s
  match mfind c.descs c.low with
  | none => (false, s)
  | some r =>
    if !r.reads.isEmpty then (if r.npkt ≤ r.reads.length then (true, startReads pkg pt jobId c.low r s) else (false, s))
    else if (match r.left with
      | some n => decide (0 < n)
      | none => decide (r.got.length < r.npkt)) then (false, s)
    else match r.repl with
      | some h =>
        let s := match hubDesc s h with
          | none => s
          | some d => copiesStep h (setHub h (match r.sig with
            | none => { d with sent := true }
            | some (_, a, v) => { d with sent := true, saddr := a, sval := v, flags := d.flags ||| 4 }) s)
        (match hubDesc s h with
        | none => (true, next s)
        | some d => if d.localDone then (true, mputCheck h (next (setHub h { d with status := joinStatus d.status r.status } s))) else (false, s))
      | none =>
        match r.sig with
        | some q =>
          if !r.sigSent then (true, rxSignal pkg pt jobId c.low q s)
          else if !r.sigDone then (false, s)
          else (true, answerFab { type := 4, chan := 3, dstPkg := pkg, dstEp := r.srcEp, job := jobId, dseq := c.low, arg := r.status } (next s))
        | none => (true, answerFab { type := 4, chan := 3, dstPkg := pkg, dstEp := r.srcEp, job := jobId, dseq := c.low, arg := r.status } (next s))

/-- The descriptors of a context go on in order (at most `fuel` stages). -/
def advanceCtx (fuel pkg pt jobId : Nat) (s : State) : State :=
  match fuel with
  | 0 => s
  | f + 1 =>
    let (go, s) := advanceOne pkg pt jobId s
    if go then advanceCtx f pkg pt jobId s else s
/-- Every stage that can be gone. -/
def advanceAll (pkg pt jobId : Nat) (s : State) : State := advanceCtx (4 * (ctxOf s (ctxKey pkg pt)).descs.length + 1) pkg pt jobId s

/-- The record of an arriving descriptor, made at its first packet. -/
def rxFor (k : Nat) (p : FabPkt) (s : State) : State :=
  let c := ctxOf s k
  if newer 32 c.low p.dseq || (mfind c.descs p.dseq).isSome then s
  else setCtx k { c with descs := mset c.descs p.dseq { npkt := p.npkt, srcEp := p.srcEp, chan := p.chan } } s

/-- Copies of one packet of an MPUT at a replication point (R294, R295; spec/06 R199, R200): to the endpoints of DIEMASK, and to each child. -/
def replicate (h pt : Nat) (g : GroupEnt) (p : FabPkt) (s : State) : State :=
  let jobId := p.job
  -- skipped endpoints
  let s := ((onesOf 12 g.diemask).filter (fun e => epFenced s e)).foldl (fun s e =>
    match hubDesc s h with
    | none => s
    | some d => if d.skipEps.contains e then s
        else skipDest h 1 (setHub h { d with skipEps := e :: d.skipEps } s)) s
  let s := if maskAbsent s g.diemask then
      (match hubDesc s h with
      | none => s
      | some d => setHub h { d with status := joinStatus d.status 5 } s)
    else s
  let s := match hubDesc s h with
    | none => s
    | some d => setHub h { d with gen := laterGen d.gen s.fab.fence.gen.toNat } s
  -- a copy leaves on the bundle to each endpoint, which writes it (spec/06 R199)
  let s := ((mcEps s g.diemask p.addr).filter (fun e => !epFenced s e)).foldl (fun s e =>
    if reachesEp s 12 e then
      let (t, s) := noteWork (.copy h e) s
      send (.packet 1 12 e t [p.chan % 8, 1 + 4 * (p.flags % 2), 12, pt, p.addr, p.poison, 0, g.diemask] p.payload) s
    else match hubDesc s h with
      | none => s
      | some d => setHub h { d with status := joinStatus d.status 4 } s) s
  g.children.foldl (fun s q =>
    match hubDesc s h with
    | none => s
    | some d =>
      match mfind d.waitFor q.1 with
      | none => s
      | some dseq =>
        if pkgFenced s q.1 then skipDest h q.2 (setHub h { d with waitFor := mdel d.waitFor q.1 } s)
        else
          let (o, s) := takeOseq q.1 pt p.chan s
          sendFab { p with flags := p.flags % 8, dstPkg := q.1, dstEp := 12, srcEp := 12, seq := 0, job := jobId, dseq := dseq, oseq := o } s) s

/-- The DSEQ of each edge to a child, taken as a replication point begins (R294). -/
def takeEdges (pt : Nat) (g : GroupEnt) (s : State) : Map Nat × State :=
  g.children.foldl (fun (x : Map Nat × State) q =>
    let (n, s) := takeDseq q.1 pt x.2
    (mset x.1 q.1 n, s)) ([], s)

/-- A packet of an arriving descriptor is committed (R274, R283). -/
def packetDone (k dseq pkt st : Nat) (s : State) : State :=
  modRx k dseq (fun r => { r with got := addOnce r.got pkt, status := joinStatus r.status st }) s

/-- One DATA or READ packet of a pair, in its turn (R274, R283): a die is asked to write data, and the packet is committed by the die's answer. `grp` is the group
of an MCAST copy. -/
def commitPkt (pt grp : Nat) (p : FabPkt) (s : State) : State :=
  let k := ctxKey p.srcPkg pt
  let s := rxFor k p s
  let c := ctxOf s k
  match mfind c.descs p.dseq with
  | none => s
  | some r =>
    if r.sent.contains p.pkt || r.got.contains p.pkt || r.left.isSome || r.reads.any (fun q => q.1 == p.pkt) then s
    else if !bitN p.flags 2 ∧ !epPresent s p.dstEp then
      -- the endpoint is absent on this part (R266, spec/01 R23): nothing is transferred, and the descriptor ends BAD_RANK
      packetDone k p.dseq p.pkt 5 s
    else if p.type = 2 then modRx k p.dseq (fun r => { r with reads := r.reads ++ [(p.pkt, p.dstEp, p.addr, p.arg)] }) s
    else
      let sig := if bitN p.flags 1 then some (p.dstEp, p.saddr, p.arg) else r.sig
      let s := modRx k p.dseq (fun r => { r with sent := addOnce r.sent p.pkt, sig := sig }) s
      if bitN p.flags 2 then
        match groupOf s pt grp with
        | none => s
        | some g =>
          let (h, s) := match r.repl with
            | some h => (h, s)
            | none =>
              let h := hubKey 13 (s.fab.nextTag % 65536)
              let s := setFab { s.fab with nextTag := s.fab.nextTag + 1 } s
              let (w, s) := takeEdges pt g s
              (h, setHub h { src := 13, tag := 0, pt := pt, job := p.job, op := 4, flags := 0, dstPkg := 0, dstEp := 0, laddr := 0
                             raddr := 0, len := 0, saddr := 0, sval := 0, npkt := p.npkt, group := grp, waitFor := w
                             gen := s.fab.fence.gen.toNat, up := some (p.srcPkg, p.dseq) } s)
          packetDone k p.dseq p.pkt 1 (modRx k p.dseq (fun r => { r with repl := some h }) (replicate h pt g p s))
      else if canAsk s p.dstEp then
        askDie (.data p.srcPkg pt p.job p.dseq p.pkt) p.dstEp 4 [p.addr, p.poison, p.chan, p.flags % 2, pt] p.payload s
      else if p.dstEp < 12 then packetDone k p.dseq p.pkt 4 s
      else
        let (st, s) := dieWrite 12 pt p.addr p.payload p.poison s
        packetDone k p.dseq p.pkt st s

/-- ORDERED packets held for a lower OSEQ, taken as it arrives (at most `fuel`). -/
def drainHeld (fuel pt : Nat) (k ch : Nat) (s : State) : State :=
  match fuel with
  | 0 => s
  | f + 1 =>
    let c := ctxOf s k
    let nx := if ch = 0 then c.oseq0 else c.oseq1
    match c.held.find? (fun q => q.2.chan == ch && q.2.oseq == nx) with
    | none => s
    | some q =>
      let c := { c with held := c.held.erase q }
      let c := if ch = 0 then { c with oseq0 := (nx + 1) % 2 ^ 32 } else { c with oseq1 := (nx + 1) % 2 ^ 32 }
      drainHeld f pt k ch (commitPkt pt q.1 q.2 (setCtx k c s))

/-- A DATA or READ packet that its stream has accepted, for a partition's ACTIVE job (R282, R283). READ takes no OSEQ turn of its own
where its channel is BULK. -/
def recvPair (pt grp : Nat) (p : FabPkt) (s : State) : State :=
  let k := ctxKey p.srcPkg pt
  let s := if p.chan < 2 then
      let c := ctxOf s k
      drainHeld (c.held.length + 1) pt k p.chan (setCtx k { c with held := c.held ++ [(grp, p)] } s)
    else commitPkt pt grp p s
  advanceAll p.srcPkg pt p.job s

/-- A DATA or READ packet on its way: delivered here where the package is its own target (R266). -/
def deliverFab (pt : Nat) (p : FabPkt) (s : State) : State :=
  let p := { p with srcPkg := ownPkg s }
  if p.dstPkg = ownPkg s then recvPair pt 0 p s else sendFab p s

/-! ## Accepting descriptors (R264, R266, R269, R282) -/

/-- The data packet `off` of an accepted descriptor. -/
def dataPkt (d : HubDesc) (pm off mask : Nat) (bs : List Byte) (oseq : Nat) : FabPkt :=
  let i := off / pm
  let last := decide (i + 1 = d.npkt)
  let sig := last && (d.op == 3 || (d.op == 4 && bitN d.flags 2))
  { type := 1, flags := b2n last + 2 * b2n sig + 4 * b2n (d.op == 4), dstEp := d.dstEp, srcEp := if d.src < 12 then d.src else 12
    chan := if bitN d.flags 0 then b2n (bitN d.flags 1) else 2
    dstPkg := d.dstPkg, job := d.job, dseq := d.dseq, oseq := oseq, pkt := i, npkt := d.npkt, addr := d.raddr + off
    arg := if sig then d.sval else 0, poison := mask, saddr := if sig then d.saddr else 0, payload := bs }

/-- An MPUT at its root goes on: its local side, and its end. -/
def rootStep (h : Nat) (s : State) : State := mputCheck h (copiesStep h s)

/-- One packet of put data goes out (R274): to the destination, or as the root of its tree. -/
def putPacket (k off mask : Nat) (bs : List Byte) (s : State) : State :=
  match hubDesc s k with
  | none => s
  | some d =>
    let ch := if bitN d.flags 0 then b2n (bitN d.flags 1) else 2
    let s := setHub k { d with done := d.done + 1 } s
    if d.op = 4 then
      match groupOf s d.pt d.group with
      | none => s
      | some g =>
        let s := replicate k d.pt g (dataPkt d (payloadMax s) off mask bs 0) s
        if d.npkt ≤ d.done + 1 then
          (match hubDesc s k with
          | none => s
          | some d => rootStep k (setHub k { d with sent := true } s))
        else s
    else
      let (o, s) := takeOseq d.dstPkg d.pt ch s
      deliverFab d.pt (dataPkt d (payloadMax s) off mask bs o) s

/-- The READ packets of a GET, up to 65,536 bytes each. -/
def sendReads (d : HubDesc) (s : State) : State :=
  let ch := if bitN d.flags 0 then b2n (bitN d.flags 1) else 2
  (List.range d.npkt).foldl (fun s i =>
    let (o, s) := takeOseq d.dstPkg d.pt ch s
    deliverFab d.pt { type := 2, flags := b2n (decide (i + 1 = d.npkt)), dstEp := d.dstEp, srcEp := if d.src < 12 then d.src else 12, chan := ch
                      dstPkg := d.dstPkg, job := d.job, dseq := d.dseq, oseq := o, pkt := i, npkt := d.npkt
                      addr := d.raddr + 65536 * i, arg := min 65536 (d.len - 65536 * i) } s) s

/-- The hub accepts a descriptor (R264): rank or group translation, the DSEQ of its pair, a GET's reads, a signal alone. -/
def acceptDesc (src tag pt queue : Nat) (hq : Option Nat) (bs : List Byte) (s : State) : State :=
  let d := parseDesc bs
  let j := job s pt
  let k := hubKey src tag
  let stop (st : Nat) (s : State) : State := compTo src tag hq (BitVec.ofNat 64 st) s
  match postCheck s pt bs with
  | some st =>
    match badField bs with
    | some off => stop st (malformed 12 queue bs off s)
    | none => stop st s
  | none =>
    let n := if d.op = 2 then ceilDiv d.len 65536 else max 1 (ceilDiv d.len (payloadMax s))
    let base : HubDesc := { src := src, tag := tag, hq := hq, pt := pt, job := j.id, op := d.op, flags := d.flags, dstPkg := 0, dstEp := 0
                            laddr := d.laddr, raddr := d.raddr, len := d.len, saddr := d.saddr, sval := d.sval, npkt := n }
    if d.op = 4 then
      match groupOf s pt d.target with
      | none => stop 5 s
      | some g =>
        if !g.root then stop 6 (malformed (if hq.isSome ∨ 12 ≤ src then 12 else src) queue bs 4 s)
        else if maskAbsent s g.diemask then stop 5 s
        else
          let (w, s) := takeEdges pt g s
          let s := setHub k { base with group := d.target, waitFor := w, gen := s.fab.fence.gen.toNat } s
          if d.len = 0 then putPacket k 0 0 [] s else s
    else
      match translate s j d.target with
      | none => stop 5 s
      | some (pkg, ep) =>
        let (q, s) := takeDseq pkg pt s
        let x := { base with dstPkg := pkg, dstEp := ep, dseq := q }
        let s := setHub k x s
        if d.op = 2 then sendReads x s
        else if d.len = 0 then putPacket k 0 0 [] s else s

/-- A die's descriptor reaches the hub (R66, R264, R274). -/
def takeDesc (st tag queue : Nat) (hub : Bool) (bs : List Byte) (s : State) : State :=
  if (hubDesc s (hubKey st tag)).isSome || bs.length != 64 then s
  else match partOfStack s st with
    | none => compTo st tag none 5 s
    | some pt =>
      if !hub then acceptDesc st tag pt queue none bs s
      else
        let q := mget s.fab.hqs {} queue
        if q.owner ≠ some pt then compTo st tag none 5 s
        else if 64 ≤ q.descs.length then s
        else setFab { s.fab with hqs := mset s.fab.hqs queue { q with descs := q.descs ++ [(st, tag, bs)], open_ := q.open_ + 1 } } s

/-- A hub queue of the request engine that has room, the lowest (R264). -/
def engineQueue (s : State) : Option Nat :=
  ((List.range 32).filter (fun q => (mget s.fab.hqs {} q).owner == some 12 && decide ((mget s.fab.hqs {} q).descs.length < 64))).head?

/-- The request engine posts a descriptor to a hub queue that is assigned to it (R264). -/
def enginePost (q tag : Nat) (bs : List Byte) (s : State) : State :=
  setFab { s.fab with hqs := mmod s.fab.hqs {} q (fun y => { y with descs := y.descs ++ [(12, tag, bs)], open_ := y.open_ + 1 }) } s

/-- Put data of a die's descriptor reaches the hub (R274). -/
def takeTxdata (st tag off mask : Nat) (bs : List Byte) (s : State) : State :=
  match hubDesc s (hubKey st tag) with
  | none => s
  | some d => if d.op = 2 ∨ d.len < off + bs.length ∨ off % payloadMax s ≠ 0 then s else putPacket (hubKey st tag) off mask bs s

/-- One turn of the hub's engine on hub queue `q` (R66, R264): the head is accepted, or the next packet of its data read and sent. A
descriptor that leaves gives its die a credit. -/
def hubTurn (q : Nat) (fs : List LineFind) (s : State) : State :=
  let x := mget s.fab.hqs {} q
  match x.descs with
  | [] => s
  | (die, tag, bs) :: rest =>
    let d := parseDesc bs
    let rot (s : State) : State := setEng 12 { dieEng s 12 with rot := q } s
    let leave (s : State) : State :=
      let s := setFab { s.fab with hqs := mmod s.fab.hqs {} q (fun y => { y with descs := rest, off := none }) } s
      if die < 12 then sendFabric 12 die tag 8 [q, 1] [] s else s
    match x.off, x.owner with
    | none, some pt =>
      let s := acceptDesc die tag (if pt = 12 then enginePart s else pt) q (some q) bs (rot s)
      -- a source of the hub's own that is fenced or cut off (R273)
      let s := match hubDesc s (hubKey die tag) with
        | none => s
        | some h => if d.op ≠ 2 ∧ rangeFenced s 12 d.laddr d.len = true then setHub (hubKey die tag) { h with status := joinStatus h.status 4 } s else s
      if d.op = 2 || d.len == 0 || (hubDesc s (hubKey die tag)).isNone then leave s
      else setFab { s.fab with hqs := mmod s.fab.hqs {} q (fun y => { y with off := some 0 }) } s
    | some off, _ =>
      let n := min (payloadMax s) (d.len - off)
      let (data, mask, s) := readRange 12 (d.laddr + off) n fs {} (rot s)
      let s := if d.len ≤ off + n then leave s
        else setFab { s.fab with hqs := mmod s.fab.hqs {} q (fun y => { y with off := some (off + n) }) } s
      putPacket (hubKey die tag) off mask data s
    | none, none => s

/-- The hub queue that the hub's engine serves next. -/
def hubNext (s : State) : Option Nat :=
  (rotation 32 (dieEng s 12).rot).find? (fun q =>
    let x := mget s.fab.hqs {} q
    match x.descs, x.owner with
    | (_, _, bs) :: _, some pt => (x.off.isSome || !safeState s 2 0) && canServe s (if pt = 12 then enginePart s else pt) bs
    | _, _ => false)

/-- DESC_ENGINE_TURN (R271): the engine of a die, or of the hub (12), serves one packet from its next queue. -/
def descEngineTurnEff (unit : Nat) (fs : List LineFind) (e : Ecc) (s : State) : State :=
  if unit < 12 then
    let s := settleDie unit s
    match partOfStack s unit with
    | none => s
    | some pt => match nextQueue s pt (dieEng s unit) with
      | none => s
      | some (q, x, rest) => dieTurn unit pt q x rest fs e s
  else
    match hubNext s with
    | none => s
    | some q => hubTurn q fs s

/-! ## The die's side of arriving traffic (R274) -/

/-- A die's answer to the hub: the commit (R274). -/
def answerHub (ep pt tag st : Nat) (s : State) : State := send (.packet 5 ep 12 tag [st, 0, pt] []) s

/-- A die writes arriving data and answers with the commit. -/
def takeRxdata (ep pt tag a mask : Nat) (bs : List Byte) (s : State) : State :=
  if epFenced s ep then s
  else
    let (st, s) := dieWrite ep pt a bs mask s
    answerHub ep pt tag st s

/-- An atomic addition, and the commit. -/
def takeRxsignal (ep pt tag a v : Nat) (fs : List LineFind) (e : Ecc) (s : State) : State :=
  if epFenced s ep then s
  else
    let (st, s) := if lineCut s ep a then (4, s) else signalAt pt a v false fs e s
    answerHub ep pt tag st s

/-- A die reads up to 4,096 bytes and answers with RDDATA, without a payload where it may not read them. -/
def takeRxread (ep pt tag a n : Nat) (fs : List LineFind) (e : Ecc) (s : State) : State :=
  if epFenced s ep || decide (4096 < n) then s
  else
    let ok := (part s pt).any (fun p => rangeReaches s p false a n) && !rangeFenced s ep a n
    if !ok then sendFabric ep 12 tag 7 [0, 0] [] s
    else
      let (bs, mask, s) := readRange ep a n fs e s
      sendFabric ep 12 tag 7 [0, mask] bs s

/-! ## What dies answer (R274) -/

def delWork (t : Nat) (s : State) : State := setFab { s.fab with works := mdel s.fab.works t } s
/-- A copy of an MPUT, or its signal, is done here with a status: the MPUT goes on. -/
def copyDone (h st : Nat) (s : State) : State :=
  match hubDesc s h with
  | none => s
  | some d =>
    let s := setHub h { d with status := joinStatus d.status st } s
    match d.up with
    | none => rootStep h s
    | some (pkg, _) => advanceAll pkg d.pt d.job s

/-- The commit of what the hub has asked a die for, by its TAG. -/
def commitGot (t st : Nat) (s : State) : State :=
  match mfind s.fab.works t with
  | none => s
  | some w =>
    let s := delWork t s
    match w with
    | .data pkg pt jobId dseq pkt => advanceAll pkg pt jobId (packetDone (ctxKey pkg pt) dseq pkt st s)
    | .signal pkg pt jobId dseq =>
      advanceAll pkg pt jobId (modRx (ctxKey pkg pt) dseq (fun r => { r with sigDone := true, status := joinStatus r.status st }) s)
    | .got h n => gotBytes h n st s
    | .copy h _ => copyDone h st s
    | .copySignal h _ => copyDone h st s
    | .read .. => s

/-- Data that an RXREAD has read reaches the hub, which sends it on; without a payload the read has failed (R65, R273): by the windows, or FENCED. -/
def takeRddata (t mask : Nat) (bs : List Byte) (s : State) : State :=
  match mfind s.fab.works t with
  | some (.read pkg pt jobId dseq pkt npkt off _ a n) =>
    let s := delWork t s
    let k := ctxKey pkg pt
    advanceAll pkg pt jobId (
      if bs.length = n then readDone k dseq 1 (answerFab (readDataPkt pkg jobId dseq pkt npkt off mask bs) s)
      else readDone k dseq (if (part s pt).any (fun p => rangeReaches s p false a n) then 4 else 6) s)
  | _ => s

/-- A copy of an MPUT is discarded at an endpoint that has been fenced since it left: it counts as skipped (spec/06 R200). -/
def copySkipped (t : Nat) (s : State) : State :=
  match mfind s.fab.works t with
  | some (.copy h ep) =>
    let s := delWork t s
    (match hubDesc s h with
    | none => s
    | some d => copyDone h 1 (if d.skipEps.contains ep then s else skipDest h 1 (setHub h { d with skipEps := ep :: d.skipEps } s)))
  | _ => s

end Sys2Proof.Machine
end

