-- ==== Sys2Proof/Machine/Buffers.lean ====
section
/-! DEFINITION. Buffers.lean: HBM4 that a command reads or writes without a window check (spec/12 R368, R486). -/
namespace Sys2Proof.Machine

/-- What a buffer access finds: the bytes, or the DETAIL of FAILED. -/
inductive BufOut where
  | data (bs : List Byte)
  | bad (detail : Nat)
  deriving DecidableEq, Repr

/-- A line of HBM4 as the hub reads and writes it: where no bundle and no relay leads to it, it is as one that is fenced (spec/05 R155). -/
def hubRead (a : Nat) (fs : List LineFind) (s : State) : LineOut × State := if lineCut s 12 a then (.fenced, s) else readLine a fs s
def hubWrite (a : Nat) (bs : List Byte) (poison : Bool) (s : State) : Bool × State := if lineCut s 12 a then (false, s) else writeLine a bs poison s

/-- The lines of a buffer read in order; it stops at the first poisoned line (0xF0), or fenced line (0xF1) or one that no bundle and no relay reaches (spec/05
R155). -/
def bufRead (a n : Nat) (fs : List LineFind) (s : State) : BufOut × State :=
  let r := (linesOf a n).foldl (fun (x : Option Nat × State) l =>
    match x.1 with
    | some d => (some d, x.2)
    | none =>
      if lineCut x.2 12 l then (some 0xF1, x.2)
      else
      let (o, s) := readDpa l fs {} 4 x.2
      match o with
      | .data _ => (none, s)
      | .poison _ => (some 0xF0, s)
      | .fenced => (some 0xF1, s)) (none, s)
  match r.1 with
  | some d => (.bad d, r.2)
  | none => (.data (getBs r.2.mem.m a n), r.2)

/-- Bytes written to a buffer, line by line; a fenced line stops it (0xF1), and the lines before hold the new bytes. -/
def bufWrite (a : Nat) (bs : List Byte) (s : State) : Option Nat × State :=
  (pieces a bs 0).foldl (fun (x : Option Nat × State) q =>
    match x.1 with
    | some d => (some d, x.2)
    | none =>
      if lineCut x.2 12 q.1 then (some 0xF1, x.2)
      else
        let (ok, s) := writeDpa q.1 q.2.1 [] x.2
        (if ok then none else some 0xF1, s)) (none, s)

end Sys2Proof.Machine
end

