-- ==== Sys2Proof/Machine/HbmRows.lean ====
section
/-! DEFINITION. HbmRows.lean: scrubbing, the vertical channels, HBM4 patrol and sparing, and the memory commands (spec/04 R118 to R123, R126,
R132 to R137, R490; spec/12 R368). -/
namespace Sys2Proof.Machine

/-! ## SRAM scrubbing (R118) -/

/-- The scrubber of an array: kind 0 scratch, 1 slice (of a core), 2 cluster memory (of a cluster); its words; where it begins. -/
def scrubKey (kind unit : Nat) : Nat := if kind = 2 then 2 ^ 16 + unit else unit * 4 + kind
def arrayWords (kind : Nat) : Nat := if kind = 2 then 2097152 else if kind = 1 then 262144 else 65536
def arrayBase (kind unit : Nat) : Nat := if kind = 2 then cmBase unit else if kind = 1 then slBase unit else scrBase unit

/-- SRAM_SCRUB: the next word read; a corrected one is rewritten, an uncorrectable one is left as it is. -/
def sramScrubEff (kind unit : Nat) (corr bad : Bool) (s : State) : State :=
  if 2 < kind then s
  else
    let k := mget s.mem.scrubs {} (scrubKey kind unit)
    let a := arrayBase kind unit + 8 * k.pos
    let last := decide (arrayWords kind ≤ k.pos + 1)
    let k' : Scrub := if last then { pos := 0, slow := false } else { k with pos := k.pos + 1 }
    let s := { s with mem := { s.mem with scrubs := mset s.mem.scrubs (scrubKey kind unit) k' } }
    if bad || isPoison s.mem.m a then reportBad 5 [a] s
    else if corr then sramCorr kind (if kind = 2 then unit else unit / 16) s
    else s

/-- SRAM_SCRUB_TIMEOUT: a pass not complete after 60 s. The spec states no arguments of SCRUB_SLOW: they are free (log 8). -/
def sramScrubTimeoutEff (kind unit : Nat) (s : State) : State :=
  if 2 < kind then s
  else
    let k := mget s.mem.scrubs {} (scrubKey kind unit)
    if k.slow then s
    else
      let (w, s) := drawWord { s with mem := { s.mem with scrubs := mset s.mem.scrubs (scrubKey kind unit) { k with slow := true } } }
      emitW (if kind = 2 then siteKC (unit / 8) else coreSite unit) (if kind = 2 then unit % 8 else coreCluster unit % 8) Ev.scrubSlow [w] s

/-! ## Vertical channels (R119 to R123) -/

/-- VC_BEAT_REPLAY (R120): a beat of physical core `p` arrives with a CRC mismatch; `again` where it is itself a replay. A beat that fails
all 3 replays, or the 16th replay within 1 ms, makes a lane test due. -/
def vcBeatReplayEff (p : Nat) (again : Bool) (s : State) : State :=
  let v := vcOf s p
  if v.state = 3 ∨ v.testing then s
  else
    let tries := if again then v.tries + 1 else 1
    if 3 < tries then setVc p { v with tries := 0, due := true } s
    else
      let l := (s.now :: v.replays).filter (fun t => decide (s.now < t + 1000000))
      bump 0x1003 (wordOfCore ((logicalOf s p).getD p)) 1
        (setVc p { v with tries := tries, replays := l, due := v.due || decide (16 ≤ l.length) } s)

/-- LANE_TEST (R120): the channel stops, and patterns drive every lane. -/
def laneTestEff (p : Nat) (s : State) : State :=
  let v := vcOf s p
  if v.due && v.state != 3 then setVc p { v with due := false, testing := true, tries := 0, replays := [] } s else s

/-- LANE_TEST_DONE (R121): whether a control lane failed, the failed lanes of D0 to D7, and what the test of the spare's channel finds where the core
is fenced (R122). In HALF a failed lane of the unused half meets no case of the table: it takes no spare, and counts among the failed lanes of the event
(DESIGN CHOICE, log 50). -/
def laneTestDoneEff (p : Nat) (ctrl : Bool) (failed : List Nat) (spare : LaneFind) (s : State) : State :=
  if !(vcOf s p).testing then s
  else
    let f : LaneFind := { ctrl := ctrl, failed := failed }
    let v := { vcOf s p with testing := false }
    let s := noteTests (fun t => t.kind == 2 && t.site == coreSite p) (fun t => { t with found := t.found + failed.foldl (· + ·) 0 }) s
    let fence (cause : Nat) : State := fenceCore spare p cause (setVc p { v with state := 3, prior := v.state } s)
    match laneCase v f with
    | .control => fence 1
    | .half => fence 2
    | .narrow half =>
      emit (coreSite p) Ev.vcHalfWidth [wordOfCore p, half]
        (setVc p { v with state := 2, half := half, spares := sparesLeft v f (some half) } s)
    | .repair => repairLanes p v f s
    | .clean => setVc p v s

/-- VLANE_RECAL (R123): one lane recalibrated in an idle cycle. -/
def vlaneRecalEff (p : Nat) (s : State) : State :=
  let v := vcOf s p
  if v.state = 3 ∨ v.testing then s else setVc p { v with recals := v.recals + 1 } s

/-! ## Addresses from places (R127, R128) -/

/-- The device physical address of an offset of a stack: the inverse of the interleave. -/
def addrOfOffset (s : State) (m o : Nat) : Nat :=
  let k := tlShare s
  let gib := 2 ^ 30
  if s.pkg.part = 2 then
    let q := o / 4096
    (4 * q + ((m % 4) ^^^ (q % 4) ^^^ (q / 4 % 4))) * 4096 + o % 4096
  else if o < (48 - k) * gib then
    let q := o / 4096
    (16 * q + ((m % 16) ^^^ (q % 16) ^^^ (q / 16 % 16))) * 4096 + o % 4096
  else
    let q := (o - (48 - k) * gib) / 4096
    16 * (48 - k) * gib + m / 4 * 4 * k * gib + (4 * q + ((m % 4) ^^^ (q % 4))) * 4096 + o % 4096

/-- The stack offset of a line of a pseudo-channel. -/
def offsetOf (pc line : Nat) : Nat :=
  let a := line * 64
  let q := a / 256
  (64 * q + (pc ^^^ (q % 64))) * 256 + a % 256

/-- The device physical address of a line of a pseudo-channel. -/
def addrOfLine (s : State) (m pc line : Nat) : Nat := addrOfOffset s m (offsetOf pc line)

/-- Lines of a stack, of a channel. -/
def stackLines : Nat := 805306368
def chanLines : Nat := 25165824

/-! ## Patrol (R132) -/

/-- Hours of a patrol pass: SCRUB_HOURS, or 24 in the safe state (R126; spec/11 R335). -/
def scrubHours (s : State) (m : Nat) : Nat := if safeState s 7 (m / 4) then 24 else cfgEff s 3 (m / 4) % 128

/-- SCRUB_SLOW of a stack, `done` lines of the pass being read: raised when it stands more than 10 % behind, cleared when it has caught up. -/
def patrolPace (m done : Nat) (s : State) : State :=
  let h := stackAt s m
  let total := scrubHours s m * 3600 * 10 ^ 9
  let el := s.now - h.passStart
  if !h.scrubSlow && decide (10 * done * total < 9 * el * stackLines) then
    let (w, s) := drawWord (setStack m { h with scrubSlow := true } s)
    emitW (stackSite m) 1 Ev.scrubSlow [w] s
  else if h.scrubSlow && decide (el * stackLines ≤ done * total) then setStack m { h with scrubSlow := false } s
  else s

/-- HBM_PATROL_READ: the next line of a stack is read and decoded. A pass begins at offset 0. Errors that the command names in other lines have arisen
there, and stand until a read or a merge meets them. -/
def hbmPatrolReadEff (m : Nat) (fs : List LineFind) (s : State) : State :=
  if hbmStacks s.pkg.part ≤ m ∨ 2 ≤ s.pkg.power then s
  else
    let h := stackAt s m
    let h := if h.patrol = 0 then { h with corrected := [], twoSym := [], passStart := s.now } else h
    let a := addrOfOffset s m (h.patrol * 64)
    let (_, s) := readLine a fs (upset (fs.filter (fun f => f.addr != a)) (setStack m h s))
    let h := stackAt s m
    patrolPace m (h.patrol + 1) (setStack m { h with patrol := if stackLines ≤ h.patrol + 1 then 0 else h.patrol + 1 } s)

/-! ## Row sparing (R133, R134) -/

/-- The reading of one line of a row into the controller's buffer: a line of order 1 or 2 starts no further sparing (R133). -/
def bufferLine (m row : Nat) (fs : List LineFind) (s : State) (i : Nat) : State :=
  let a := addrOfLine s m (row / 2 ^ 20) (row % 2 ^ 20 * 16 + i)
  let p := placeOf s a
  let s := bump 0x3001 m 1 s
  match errorsOf fs a s with
  | none => if isPoison s.mem.m a then bump 0x3004 m 1 s else unfresh p s
  | some f =>
    match verdict s a f.errs with
    | .lost => unfresh p (poisonLine a 0 p s)
    | .moved => unfresh p (poisonLine a 1 p s)
    | .line _ true _ => bump 0x3004 m 1 s
    | .line _ false 0 => unfresh p s
    | .line d false n =>
      let s := bump 0x3003 m 1 (rewriteLine a d p s)
      let h := stackAt s m
      setStack m (countTwo p (if n = 2 then f.ifLine else none) { h with fresh := addOnce h.fresh (lineKey h p) }) s

/-- HBM_ROW_SPARING: a row that is due is read, repaired and written back; or its bank has no repair left. Two-symbol corrections of
the reading count toward the channel's sparing (R135: by any read). -/
def hbmRowSparingEff (m row : Nat) (fs : List LineFind) (s : State) : State :=
  let h := stackAt s m
  if !h.due.contains row then s
  else if h.retired.contains (row / 2 ^ 21) || h.heat.contains (row / 2 ^ 21) then setStack m { h with due := dropEl h.due row } s
  else if !rowWaits h row && decide (repairsUsed h row < 2) then
    let s := spareRow m row ((List.range 16).foldl (bufferLine m row fs) s)
    ((stackAt s m).twoSym.filter (fun q => q.1 / 256 == row / 2 ^ 20)).foldl (fun s q => twoFull m (row / 2 ^ 20) (some (q.1 % 256)) s) s
  else spareRow m row s

/-! ## Channel sparing (R135 to R137, R490) -/

/-- HBM_CHANNEL_COPY_LINE: the line at the watermark moves to the spare. The last one puts the spare in use. -/
def hbmChannelCopyLineEff (m : Nat) (fs : List LineFind) (s : State) : State :=
  match (stackAt s m).spare with
  | .copying k =>
    let a := addrOfLine s m (2 * k.chan + k.mark % 2) (k.mark / 2)
    let (_, s) := if (stackAt s m).fencedRows.contains ((2 * k.chan + k.mark % 2) * 2 ^ 20 + k.mark / 2 / 16) then (.fenced, s)
      else decodeLine a fs s
    let h := stackAt s m
    match h.spare with
    | .copying k =>
      if chanLines ≤ k.mark + 1 then
        emit (stackSite m) Ev.hbmChannelSpared [m, k.chan, k.trigger]
          (setStack m { h with spare := .inUse k.chan, logSpared := some k.chan } s)
      else setStack m { h with spare := .copying { k with mark := k.mark + 1 } } s
    | _ => s
  | _ => s

/-- HBM_SPARE_FAILED: during a copy, which is abandoned and its held rows fenced; while idle; or in service, whose channel is retired. -/
def hbmSpareFailedEff (m : Nat) (s : State) : State :=
  let h := stackAt s m
  let failed (ch : Option Nat) : Hbm := { h with spare := .failed ch, logFailed := true }
  let drop (ch : Nat) (h : Hbm) : Hbm := { h with due := h.due.filter (fun row => row / 2 ^ 21 != ch) }
  match h.spare with
  | .copying k =>
    -- every line is served from the old channel, as it stands there (R490)
    let s := k.old.foldl (fun s q => setMem s (if q.2.2 then setPoison (putBs s.mem.m q.1 q.2.1) q.1 else writeBs s.mem.m q.1 q.2.1)) s
    k.heldRows.foldl (fun s row => fenceRow m row s)
      (emit (stackSite m) Ev.hbmSpareFailed [m, k.chan, 3] (setStack m (drop k.chan (failed none)) s))
  | .free => emit (stackSite m) Ev.hbmSpareFailed [m, absentArg, 4] (setStack m (failed none) s)
  | .inUse ch => retireChannel m ch 5 (emit (stackSite m) Ev.hbmSpareFailed [m, ch, 5] (setStack m (drop ch (failed (some ch))) s))
  | .failed _ => s

/-- HBM_SPARE_TEST (R490): an idle spare is tested by a pattern. -/
def hbmSpareTestEff (m : Nat) (pass : Bool) (s : State) : State :=
  match (stackAt s m).spare with
  | .free => if pass then s else hbmSpareFailedEff m s
  | _ => s

/-- HBM_INTERFACE_ERROR (R135): a channel trains again; where it fails it is spared, and where the spare serves it the spare has failed. -/
def hbmInterfaceErrorEff (m ch : Nat) (trains : Bool) (s : State) : State :=
  if trains ∨ hbmStacks s.pkg.part ≤ m ∨ 32 ≤ ch ∨ 2 ≤ s.pkg.power then s
  else match (stackAt s m).spare with
    | .inUse c => if c = ch then hbmSpareFailedEff m s else spareChannel m ch 2 [] s
    | _ => spareChannel m ch 2 [] s

/-! ## Commands -/

/-- A granule of a stack, by its offset in granules, holds a line that no storage serves (R134, R137). -/
def granListed (h : Hbm) (g : Nat) : Bool :=
  let q := ((16 * g % 64) ^^^ (16 * g / 64 % 64)) / 16
  (h.retired ++ h.heat).any (fun c => c / 8 == q)
    || h.fencedRows.any (fun row => (List.range 4).any (fun b =>
        offsetOf (row / 2 ^ 20) (row % 2 ^ 20 * 16 + 4 * b) / 4096 == g))

/-- The published granules of a stack as device physical addresses, ascending. -/
def granules (s : State) (m : Nat) : List Nat :=
  let h := stackAt s m
  if h.retired.isEmpty && h.heat.isEmpty && h.fencedRows.isEmpty then []
  else ((List.range 12582912).filter (granListed h)).map (fun g => addrOfOffset s m (4096 * g))

/-- MEM_STATUS. -/
def memStatusEff (r : Req) : State → State := runCmd 0x0300 r (fun s _ =>
  let m := argN r 0
  if hbmStacks s.pkg.part ≤ m then .bad stAbsent 0
  else
    let h := stackAt s m
    let sp := match h.spare with
      | .free => 0
      | .copying k => 1 + 4 * k.chan
      | .inUse c => 2 + 4 * c
      | .failed c => 3 + 4 * c.getD 0
    .ok s ([cfgEff s 3 (m / 4), maskOf (h.retired ++ h.heat), sp, h.fencedRows.length, (granules s m).length].map (BitVec.ofNat 32)))

/-- MEM_GRANULES (R137). -/
def memGranulesEff (r : Req) : State → State := runCmd 0x0301 r (fun s _ =>
  let m := argN r 0
  let a := addrArg r 1
  if !inHbm s.pkg.part a (argN r 3) then .bad stBadArg 1
  else if hbmStacks s.pkg.part ≤ m then .bad stAbsent 0
  else
    let l := granules s m
    let w := l.take (argN r 3 / 8)
    match bufWrite a (w.flatMap (fun x => leBytes 8 x)) s with
    | (some d, s) => .fail s stFailed d
    | (none, s) => .ok s [BitVec.ofNat 32 w.length, BitVec.ofNat 32 l.length])

/-- MEM_SCRUB (R126). -/
def memScrubEff (r : Req) : State → State := runCmd 0x0302 r (fun s _ =>
  let g := argN r 0
  let hrs := argN r 1
  if hrs < 6 ∨ 72 < hrs then .bad stBadArg 1
  else if tilesOf s.pkg.part ≤ g then .bad stAbsent 0
  else
    let c := cfgItem s 3 g
    .ok (setCfg s 3 g { c with eff := BitVec.ofNat 64 (c.eff.toNat / 128 * 128 + hrs), src := 2 }) [])

end Sys2Proof.Machine
end

