-- ==== Sys2Proof/Machine/Ports.lean ====
section
/-! DEFINITION. Ports.lean: training, retraining and fencing of down ports (spec/06 R201 to R207). A port is stack * 12 + port; side 0 is
the die, side 1 the tile. -/
namespace Sys2Proof.Machine

def portDie (port : Nat) : Nat := port / 12
/-- The side's controller. -/
def sideSite (port side : Nat) : Nat := if side = 0 then siteKC (portDie port) else siteLT (portDie port / 3)
/-- The bundles that a port carries now: its own, and those of a neighbour that it has adopted. -/
def carriedBy (s : State) (port : Nat) : List Nat :=
  (List.range 452).filter (fun b => bundleOn s.pkg.part b && (bPorts b).any (fun p => carrier s p == some port))
/-- A port that is ever trained: some bundle of it leads to a present endpoint (R207). -/
def portOn (s : State) (port : Nat) : Bool :=
  decide (portDie port < stacksOf s.pkg.part) && (List.range 452).any (fun b => bundleOn s.pkg.part b && (bPorts b).contains port)

/-- Bytes 0 to 11 of a training message (R202); TYPE is 1 START, 2 PROPOSE, 3 CONFIRM. -/
def trainBytes (typ : Nat) (m : TrainMsg) : List Byte :=
  leBytes 1 typ ++ leBytes 1 m.flags ++ leBytes 2 m.epoch.toNat ++ leBytes 2 m.echo.toNat ++ leBytes 1 m.width ++ leBytes 1 m.cap ++ leBytes 4 m.spares
/-- The CRC of a training message (R202). -/
def trainCrc (typ : Nat) (m : TrainMsg) : BitVec 32 := crc32 (trainBytes typ m)
/-- The message that a side sends (R201, R202): INIT in the first START of a controller that has started from reset, RESTART with its cap. -/
def trainMsg (p : PortSide) (typ width : Nat) : TrainMsg :=
  let m : TrainMsg := { flags := b2n (p.init && typ == 1) + 2 * b2n p.restart, epoch := p.localEp, echo := p.peerEp, width := width
                        cap := if p.restart then p.cap else 0, spares := p.sparesUsed }
  { m with crc := trainCrc typ m }

/-- A training message sent on the sideband (R202): kind 16 START, 17 PROPOSE, 18 CONFIRM, of the port and side, with its 16 bytes. -/
def sendTrain (port side kind width : Nat) (s : State) : State :=
  let p := portSide s port side
  let m := trainMsg p (kind - 15) width
  send (.link port kind [side, leNat (trainBytes (kind - 15) m ++ leBytes 4 m.crc.toNat)])
    (if kind = 16 ∧ p.init = true then setSide port side { p with init := false } s else s)

/-- A side starts a handshake (R204). -/
def beginTrain (port side : Nat) (s : State) : State :=
  let p := portSide s port side
  if p.state = 3 then s
  else sendTrain port side 16 3 (setSide port side { p with state := 1, step := 1, own := none, peer := none, restart := false, cap := 3 } s)

/-- The port logic of a side is reset and retrains (R201, R205), for a cause by its place in the list of R205: 0 a partial reset, 1 NAKs, 2 a lane
failure, 3 a command. The event names the die's site, the port, the cause and both epochs (R208). -/
def retrain (port side cause : Nat) (s : State) : State :=
  let p := portSide s port side
  if p.state = 3 ∨ 1 < side ∨ portOn s port = false then s
  else
    let s := setSide port side { p with localEp := p.localEp + 1 } s
    let eps := pairArg (portSide s port 0).localEp.toNat (portSide s port 1).localEp.toNat
    beginTrain port side (emit (siteKC (portDie port)) Ev.portRetrain [siteKC (portDie port), port % 12, cause, eps] s)

/-- A neighbour that can take a fenced port's bundles (R206). -/
def adopterOf (s : State) (port : Nat) : Option Nat :=
  let die := portDie port * 12
  [die + (port % 12 + 1) % 12, die + (port % 12 + 11) % 12].find? (fun p =>
    (portSide s p 0).state != 3 && (portSide s p 0).state != 0 && (portSide s p 0).adopted.isNone)

/-- The bundles of a fenced port move to a neighbour; what was in flight is replayed once the neighbour is ACTIVE (R206). Where neither neighbour can take them,
their traffic goes by a relay. -/
def adopt (port : Nat) (s : State) : Option Nat × State :=
  match adopterOf s port with
  | none => (none, ((List.range 452).filter (fun b => bundleOn s.pkg.part b && (bPorts b).contains port)).foldl (fun s b => moveTraffic (linkKey b false) s) s)
  | some p =>
    let s := setSide p 0 { portSide s p 0 with adopted := some (port % 12) } s
    (some p, (carriedBy s p).foldl (fun s b => if (bPorts b).contains port then pumpAll (linkKey b false) (replayAll (linkKey b false) s) else s) s)

/-- A port fenced after its third failed handshake. The bundles that it had itself adopted move on to another neighbour by the same rule (DESIGN CHOICE, log
49: R206 does not say). -/
def fencePort (port : Nat) (s : State) : State :=
  let held := (portSide s port 0).adopted
  let s := (List.range 2).foldl (fun s side =>
    setSide port side { portSide s port side with state := 3, step := 0, width := 0, adopted := none } s) s
  let (a, s) := adopt port s
  let s := emit (siteKC (portDie port)) Ev.portFenced [siteKC (portDie port), port % 12, (a.map (· % 12)).getD absentArg] s
  match held with
  | some q => (adopt (portDie port * 12 + q) s).2
  | none => s

/-- A handshake fails (R204, R205). -/
def trainFails (port : Nat) (s : State) : State :=
  let n := (portSide s port 0).fails + 1
  let s := setSide port 0 { portSide s port 0 with fails := min n 3 } s
  if 3 ≤ n then fencePort port s else beginTrain port 1 (beginTrain port 0 s)

/-- A training message of a TYPE is stale or to be discarded (R202, R203). A reserved TYPE has no row: such a message is discarded. -/
def trainStale (p : PortSide) (typ : Nat) (m : TrainMsg) : Bool :=
  m.crc != trainCrc typ m || decide (3 < m.width) || decide (3 < m.cap) || (newer 16 p.peerEp.toNat m.epoch.toNat && !bitN m.flags 0)
    || (typ != 1 && m.echo != p.localEp)

/-- The lower of two widths; the two halves differ, and the lower is NONE. -/
def lowerWidth (a b : Nat) : Nat := if a = b then a else if a = 3 then b else if b = 3 then a else 0

/-- A controller has started from reset: the epoch of its port sides, and INIT in their next START (R201). -/
def initSides (site : Nat) (s : State) : State :=
  let e := BitVec.ofNat 16 (bitsN (gtcOf s site).toNat 10 16)
  ((List.range 144).filter (fun p => sideSite p 0 == site || sideSite p 1 == site)).foldl (fun s p =>
    let side := if sideSite p 0 = site then 0 else 1
    setSide p side { portSide s p side with localEp := e, init := true } s) s

/-- PORT_PARTIAL_RESET (R201). -/
def portPartialResetEff (port side : Nat) (s : State) : State := retrain port side 0 s

/-- START (R203). A START of the epoch already recorded is taken while the side waits for one, as after a restart. -/
def startEff (port side : Nat) (m : TrainMsg) (s : State) : State :=
  let p := portSide s port side
  if p.state = 3 ∨ 1 < side ∨ portOn s port = false ∨ trainStale p 1 m = true then s
  else if !(newer 16 m.epoch.toNat p.peerEp.toNat || bitN m.flags 0 || (p.step == 1 && p.peerEp == m.epoch)) then s
  else
    let s := if p.step = 1 then s else beginTrain port side s
    let p := portSide s port side
    let r := p.restart || bitN m.flags 1
    setSide port side { p with peerEp := m.epoch, step := 2, own := none, peer := none, restart := r
                               cap := if bitN m.flags 1 then lowerWidth p.cap m.cap else p.cap } s

/-- START_REPEAT (R204). -/
def startRepeatEff (port side : Nat) (s : State) : State :=
  let p := portSide s port side
  if p.state = 1 ∧ p.step = 1 then sendTrain port side 16 p.cap s else s

/-- Both proposals are known (R204). -/
def compareWidths (port side : Nat) (s : State) : State :=
  let p := portSide s port side
  match p.own, p.peer with
  | some a, some b =>
    if a = b then
      if a = 0 then trainFails port s
      else sendTrain port side 18 a (setSide port side { p with step := 4 } s)
    else
      let s := setSide port side { p with step := 1, own := none, peer := none, restart := true, cap := lowerWidth a b } s
      sendTrain port side 16 (lowerWidth a b) s
  | _, _ => s

/-- The width that a side proposes (R204): every group has enough spares, or those of one half. -/
def proposal (need : List (Nat × Nat)) (restart : Bool) (cap : Nat) : Nat :=
  let ok (g : Nat) : Bool := let q := need.getD g (0, 0); decide (q.1 ≤ 4 - popN 4 q.2)
  let h0 := (List.range 4).all ok
  let h1 := (List.range 4).all (fun g => ok (g + 4))
  let w := if h0 && h1 then 3 else if h0 then 1 else if h1 then 2 else 0
  if !restart ∨ w = 0 then w else if cap = 0 then 0 else if w = 3 then cap else w

/-- The spare map of a group: its lowest good spares, one for each failed lane. -/
def groupSpares (q : Nat × Nat) : List Nat := ((List.range 4).filter (fun j => !bitN q.2 j)).take q.1

/-- PORT_LANE_TEST_DONE (R204): `failed` gives for each group its failed data lanes and the mask of its failed spares. -/
def portLaneTestDoneEff (port side : Nat) (failed : List (Nat × Nat)) (s : State) : State :=
  let p := portSide s port side
  if p.state ≠ 1 ∨ p.step ≠ 2 then s
  else
    let q (g : Nat) : Nat × Nat := failed.getD g (0, 0)
    let w := proposal failed p.restart p.cap
    let used := (List.range 8).foldl (fun m g => m + maskOf (groupSpares (q g)) * 2 ^ (4 * g)) 0
    let p := { p with step := 3, own := some w, sparesUsed := used
                      spares := (List.range 8).map (fun g => 4 - popN 4 (q g).2 - (groupSpares (q g)).length) }
    compareWidths port side (sendTrain port side 17 w (setSide port side p s))

/-- PROPOSE (R204). -/
def proposeEff (port side : Nat) (m : TrainMsg) (s : State) : State :=
  let p := portSide s port side
  if p.state ≠ 1 ∨ 1 < side ∨ (p.step ≠ 2 ∧ p.step ≠ 3) ∨ trainStale p 2 m = true then s
  else
    let s := setSide port side { p with peer := some m.width, drive := m.spares } s
    if p.step = 3 then compareWidths port side s else s

/-- CONFIRM (R204): the port is ACTIVE at the next flit boundary, and every unacknowledged flit that the side sends is replayed. -/
def confirmEff (port side : Nat) (m : TrainMsg) (s : State) : State :=
  let p := portSide s port side
  if p.state ≠ 1 ∨ 1 < side ∨ p.step ≠ 4 ∨ trainStale p 3 m = true ∨ p.own ≠ some m.width then s
  else
    let s := setSide port side { p with state := 2, step := 0, width := m.width, restart := false, cap := 3 } s
    let s := if side = 0 then
        emit (siteKC (portDie port)) Ev.portWidth [siteKC (portDie port), port % 12, m.width, pairArg (p.own.getD 0) (p.peer.getD 0)] s
      else s
    if (portSide s port 0).state = 2 ∧ (portSide s port 1).state = 2 then
      (carriedBy s port).foldl (fun s b => pumpAll (linkKey b false) (if (linkOf s (linkKey b false)).retry.isEmpty then s else replayAll (linkKey b false) s)) s
    else s

/-- HANDSHAKE_TIMEOUT (R204): 100 µs without CONFIRM since the side's first START. -/
def handshakeTimeoutEff (port side : Nat) (s : State) : State :=
  let p := portSide s port side
  if p.state = 1 ∧ p.step ≠ 0 ∧ side ≤ 1 then trainFails port s else s

/-- PORT_FAIL_COUNT_RESET (R205): the port has been ACTIVE for 1 s. -/
def portFailCountResetEff (port : Nat) (s : State) : State :=
  let p := portSide s port 0
  if p.state = 2 then setSide port 0 { p with fails := 0 } s else s

/-- LANE_MONITOR_FAILURE (R205). -/
def laneMonitorFailureEff (port side : Nat) (s : State) : State :=
  if (portSide s port side).state = 2 then retrain port side 2 s else s

/-- The port status word (R207). -/
def portWord (s : State) (port : Nat) : Nat :=
  let p := portSide s port 0
  let spares := (List.range 8).foldl (fun n g => n + p.spares.getD g 4 % 8 * 2 ^ (3 * g)) 0
  p.state % 16 * 2 ^ 60 + p.width % 4 * 2 ^ 58 + p.adopted.getD 15 % 16 * 2 ^ 54 + p.localEp.toNat * 2 ^ 36 + p.fails % 16 * 2 ^ 32 + spares

/-- A stack and a port of a command: reserved numbers are BAD_ARG, an absent stack ABSENT. -/
def withPort (s : State) (r : Req) (f : Nat → CmdOut) : CmdOut :=
  let st := bitsN (argN r 0) 0 4
  let p := bitsN (argN r 0) 8 4
  if 12 ≤ st ∨ 12 ≤ p then .bad stBadArg 0 else if stacksOf s.pkg.part ≤ st then .bad stAbsent 0 else f (st * 12 + p)

/-- PORT_STATUS (R207, spec/12 R368). -/
def portStatusEff (r : Req) : State → State := runCmd 0x0402 r (fun s _ => withPort s r (fun p => .ok s (wordsOf 2 (portWord s p))))

/-- A retrain of the port is refused (spec/12 R368). -/
def retrainRefused (s : State) (port : Nat) : Bool := (portSide s port 0).state == 0 || (portSide s port 0).state == 3

/-- PORT_RETRAIN (R205, spec/12 R368). -/
def portRetrainEff (r : Req) : State → State := runCmd 0x0403 r (fun s _ => withPort s r (fun p =>
  if retrainRefused s p then .bad stState 0 else .ok (retrain p 0 3 s) []))

end Sys2Proof.Machine
end

