-- ==== Sys2Proof/Machine/Budget.lean ====
section
/-! DEFINITION. Budget.lean: the package budget and its division into grants (spec/13 R380 to R382). -/
namespace Sys2Proof.Machine

def tdp (part : Nat) : Nat := if part = 2 then 2100 else 7200
def floorW (part : Nat) : Nat := if part = 2 then 1400 else 4050
/-- Rated coolant flow F_r in mL/min (R394). -/
def ratedFlow (part : Nat) : Nat := if part = 2 then 3500 else 11000

def diePower (s : State) (n : Nat) : DiePower := mget s.pwr.dies {} n
def setDiePower (s : State) (n : Nat) (d : DiePower) : State := { s with pwr := { s.pwr with dies := mset s.pwr.dies n d } }
def therm (s : State) (k : Nat) : Therm := mget s.pwr.therm {} k
def setTherm (s : State) (k : Nat) (t : Therm) : State := { s with pwr := { s.pwr with therm := mset s.pwr.therm k t } }

/-- The thermal state of a die that leaves service or is restarted: broken sensors stay broken. -/
def thermClear (k : Nat) (s : State) : State := setTherm s k { broken := (therm s k).broken }

/-- Every thermal cap at 140 W. -/
def capsDown (s : State) : State :=
  { s with pwr := { s.pwr with
      dies := (List.range (stacksOf s.pkg.part)).foldl (fun m n => mmod m {} n (fun d => { d with cap := 140 })) s.pwr.dies } }

/-- The grant ceiling of a KC die: 380 W less the share of the phases that a VCORE or VNET rail of it has lost beyond its spares; of several rails
the lowest (R379; log 42). -/
def ceilingW (s : State) (n : Nat) : Nat :=
  (List.range 9).foldl (fun m i =>
    let p := mget s.pwr.phases (0, 1) (siteKC n * 16 + i)
    min m (380 - 380 * (p.1 - 2) / max p.2 1)) 380

/-! ## Budget (R380 to R382) -/

/-- The package flow F (R396). -/
def flowF (s : State) : Nat := min s.pwr.pFlow s.pwr.hFlow

/-- The effective budget: the least of B and what the reductions of R391 and R396 leave, no lower than the floor. -/
def effBudget (s : State) : Nat :=
  let b := s.pwr.budget
  let fl := floorW s.pkg.part
  let warm := if (mget s.pwr.cool {} 1).on then
    tdp s.pkg.part * 6 * (s.pwr.inlet - 45 * 16).toNat / 1600 else 0
  let low := if (mget s.pwr.cool {} 2).on then b * flowF s / ratedFlow s.pkg.part else b
  min b (max fl (min (b - s.pwr.reduction) (min (b - warm) low)))

/-- The KC pool P (R381). -/
def kcPool (s : State) : Nat := effBudget s - s.pwr.nonKc - 100

/-- The stacks whose dies share the pool. -/
def kcInService (s : State) : List Nat := (List.range (stacksOf s.pkg.part)).filter (stackUp s)

/-- A die's weight: WEIGHT of its partition's POWER_SHARE, 0 taken as 16; 0 for a die of no partition (R381). -/
def dieWeight (s : State) (n : Nat) : Nat :=
  match partOfStack s n with
  | none => 0
  | some pt => let w := bitsN (cfgEff s 10 pt) 0 8; if w = 0 then 16 else w

/-- The division of what is above the floors: by weight, no die above its ceiling, the excess divided again (R381). Each
entry is a die with its weight, its room to the ceiling and its share so far. -/
def divide (fuel rest : Nat) (l : List (Nat × Nat × Nat × Nat)) : List (Nat × Nat × Nat × Nat) :=
  match fuel with
  | 0 => l
  | f + 1 =>
    let live := l.filter (fun e => decide (e.2.2.2 < e.2.2.1))
    let sum := (live.map (fun e => e.2.1)).foldl (· + ·) 0
    if sum = 0 ∨ rest = 0 then l else
      let l' := l.map (fun e =>
        if e.2.2.2 < e.2.2.1 then (e.1, e.2.1, e.2.2.1, min e.2.2.1 (e.2.2.2 + rest * e.2.1 / sum)) else e)
      let used := (l'.map (fun e => e.2.2.2)).foldl (· + ·) 0 - (l.map (fun e => e.2.2.2)).foldl (· + ·) 0
      if used = 0 then l' else divide f (rest - used) l'

/-- The grant that R381 gives each die. -/
def targets (s : State) : List (Nat × Nat) :=
  let ds := kcInService s
  let rest := kcPool s - 140 * ds.length
  (divide 13 rest (ds.map (fun n => (n, dieWeight s n, ceilingW s n - 140, 0)))).map (fun e => (e.1, 140 + e.2.2.2))

/-- Watts of the pool that no grant counts against (R382). -/
def unallocated (s : State) : Nat := kcPool s - ((s.pwr.dies.map (fun p => p.2.acct)).foldl (· + ·) 0)

/-- A GRANT message: watts and the next sequence number (R382). -/
def sendGrant (n w : Nat) (s : State) : State :=
  send (.mgmt (siteKC n) 1 s.mp.term.toNat [w, s.pwr.grantSeq.toNat]) { s with pwr := { s.pwr with grantSeq := s.pwr.grantSeq + 1 } }

/-- An increase taken from unallocated pool. A grant above the one that is counted puts an unacknowledged decrease out of date. -/
def raiseGrant (s : State) (n : Nat) : State :=
  let d := diePower s n
  match d.rise with
  | none => s
  | some w =>
    if w ≤ d.acct then setDiePower s n { d with rise := none }
    else if w - d.acct ≤ unallocated s then sendGrant n w (setDiePower s n { d with acct := w, rise := none, decrease := none })
    else s

/-- Rises sent as pool allows, in order of die. -/
def releaseRises (s : State) : State := (s.pwr.dies.map (·.1)).foldl raiseGrant s

/-- One die's grant recomputed: a decrease is sent at once, a rise waits for pool (R382). -/
def retarget (s : State) (t : Nat × Nat) : State :=
  let d := diePower s t.1
  if d.decrease.map (·.1) = some t.2 then s
  else if t.2 < d.acct then
    sendGrant t.1 t.2 (setDiePower s t.1 { d with decrease := some (t.2, s.pwr.grantSeq.toNat), rise := none })
  else setDiePower s t.1 { d with rise := if d.acct < t.2 then some t.2 else none }

/-- The division recomputed (R381, R382). -/
def recompute (s : State) : State :=
  if decide (2 ≤ s.pkg.power) then s else releaseRises ((targets s).foldl retarget s)

end Sys2Proof.Machine
end

