-- ==== Sys2Proof/Machine/PartOps.lean ====
section
/-! DEFINITION. PartOps.lean: the job boundary of a partition and the teardown of a job (spec/09 R299; spec/12 R371, R374; spec/14 R402;
spec/16 R449). -/
namespace Sys2Proof.Machine

/-! ## Debuggers (spec/16 R449) -/

/-- A halted core issues the instruction after its BRK. -/
def resumeBrk (c : Nat) (s : State) : State :=
  if (coreAt s c).cond == .brk then advance c (modCore c (fun k => { k with cond := .issuing }) s) else s

/-- A debugger is detached, by the channel given. -/
def detachCore (chan c : Nat) (s : State) : State :=
  if !(coreAt s c).debugger then s
  else emitCore c Ev.dbgDetach [wordOfCore c, chan] (resumeBrk c (modCore c (fun k => { k with debugger := false }) s))

/-- Every debugger of a partition is detached. -/
def detachAll (p : Part) (s : State) : State :=
  (s.cores.core.filter (fun q => bitN p.stackSet (coreStack q.1) && q.2.debugger)).foldl (fun s q => detachCore absentArg q.1 s) s

/-! ## The overlay (spec/12 R372, R374) -/

/-- Items that an overlay may hold (R373). -/
def overlayItem (i : Nat) : Bool := decide (8 ≤ i ∧ i ≤ 10)

/-- The items of a mode in the running image. -/
def overlayOf (s : State) (mode : Nat) : List (Nat × BitVec 64) := mget s.upd.overlays [] mode

/-- One overlay item applied to a partition's own value, or refused. -/
def applyOverlay (pt : Nat) (s : State) (e : Nat × BitVec 64) : State :=
  let v := e.2.toNat
  let c := cfgItem s e.1 pt
  if !overlayItem e.1 || cfgRefused s e.1 (cfgDefault e.1) v then
    emitMp Ev.cfgItemBad [e.1, pt, v] (if overlayItem e.1 then setCfg s e.1 pt { c with eff := c.base, src := 0 } else s)
  else setCfg s e.1 pt { c with eff := e.2 &&& BitVec.ofNat 64 (fieldMask (cfgRwb e.1)), src := 1 }

/-- A mode takes a partition: the previous overlay's items return to their base values, and the new overlay's items apply. -/
def setOverlay (pt old mode : Nat) (s : State) : State :=
  let s := (overlayOf s old).foldl (fun s e =>
    if overlayItem e.1 then
      let c := cfgItem s e.1 pt
      setCfg s e.1 pt { c with eff := c.base, src := 0 }
    else s) s
  (overlayOf s mode).foldl (applyOverlay pt) s

/-! ## The job boundary (spec/12 R371) -/

/-- The fenced stacks of a partition leave it (spec/14 R402). A plan that was loaded for them cannot be started again. A partition
whose last stack leaves keeps its number with no stack, until it is dissolved (DESIGN CHOICE, log 45). -/
def leaveStacks (pt : Nat) (s : State) : State :=
  match part s pt with
  | none => s
  | some p =>
    let gone := (partStacks p).filter (fun n => (mfind s.rel.stackF n).isSome)
    if gone.isEmpty then s
    else
      let p := { p with stackSet := maskOf ((partStacks p).filter (fun n => !gone.contains n))
                        named := p.named.filter (fun q => !gone.contains (coreStack q.1)) }
      setPart s pt (if p.plan = 1 then { p with plan := 0, named := [], runs := none } else { p with left := true })

/-- A rank entry lies in the slice of a job that is ACTIVE or TEARING. -/
def rankHeld (s : State) (r : Nat) : Bool :=
  s.jobs.any (fun q => q.2.state != 0 && decide (q.2.rankBase ≤ r ∧ r < q.2.rankBase + q.2.rankCount))

/-- The held entries of a partition's slice take effect at its job boundary. -/
def ranksAt (pt : Nat) (s : State) : State :=
  let j := job s pt
  let mine (r : Nat) : Bool := decide (j.rankBase ≤ r ∧ r < j.rankBase + j.rankCount)
  setFab { s.fab with ranks := (s.fab.heldRanks.filter (fun q => mine q.1)).foldl (fun m q => mset m q.1 q.2) s.fab.ranks
                      heldRanks := s.fab.heldRanks.filter (fun q => !mine q.1) } s

/-- Rank entries that no job holds take effect (spec/09 R266). -/
def applyRanks (s : State) : State :=
  let l := s.fab.heldRanks
  setFab { s.fab with ranks := (l.filter (fun q => !rankHeld s q.1)).foldr (fun q m => mset m q.1 q.2) s.fab.ranks
                      heldRanks := l.filter (fun q => rankHeld s q.1) } s

/-- A job boundary: the held overlay first, then the other held values in the order written. -/
def jobBoundary (pt : Nat) (s : State) : State :=
  let s := leaveStacks pt s
  match part s pt with
  | none => s
  | some p =>
    let s := match p.heldOverlay with
      | none => s
      | some m =>
        let s := setOverlay pt p.mode m s
        let s := if p.mode = 4 ∧ m ≠ 4 then detachAll p s else s
        match part s pt with
        | none => s
        | some p => setPart s pt { p with mode := m, heldOverlay := none }
    let s := match part s pt with
      | none => s
      | some p =>
        let ws := p.heldWins.foldl (fun w q => match q.2 with
          | none => mdel w q.1
          | some x => mset w q.1 x) p.windows
        setPart s pt { p with windows := ws, heldWins := [] }
    let s := [8, 9, 10].foldl (fun s i => cfgApplyHeld i pt s) (ranksAt pt s)
    let s := if pt = enginePart s then cfgApplyHeld 7 0 (cfgApplyHeld 6 0 s) else s
    recompute s

/-! ## Teardown (spec/09 R299) -/

/-- The HMX transfers of the partition's cores on a die that are still in flight end JOB_TORN (spec/02 R62; DEDUCED, log 45). -/
def tornHmx (d : Nat) (s : State) : State :=
  (s.cores.core.filter (fun q => coreStack q.1 == d)).foldl (fun s q =>
    q.2.hmx.foldl (fun s x => endXfer q.1 x.tok x.sem 3 s) (modCore q.1 (fun k => { k with hmx := [] }) s)) s

/-- Step 3 at one die: every descriptor of the job's partition still outstanding completes JOB_TORN. -/
def tornDie (pt d : Nat) (s : State) : State :=
  let e := dieEng s d
  let qs := e.queues.flatMap (fun q => match mfind e.cur q.1 with
    | none => q.2
    | some _ => q.2.drop 1)
  let hs := e.handles.filter (fun h => h.2.jobPt == pt && h.2.comp.isNone)
  let credits := s.fab.hqs.foldl (fun (c : Map Nat) (q : Nat × HubQueue) =>
    let n : Nat := (q.2.descs.filter (fun x => q.2.owner == some pt && x.1 == d)).length
    if n = 0 then c else mset c q.1 (min 64 (mget c 0 q.1 + n))) e.credits
  let s := setEng d { e with queues := [], cur := [], credits := credits
                             handles := e.handles.filter (fun h => !(h.2.jobPt == pt && h.2.comp.isNone)) } s
  let s := hs.foldl (fun s h => endXfer h.2.core h.2.tok h.2.sem 3 s) (tornHmx d s)
  qs.foldl (fun s q => endXfer q.core q.tok q.sem 3 s) s

/-- The partition of what a die has been asked to do. -/
def workPart (s : State) (w : HubWork) : Option Nat :=
  match w with
  | .data _ pt _ _ _ => some pt
  | .signal _ pt _ _ => some pt
  | .read _ pt _ _ _ _ _ _ _ _ => some pt
  | .got h _ => (hubDesc s h).map (·.pt)
  | .copy h _ => (hubDesc s h).map (·.pt)
  | .copySignal h _ => (hubDesc s h).map (·.pt)

/-- What a peer still holds of a job: packets not yet sent are discarded, and those sent keep their SEQ and carry TORN. -/
def tornPeer (id : Nat) (p : Peer) : Peer :=
  let tear (u : Unacked) : Unacked :=
    if u.p.job = id then { u with p := { u.p with flags := u.p.flags ||| 16, payload := [] } } else u
  { p with waiting := p.waiting.filter (fun q => !(q.job == id)), unackedD := p.unackedD.map tear }

/-- Steps 2 to 6 of a teardown on this package. -/
def tornDown (pt : Nat) (s : State) : State :=
  let j := job s pt
  if j.state = 0 ∧ j.written = false then s
  else
    let s := setJob s pt { j with state := 2, written := false }
    let s := match part s pt with
      | none => s
      | some p => (partStacks p).foldl (fun s d => tornDie pt d s) s
    let s := setFab { s.fab with
      descs := s.fab.descs.filter (fun q => !(q.2.pt == pt))
      works := s.fab.works.filter (fun q => !(workPart s q.2 == some pt))
      hqs := mmap s.fab.hqs (fun _ q => if q.owner = some pt ∨ (q.owner = some 12 ∧ pt = enginePart s) then { q with descs := [], off := none, open_ := 0 } else q)
      peers := mmap s.fab.peers (fun _ p => tornPeer j.id p)
      ctxs := s.fab.ctxs.filter (fun q => !(q.1 % 16 == pt))
      dseq := s.fab.dseq.filter (fun q => !(q.1 % 16 == pt))
      oseq := s.fab.oseq.filter (fun q => !(q.1 % 16 == pt)) } s
    let s := stopPlan pt (clearCombs pt true s)
    flushAll (applyRanks (jobBoundary pt (setJob s pt {})))

/-- A job becomes ACTIVE on this package, a job boundary (R265; spec/12 R371); the fabric state of its barriers starts clear (R250). -/
def activateJob (pt : Nat) (s : State) : State :=
  clearCombs pt true (jobBoundary pt (setJob s pt { (job s pt) with state := 1, written := false }))

end Sys2Proof.Machine
end

