-- ==== Sys2Proof/Machine/FabTables.lean ====
section
/-! DEFINITION. FabTables.lean: the fabric tables written by worker commands: addresses, ranks, groups, jobs, fences and epochs, and the
draining of ports (spec/09 R265 to R267, R281, R293, R295, R300; spec/12 R368). -/
namespace Sys2Proof.Machine

/-! ## Messages of the FM channel (spec/12 R357, R362) -/

/-- The sixteen words of a request of the FM channel; its TAG is the low half of its FM_SEQ (log 41). -/
def fmRequest (q op : Nat) (args : List Nat) : List Word32 :=
  let body := [BitVec.ofNat 32 (op * 2 ^ 16 + q % 2 ^ 16), 0#32] ++ (List.range 13).map (fun i => BitVec.ofNat 32 (args.getD i 0))
  body ++ [(crc16 (body.flatMap (fun w => leBytes 4 w.toNat))).zeroExtend 32]
/-- A message as it travels: envelope, request and payload. -/
def fmWire (s : State) (q op : Nat) (args : List Nat) (pl : List Byte) : List Byte :=
  fmFrame s q (fmRequest q op args) pl

/-! ## Entries as bytes -/

/-- An address entry (R267), or nothing where a reserved bit is set. -/
def parseAddr (bs : List Byte) : Option AddrEnt :=
  let fl := fieldAt bs 0x12 1
  if fl / 4 ≠ 0 ∨ fieldAt bs 0x13 1 ≠ 0 ∨ fieldAt bs 0x18 8 ≠ 0 then none
  else some { ip := bs.take 16, portmask := fieldAt bs 0x10 2, valid := bitN fl 0, direct := bitN fl 1, epoch := fieldAt bs 0x14 4 }
def addrBytes (e : AddrEnt) : List Byte :=
  (e.ip ++ List.replicate (16 - e.ip.length) 0).take 16 ++ leBytes 2 e.portmask ++ leBytes 1 (b2n e.valid + 2 * b2n e.direct)
    ++ leBytes 1 0 ++ leBytes 4 e.epoch ++ leBytes 8 0

/-- A group entry (R293), or nothing where a reserved value or bit is set. -/
def parseGroup (bs : List Byte) : Option GroupEnt :=
  let fl := fieldAt bs 2 2
  let dm := fieldAt bs 4 2
  let n := fieldAt bs 6 1
  let kids := (List.range n).map (fun i => (fieldAt bs (0x10 + 8 * i) 2, fieldAt bs (0x14 + 8 * i) 4))
  if fl / 4 ≠ 0 ∨ dm / 2 ^ 13 ≠ 0 ∨ 16 < n ∨ fieldAt bs 7 9 ≠ 0
      ∨ (List.range n).any (fun i => fieldAt bs (0x12 + 8 * i) 2 != 0) then none
  else some { parent := fieldAt bs 0 2, valid := bitN fl 0, root := bitN fl 1, diemask := dm, children := kids }
def groupBytes (g : GroupEnt) : List Byte :=
  leBytes 2 g.parent ++ leBytes 2 (b2n g.valid + 2 * b2n g.root) ++ leBytes 2 g.diemask ++ leBytes 1 g.children.length ++ leBytes 9 0
    ++ (List.range 16).flatMap (fun i => match g.children[i]? with
      | none => leBytes 8 0
      | some c => leBytes 2 c.1 ++ leBytes 2 0 ++ leBytes 4 c.2)

/-! ## Writes -/

/-- A drain begins: cause 0 command, 1 light source, 2 removal (R281, R306). -/
def drainPort (k cause : Nat) (s : State) : State :=
  let p := portOf s k
  if p.draining.isSome || p.drained then s
  else flushAll (setPort k { p with draining := some (s.now, cause), lost := 0 } s)

/-- An address entry written; the streams to a peer start anew in a new epoch (R267, R285). A package whose own entry becomes invalid is removed, and drains
its ports (R302). -/
def writeAddr (pkg : Nat) (e : AddrEnt) (s : State) : State :=
  let old := mget s.fab.addrs {} pkg
  let own := pkg == ownPkg s
  let s := if old.epoch ≠ e.epoch ∧ e.valid ∧ own = false then setPeer pkg {} s else s
  let s := if own ∧ old.valid ∧ !e.valid then (List.range 16).foldl (fun s k => drainPort k 2 s) s else s
  setFab { s.fab with addrs := mset s.fab.addrs pkg e } s

/-- Rank entries written; their reserved bits stay 0 (R266, R11). They take effect at a job boundary of the job whose slice they lie in, and at once where no
job holds them (spec/00 R12). -/
def writeRanks (first : Nat) (bs : List Byte) (s : State) : State :=
  let es := (List.range (bs.length / 4)).map (fun i => (first + i, BitVec.ofNat 32 (fieldAt bs (4 * i) 4) &&& 0xFFFF801F#32))
  applyRanks (setFab { s.fab with heldRanks := es.foldl (fun m e => mset m e.1 e.2) s.fab.heldRanks } s)

def writeGroups (first : Nat) (gs : List GroupEnt) (s : State) : State :=
  setFab { s.fab with groups := (List.range gs.length).foldl (fun m i => mset m (first + i) (gs.getD i {})) s.fab.groups } s

/-! ## Fences (R295) -/

/-- Every replication point that waits for a fenced child stops waiting, and one whose own endpoint is fenced counts it. -/
def fenceEdges (s : State) : State :=
  s.fab.descs.foldl (fun s q =>
    if q.2.op ≠ 4 then s
    else
      let s := q.2.waitFor.foldl (fun s w =>
        if !pkgFenced s w.1 then s
        else match hubDesc s q.1 with
          | none => s
          | some d =>
            let n := match groupOf s d.pt d.group with
              | none => 0
              | some g => ((g.children.find? (fun c => c.1 == w.1)).map (·.2)).getD 0
            skipDest q.1 n (setHub q.1 { d with waitFor := mdel d.waitFor w.1 } s)) s
      let s := match hubDesc s q.1 with
        | none => s
        | some d =>
          if d.localDone then s
          else match groupOf s d.pt d.group with
            | none => s
            | some g => ((onesOf 12 g.diemask).filter (fun e => epFenced s e && !d.skipEps.contains e)).foldl (fun s e =>
                let s := setFab { s.fab with works := s.fab.works.filter (fun w => w.2 != .copy q.1 e && w.2 != .copySignal q.1 e) } s
                match hubDesc s q.1 with
                | none => s
                | some d => skipDest q.1 1 (setHub q.1 { d with skipEps := e :: d.skipEps } s)) s
      match (hubDesc s q.1).bind (·.up) with
      | none => rootStep q.1 s
      | some (pkg, _) => advanceAll pkg q.2.pt q.2.job (mputCheck q.1 s)) s

/-- The fence table adopted with its generation. FAB_FENCE_UPDATE names the package, or 2^16 and the endpoint mask (R306). -/
def adoptFence (gen : Nat) (f : FenceTab) (what : Nat) (s : State) : State :=
  fenceEdges (emit fabSrc Ev.fabFenceUpdate [gen, what] (setFab { s.fab with fence := { f with gen := BitVec.ofNat 32 gen } } s))

/-- The manager is asked for the whole bitmap (spec/12 R369). -/
def askBitmap (gen : Nat) (s : State) : State :=
  let x := fmWire s 0 0x0806 [gen] []
  send (.worker s.pod.managerPkg.toNat 0 0x0806 [gen] x) (sendMgmt s.pod.managerPkg.toNat x s)

/-- FAB_FENCE (spec/12 R368): a package, or endpoints of this one, fenced or cleared. A generation that does not advance by one puts the
table in doubt, and the manager is asked for the whole. -/
def applyFence (gen a1 mask : Nat) (s : State) : State :=
  let f := s.fab.fence
  let pkg := a1 % 2 ^ 16
  let clear := bitN a1 17
  let f' := if bitN a1 16 then
      { f with pkgs := if clear then dropEl f.pkgs pkg else addOnce f.pkgs pkg }
    else if pkg = ownPkg s then
      { f with eps := if clear then f.eps &&& (2 ^ 13 - 1 - mask % 2 ^ 13) else f.eps ||| mask % 2 ^ 13 }
    else f
  let what := if bitN a1 16 then pkg else 2 ^ 16 + mask
  if gen = f.gen.toNat then s
  else if gen = (f.gen.toNat + 1) % 2 ^ 32 then adoptFence gen f' what s
  else
    askBitmap gen
      (adoptFence gen { f' with doubt := true } what s)

/-! ## Worker commands (spec/12 R368) -/

/-- What a worker command answers. -/
structure WkOut where
  st : Nat := 0
  /-- The argument word named by BAD_ARG. -/
  d : Nat := 0
  ws : List Word32 := []
  s : State

/-- The sum of PEERS over the jobs held (R266). -/
def peersSum (s : State) : Nat := s.jobs.foldl (fun n q => n + q.2.peers) 0

/-- FAB_JOB_SET: the record waits for its activation. -/
def jobSet (a : Nat → Nat) (s : State) : WkOut :=
  let pt := a 1
  let bad : List Bool := [a 0 == 0, decide (11 < pt), decide (2 ^ 20 ≤ a 2), decide (a 3 = 0 ∨ 2 ^ 20 < a 2 + a 3), decide (16384 < a 4),
    decide (16384 < a 4 + a 5), decide (a 6 = 0 ∨ 65536 < a 6)]
  if bad.any (·) then { st := stBadArg, d := bad.findIdx (·), s := s }
  else if (part s pt).isNone || holdsJob s pt then { st := stState, s := s }
  else if 131072 < peersSum s + a 6 then { st := stRefused, s := s }
  else
    let j : Job := { id := a 0, rankBase := a 2, rankCount := a 3, groupBase := a 4, groupCount := a 5, peers := a 6, epoch := a 7
                     written := true }
    { s := setJob s pt j }

/-- A worker command carried out: arguments by number, and the payload. -/
def workerDo (op : Nat) (a : Nat → Nat) (pl : List Byte) (s : State) : WkOut :=
  match op with
  | 0x0800 =>
    match parseAddr ((List.range 8).flatMap (fun i => leBytes 4 (a (1 + i)))) with
    | none => { st := stBadArg, d := 1, s := s }
    | some e => { s := writeAddr (a 0 % 2 ^ 16) e s }
  | 0x0801 =>
    if 2 ^ 20 ≤ a 0 then { st := stBadArg, s := s }
    else if a 1 = 0 ∨ 1024 < a 1 ∨ 2 ^ 20 < a 0 + a 1 ∨ pl.length ≠ 4 * a 1 then { st := stBadArg, d := 1, s := s }
    else { s := writeRanks (a 0) pl s }
  | 0x0802 =>
    let gs := (List.range (a 1)).filterMap (fun i => parseGroup ((pl.drop (144 * i)).take 144))
    if 16384 ≤ a 0 then { st := stBadArg, s := s }
    else if a 1 = 0 ∨ 28 < a 1 ∨ 16384 < a 0 + a 1 ∨ pl.length ≠ 144 * a 1 ∨ gs.length ≠ a 1 then { st := stBadArg, d := 1, s := s }
    else { s := writeGroups (a 0) gs s }
  | 0x0803 => jobSet a s
  | 0x0804 =>
    match partOfJob s (a 0) with
    | none => { st := stNotFound, s := s }
    | some pt => if (job s pt).written then { s := activateJob pt s } else { st := stState, s := s }
  | 0x0805 =>
    match partOfJob s (a 0) with
    | none => { s := s, ws := [1] }
    | some pt => { s := tornDown pt s, ws := [1] }
  | 0x0806 => { s := applyFence (a 0) (a 1) (a 2) s }
  | 0x0807 => { s := emit fabSrc Ev.fabEpoch [a 0, absentArg] (setFab { s.fab with epoch := BitVec.ofNat 32 (a 0) } s) }
  | 0x0808 => if 4 < a 0 then { st := stBadArg, s := s } else { s := { s with pod := { s.pod with podState := a 0 } } }
  | 0x080B => { s := emitMp Ev.jobDrainRequest [a 0] s }
  | _ => { s := s }

end Sys2Proof.Machine
end

