-- ==== Sys2Proof/Machine/FabMgr.lean ====
section
/-! DEFINITION. FabMgr.lean: the fabric manager: worker commands, launches, teardowns, dead packages and removals (spec/09 R289, R295, R299
to R302; spec/12 R368, R370, R375 to R377, R489; spec/14 R417, R418). -/
namespace Sys2Proof.Machine

/-! ## Worker commands -/

/-- The lease stands: 3 ms from the standby's last acknowledgement (spec/14 R417). A manager that has just taken the role holds it until its
standby first answers (log 41). -/
def leaseLive (s : State) : Bool := s.pod.leaseHeld && s.pod.leaseAt.all (fun t => decide (s.now < t + 3000000))
/-- This package manages its pod and may act: it holds the lease, or it is outside a pod and its own manager (spec/12 R377). -/
def mgrActs (s : State) : Bool := s.pod.podState == 0 || (s.pod.role == 1 && leaseLive s)

/-- The standby manager is sent a copy of a worker command before the command itself (spec/14 R417). -/
def copyStandby (pkg q op : Nat) (args : List Nat) (pl : List Byte) (s : State) : State :=
  if s.pod.role = 1 ∧ op ≠ 0x0809 ∧ s.pod.standbyPkg ≠ s.pod.pkgId then send (.copy s.pod.standbyPkg.toNat pkg q op args pl) s else s

/-- A worker command leaves, numbered in the manager's FM_SEQ series. -/
def workerOut (pkg op : Nat) (args : List Nat) (pl : List Byte) (serves : Nat) (s : State) : State :=
  let q := s.pod.ownFmSeq.toNat
  let x := fmWire s q op args pl
  send (.worker pkg q op args x) (sendMgmt pkg x (copyStandby pkg q op args pl
    { s with pod := { s.pod with ownFmSeq := s.pod.ownFmSeq + 1, outstanding := s.pod.outstanding ++ [(q, pkg, op, serves)] } }))

/-- A worker command leaves, or waits while 256 are outstanding (R362). -/
def queueWorker (pkg op : Nat) (args : List Nat) (pl : List Byte) (serves : Nat) (s : State) : State :=
  if 256 ≤ s.pod.outstanding.length ∨ s.pod.waitSend.isEmpty = false then
    { s with pod := { s.pod with waitSend := s.pod.waitSend ++ [(pkg, op, args, pl, serves)] } }
  else workerOut pkg op args pl serves s

/-- A worker command sent to a package by a manager that may act; `serves` is the job or ticket for which. -/
def sendWorker (pkg op : Nat) (args : List Nat) (pl : List Byte) (serves : Nat) (s : State) : State :=
  if mgrActs s then queueWorker pkg op args pl serves s else s

/-- Commands that wait leave while fewer than 256 are outstanding (at most `fuel`). -/
def drainSend (fuel : Nat) (s : State) : State :=
  match fuel with
  | 0 => s
  | fuel + 1 => match s.pod.waitSend with
    | [] => s
    | (pkg, op, args, pl, serves) :: rest =>
      if !mgrActs s || decide (256 ≤ s.pod.outstanding.length) then s
      else drainSend fuel (workerOut pkg op args pl serves { s with pod := { s.pod with waitSend := rest } })

/-- A worker command to a member: carried out here where the member is this package. The status is that of the local one. -/
def toMember (pkg op : Nat) (args : List Nat) (pl : List Byte) (serves : Nat) (s : State) : Nat × State :=
  if pkg = ownPkg s then
    let o := workerDo op (fun i => args.getD i 0) pl s
    (o.st, o.s)
  else (0, sendWorker pkg op args pl serves s)

/-- The packages of the pod; outside a pod, this one alone. -/
def podPkgs (s : State) : List Nat := if s.pod.podState = 0 then [ownPkg s] else s.pod.members

/-- A worker command to every package of the pod but one. -/
def toPod (but : Option Nat) (op : Nat) (args : List Nat) (pl : List Byte) (s : State) : State :=
  (podPkgs s).foldl (fun s p => if some p = but then s else (toMember p op args pl 0 s).2) s

def setMgr (m : FabMgr) (s : State) : State := setFab { s.fab with mgr := m } s
def mgrJob (s : State) (id : Nat) : Option MgrJob := mfind s.fab.mgr.jobs id
def setMgrJob (id : Nat) (j : MgrJob) (s : State) : State := setMgr { s.fab.mgr with jobs := mset s.fab.mgr.jobs id j } s
def delMgrJob (id : Nat) (s : State) : State := setMgr { s.fab.mgr with jobs := mdel s.fab.mgr.jobs id } s

/-! ## Removals (R301, R302) -/

/-- A job holds ranks on a package, or on one endpoint of it. -/
def ranksThere (j : MgrJob) (pkg : Nat) (ep : Option Nat) : Bool :=
  match ep with
  | none => j.eps.any (fun x => x / 32 == pkg)
  | some e => j.eps.contains (pkg * 32 + e)

/-- The next fabric epoch, told to the pod with the package added or removed (R300). -/
def nextEpoch (pkg : Nat) (s : State) : State :=
  let e := (s.fab.epoch.toNat + 1) % 2 ^ 32
  let s := emit fabSrc Ev.fabEpoch [e, pkg] (setFab { s.fab with epoch := BitVec.ofNat 32 e } s)
  (podPkgs s).foldl (fun s p => if p = ownPkg s then s else sendWorker p 0x0807 [e] [] 0 s) s

/-- The words of an address entry, for FAB_ADDR_WRITE. -/
def addrArgs (pkg : Nat) (e : AddrEnt) : List Nat := pkg :: (List.range 8).map (fun i => fieldAt (addrBytes e) (4 * i) 4)

/-- A removal whose jobs are gone: the entry invalid in a new epoch, upon which the package drains its ports, or the endpoint fenced. -/
def doRemoval (r : Nat × Option Nat × Option Nat) (s : State) : State :=
  let s := match r.2.1 with
    | none =>
      let s := nextEpoch r.1 s
      let e := { (mget s.fab.addrs {} r.1) with valid := false, epoch := s.fab.epoch.toNat }
      let s := toPod none 0x0800 (addrArgs r.1 e) [] s
      { s with pod := { s.pod with members := dropEl s.pod.members r.1 } }
    | some ep =>
      let s := nextEpoch r.1 s
      toPod none 0x0806 [(s.fab.fence.gen.toNat + 1) % 2 ^ 32, r.1, 2 ^ ep] [] s
  match r.2.2 with
  | none => s
  | some t => finishTicket t stOK 0 [] s

/-- Removals whose jobs are gone are done. -/
def checkRemovals (s : State) : State :=
  let (go, stay) := s.fab.mgr.removals.partition (fun r => !s.fab.mgr.jobs.any (fun q => ranksThere q.2 r.1 r.2.1))
  go.foldl (fun s r => doRemoval r s) (setMgr { s.fab.mgr with removals := stay } s)

/-! ## Teardown at the manager (R299) -/

/-- JOB_TORN: every live member has reported, or `missing` have not. Host software's JOB_ENDs finish. -/
def jobTornNow (id missing : Nat) (s : State) : State :=
  match mgrJob s id with
  | none => s
  | some j => match j.tearing with
    | none => s
    | some (cause, _) =>
      let s := emitMp Ev.jobTorn [id, cause, s.fab.fence.gen.toNat, missing] (delMgrJob id s)
      let (mine, rest) := s.fab.mgr.ends.partition (fun e => e.1 == id)
      let s := mine.foldl (fun s e => finishTicket e.2 stOK 0 [] s) (setMgr { s.fab.mgr with ends := rest } s)
      let s := match j.launch with
        | some t => if j.phase < 2 then finishTicket t stFailed 0 [] s else s
        | none => s
      checkRemovals s

/-- The teardown of a job begins: cause 0 dead package, 1 dead die, 2 host end, 3 FORCE. -/
def mgrTear (id cause : Nat) (s : State) : State :=
  match mgrJob s id with
  | none => s
  | some j =>
    if j.tearing.isSome then s
    else
      let live := (j.members.map (·.1)).filter (fun p => !s.fab.fence.pkgs.contains p)
      let s := setMgrJob id { j with tearing := some (cause, live.filter (fun p => p != ownPkg s)), tearAt := s.now } s
      let s := live.foldl (fun s p => (toMember p 0x0805 [id, cause] [] id s).2) s
      match mgrJob s id with
      | some k => if k.tearing = some (cause, []) then jobTornNow id 0 s else s
      | none => s

/-- A worker's JOB_END answered as the TORN_DONE of the job reaches it (spec/12 R370). -/
def endOwed (id : Nat) (s : State) : State :=
  if (mgrJob s id).isSome || (partOfJob s id).isSome then s
  else
    let (mine, rest) := s.fab.mgr.ends.partition (fun e => e.1 == id)
    mine.foldl (fun s e => finishTicket e.2 stOK 0 [] s) (setMgr { s.fab.mgr with ends := rest } s)

/-- Every job with ranks on a package, or on one endpoint, is torn down. -/
def tearThere (pkg : Nat) (ep : Option Nat) (cause : Nat) (s : State) : State :=
  (s.fab.mgr.jobs.filter (fun q => ranksThere q.2 pkg ep)).foldl (fun s q => mgrTear q.1 cause s) s

/-- The pod enters RECOVERY (spec/12 R375). -/
def podRecovery (s : State) : State :=
  if s.pod.podState = 0 ∨ s.pod.podState = 4 then s
  else (podPkgs s).foldl (fun s p => if p = ownPkg s then s else sendWorker p 0x0808 [4] [] 0 s)
    { s with pod := { s.pod with podState := 4 } }

/-- A package judged dead (R289, R295, R299, R301): fenced, its jobs torn down, its entry invalid once they are. -/
def packageDead (pkg : Nat) (s : State) : State :=
  if s.fab.fence.pkgs.contains pkg || !mgrActs s || pkg == ownPkg s then s
  else
    let gen := (s.fab.fence.gen.toNat + 1) % 2 ^ 32
    let s := applyFence gen (pkg + 2 ^ 16) 0 { s with pod2 := { s.pod2 with pathFails := mdel s.pod2.pathFails pkg } }
    let s := (podPkgs s).foldl (fun s p => if p = ownPkg s ∨ p = pkg then s else sendWorker p 0x0806 [gen, pkg + 2 ^ 16, 0] [] 0 s) s
    let s := podRecovery s
    let s := setMgr { s.fab.mgr with removals := s.fab.mgr.removals ++ [(pkg, none, none)] } s
    checkRemovals (tearThere pkg none 0 s)

/-- A die of a package is dead or fenced (R299; spec/14 R402). -/
def dieDead (pkg ep cause : Nat) (s : State) : State :=
  if !mgrActs s then s
  else
    let gen := (s.fab.fence.gen.toNat + 1) % 2 ^ 32
    tearThere pkg (some ep) cause (toPod none 0x0806 [gen, pkg, 2 ^ ep] [] s)

/-- The fence of an endpoint of a package is cleared in a new epoch (R300). -/
def dieBack (pkg ep : Nat) (s : State) : State :=
  let s := nextEpoch pkg s
  toPod none 0x0806 [(s.fab.fence.gen.toNat + 1) % 2 ^ 32, pkg + 2 ^ 17, 2 ^ ep] [] s

/-- CORES of a worker's heartbeat answer (R289, R300): 96 fewer than before show a dead die there, and 96 more one that has returned. Which one, the
answer does not say (DESIGN CHOICE, log 41). -/
def coresSeen (pkg n : Nat) (s : State) : State :=
  let old := mget s.pod2.lastCores n pkg
  let s := { s with pod2 := { s.pod2 with lastCores := mset s.pod2.lastCores pkg n } }
  let s := (List.range ((old - n) / 96)).foldl (fun s i => dieDead pkg (Config.diedOf pkg n i % 12) 1 s) s
  (List.range ((n - old) / 96)).foldl (fun s i => if mgrActs s then dieBack pkg (Config.diedOf pkg old i % 12) s else s) s

/-! ## Launch (spec/12 R489) -/

/-- Worker commands of a job with opcodes of a range are outstanding, or wait to be sent. -/
def awaits (s : State) (id lo hi : Nat) : Bool :=
  s.pod.outstanding.any (fun o => o.2.2.2 == id && decide (lo ≤ o.2.2.1 ∧ o.2.2.1 ≤ hi))
    || s.pod.waitSend.any (fun o => o.2.2.2.2 == id && decide (lo ≤ o.2.1 ∧ o.2.1 ≤ hi))

/-- A launch fails: the ticket finishes with the member's status, and what was written is torn down. -/
def launchFail (id st : Nat) (s : State) : State :=
  match mgrJob s id with
  | none => s
  | some j =>
    let s := j.members.foldl (fun s p => (toMember p.1 0x0805 [id, 2] [] 0 s).2) (delMgrJob id s)
    match j.launch with
    | none => s
    | some t => finishTicket t st 0 [] s

/-- A launch goes on as its members answer: the records written, then the activations, then the ticket. -/
def launchStep (id : Nat) (s : State) : State :=
  match mgrJob s id with
  | none => s
  | some j =>
    let s := if j.phase = 0 ∧ !awaits s id 0x0801 0x0803 then
        j.members.foldl (fun s p => (toMember p.1 0x0804 [id] [] id s).2) (setMgrJob id { j with phase := 1 } s)
      else s
    match mgrJob s id with
    | none => s
    | some j =>
      if j.phase = 1 ∧ !awaits s id 0x0804 0x0804 then
        let s := setMgrJob id { j with phase := 2 } s
        match j.launch with
        | none => s
        | some t => finishTicket t stOK 0 [BitVec.ofNat 32 id] s
      else s

/-! ## Answers of workers (spec/12 R362, R368; spec/09 R305) -/

/-- What the manager does with a worker's answer to a command that serves a job or ticket. -/
def workerAnswered (op serves pkg : Nat) (ws : List Word32) (pl : List Byte) (s : State) : State :=
  let st := ansStatus ws
  match op with
  | 0x0805 =>
    match mgrJob s serves with
    | none => s
    | some j => match j.tearing with
      | none => s
      | some (c, l) =>
        let l := dropEl l pkg
        let s := setMgrJob serves { j with tearing := some (c, l) } s
        if l.isEmpty then jobTornNow serves 0 s else s
  | 0x080A =>
    match s.fab.mgr.maps.find? (fun m => m.1 == serves) with
    | none => s
    | some m =>
      let s := setMgr { s.fab.mgr with maps := s.fab.mgr.maps.filter (fun x => x.1 != serves) } s
      if st ≠ 0 then finishTicket serves st 0 [] s
      else
        let (bad, s) := (linesOf m.2 pl.length).foldl (fun (x : Bool × State) l =>
          if x.1 then x
          else
            let o := l - m.2
            let (ok, s) := writeDpa (max l m.2) ((pl.drop o).take (l + 64 - max l m.2)) [] x.2
            (!ok, s)) (false, s)
        if bad then finishTicket serves stFailed 0xF1 [] s else finishTicket serves stOK 0 [BitVec.ofNat 32 pl.length] s
  | _ =>
    if 0x0801 ≤ op ∧ op ≤ 0x0804 then (if st = 0 then launchStep serves s else launchFail serves st s) else s

/-- An answer of a worker or of the other manager reaches this manager (R362, R376, spec/14 R417). -/
def fmAnswer (m : FmMsg) (s : State) : State :=
  let mine := s.pod.outstanding.find? (fun o => o.1 == m.fmSeq && o.2.1 == m.srcPkg)
  let lease := s.pod.role == 1 && m.srcPkg == s.pod.standbyPkg.toNat && mine.any (fun o => o.2.2.1 == 0x0809)
  let s := { s with pod := { s.pod with
      outstanding := s.pod.outstanding.filter (fun o => !(o.1 == m.fmSeq && o.2.1 == m.srcPkg))
      missed := mset s.pod.missed m.srcPkg 0
      leaseHeld := s.pod.leaseHeld || lease
      leaseAt := if lease then some s.now else s.pod.leaseAt } }
  let s := drainSend 256 s
  match mine with
  | none => s
  | some o =>
    if o.2.2.1 = 0x0809 then (if ansStatus m.words = 0 then coresSeen m.srcPkg (m.words.getD 3 0).toNat s else s)
    else workerAnswered o.2.2.1 o.2.2.2 m.srcPkg m.words m.payload s

end Sys2Proof.Machine
end

