-- ==== Sys2Proof/Machine/Derived.lean ====
section
/-! DEFINITION. Derived.lean: what the health summary counts in the units of other chapters (spec/11 R347). -/
namespace Sys2Proof.Machine

/-- Enabled cores: 96 of each stack in service, less its absent positions (spec/02 R81). -/
def enabledCores (s : State) : Nat :=
  if 1 < s.pkg.power then 0
  else (List.range (stacksOf s.pkg.part)).foldl (fun n st =>
    if stackUp s st then n + (96 - (s.cores.absent.filter (fun c => c / 128 == st)).length) else n) 0
/-- Bundles FAILED, and bundles not FULL, of those started (spec/05 R154). -/
def bundlesFailed (s : State) : Nat := (s.pho.bundles.filter (fun q => q.2.st == 4)).length
def bundlesNotFull (s : State) : Nat := (s.pho.bundles.filter (fun q => q.2.st != 0)).length
/-- Ethernet ports up. -/
def ethUpMask (s : State) : Nat := maskOf ((s.fab.ports.filter (fun q => decide (q.1 < 16) && q.2.mode != 0 && q.2.link)).map (·.1))
/-- A channel of an HBM4 stack is retired, for good or until the package starts again. -/
def chanLost (h : Hbm) : Bool := !h.retired.isEmpty || !h.heat.isEmpty
/-- Memory groups with a retired channel. -/
def mgRetiredMask (s : State) : Nat :=
  maskOf ((List.range 4).filter (fun g => s.mem.hbms.any (fun q => q.1 / 4 == g && chanLost q.2)))
/-- The request engine's state (spec/10 R310). -/
def engineState (s : State) : Nat := s.eng.state
/-- A capacity change is in progress (spec/09 R302). -/
def capChange (s : State) : Bool := !s.fab.mgr.removals.isEmpty
/-- A unit below a die fenced, or a spare lost (spec/14 R401, R402; log 22). -/
def lostUnits (s : State) : Bool :=
  !s.cores.fenced.isEmpty || !s.cores.absent.isEmpty
    || s.mem.hbms.any (fun q => chanLost q.2 || !q.2.fencedRows.isEmpty || (match q.2.spare with
        | .failed _ => true
        | _ => false))
    || s.xpt.ports.any (fun q => q.2.state == 3) || s.pho.chans.any (fun q => q.2.st == 9) || s.pho.bundles.any (fun q => q.2.st == 4)
    || s.pho.combs.any (fun q => !q.2.dropped.isEmpty) || s.pho.cws.any (fun q => q.2.failed) || s.clk.dies.any (fun q => q.2.pllA.failed || q.2.pllBeta.failed)
end Sys2Proof.Machine
end

