-- ==== Sys2Proof/Machine/Health.lean ====
section
/-! DEFINITION. Health.lean: the health summary as its causes stand (spec/11 R347), and what follows from a command: HEALTH_SEQ
and the MSI-X vectors (R344; log 15). -/
namespace Sys2Proof.Machine

/-- Some fence or lost spare is in force. -/
def degraded (s : State) : Bool :=
  !s.rel.stackF.isEmpty || !s.rel.tileF.isEmpty || s.guest.fenced || lostUnits s
    || decide (3 ≤ s.mp.selfFails) || s.pwr.phases.any (fun p => decide (2 < p.2.1))

/-- HEALTH STATE. -/
def healthState (s : State) : Nat :=
  if s.pkg.recovery then 3 else if s.pkg.starting || s.pkg.power == 3 then 0 else if degraded s then 2 else 1

/-- MARGIN_LOW: phases lost beyond the spares (R379), or the coolant margin (R396). -/
def marginLow (s : State) : Bool :=
  s.pwr.phases.any (fun p => decide (2 < p.2.1)) || (mget s.pwr.cool {} 0).on

/-- A KC die treated as in throttle: its own or its KS die's state, its tile's, or the cross-check (R391, R394). -/
def kcThrottled (s : State) (n : Nat) : Bool :=
  (mget s.pwr.therm {} (siteKC n)).throttle || (mget s.pwr.therm {} (0x80 + n)).throttle
    || (mget s.pwr.therm {} (siteLT (n / 3))).throttle || (mget s.pwr.dies {} n).disOn

def anyWarn (s : State) : Bool := s.pwr.therm.any (fun p => p.2.warn)
def anyThrottle (s : State) : Bool :=
  s.pwr.therm.any (fun p => p.2.throttle) || s.pwr.dies.any (fun p => p.2.disOn)

/-- The HEALTH word. -/
def healthW (s : State) : BitVec 32 :=
  BitVec.ofNat 32 (healthState s * 2 ^ 28 + engineState s % 16 * 2 ^ 24 + b2n s.mp.activeB * 2 ^ 23 + b2n s.mp.standbyOk * 2 ^ 22
    + s.pod.role % 4 * 2 ^ 20 + b2n (anyWarn s) * 2 ^ 19 + b2n (anyThrottle s) * 2 ^ 18 + b2n (marginLow s) * 2 ^ 17
    + b2n (!s.hl.safe.isEmpty) * 2 ^ 16 + b2n (dieClk s siteKH).hold * 2 ^ 15 + b2n s.upd.flash.settings.lock * 2 ^ 14)

def coresW (s : State) : BitVec 32 := BitVec.ofNat 32 (enabledCores s % 2 ^ 11)
def fencesW (s : State) : BitVec 32 :=
  BitVec.ofNat 32 (maskOf (s.rel.stackF.map (·.1)) % 2 ^ 12 + mgRetiredMask s % 16 * 2 ^ 12 + b2n s.guest.fenced * 2 ^ 16)
def bundlesW (s : State) : BitVec 32 := BitVec.ofNat 32 (bundlesFailed s % 512 * 2 ^ 16 + bundlesNotFull s % 512)
def linksW (s : State) : BitVec 32 :=
  BitVec.ofNat 32 (ethUpMask s % 2 ^ 16 + b2n s.mp2.oobUp * 2 ^ 16 + b2n s.guest.linkUp * 2 ^ 17
    + b2n (s.hl.linkUp && s.hl.rated) * 2 ^ 18)

/-- The hottest reading of some dies, in whole degrees on 8 bits. -/
def hottest (s : State) (p : Nat → Bool) : Nat :=
  let l := (s.pwr.therm.filter (fun x => p x.1)).map (fun x => x.2.maximum / 16)
  match l with
  | [] => 0
  | a :: r => ofInt 8 (r.foldl (fun m x => if m < x then x else m) a)

def tempsW (s : State) : BitVec 32 :=
  BitVec.ofNat 32 (ofInt 8 (s.pwr.inlet / 16) * 2 ^ 24 + hottest s (fun k => decide (0xA0 ≤ k)) * 2 ^ 16
    + hottest s (fun k => decide (0x40 ≤ k ∧ k ≤ 0x44)) * 2 ^ 8 + hottest s (fun k => decide (k < 0x40)))

/-- The registers of the block other than HEALTH_SEQ. -/
def healthRegs (s : State) : List (BitVec 32) := [healthW s, coresW s, fencesW s, bundlesW s, linksW s, tempsW s]

/-- EVQ_NONEMPTY bit of a source (R348). -/
def nonEmptyBit (src : Nat) : Nat :=
  if src ≤ 0x2B then src - 0x20 else if src ≤ 0x44 then 12 + (src - 0x40) else 17 + (src - 0x61)
/-- EVQ_NONEMPTY (R349). -/
def evqNonEmpty (s : State) : Nat :=
  maskOf ((s.evq.filter (fun p => isSource p.1 && !p.2.recs.isEmpty)).map (fun p => nonEmptyBit p.1))

/-- A level cause of a vector stands (R344). -/
def causeLevel (s : State) (v : Nat) : Bool :=
  if v < 32 then s.hp.d2hPending.getLsbD v
  else if v = 32 then s.hp.m2hFull
  else if v = 34 then evqNonEmpty s != 0
  else false

/-- A vector's cause rises between two states (R344). -/
def causeRises (a b : State) (v : Nat) : Bool :=
  if v < 33 then causeLevel b v && !causeLevel a v
  else if v = 33 then a.hp.h2mFull && !b.hp.h2mFull
  else if v = 34 then (List.range 21).any (fun i => bitN (evqNonEmpty b) i && !bitN (evqNonEmpty a) i)
  else if v = 35 then a.hl.healthSeq != b.hl.healthSeq
  else if v = 36 then a.hp.wvState == 1#2 && b.hp.wvState != 1#2
  else false

/-- A vector may be sent: unmasked in D2H_MASK or VEC_MASK and in the MSI-X table, with the doorbell block out of its safe
state (R335) and the link up. -/
def vecOpen (s : State) (v : Nat) : Bool :=
  s.hl.linkUp && !s.hl.safe.contains 0 && !(mget s.hp.msix {} v).masked
    && (if v < 32 then !s.hp.d2hMask.getLsbD v else !s.hp.vecMask.getLsbD (v - 32))

/-- One vector settled: sent, or its pending bit kept while it is masked. -/
def settleVec (a : State) (s : State) (v : Nat) : State :=
  let o := vecOpen s v
  let rise := causeRises a s v || s.hp.rose.contains v
  let stands := causeLevel s v || ((v == 33 || decide (35 ≤ v)) && s.hp.pba.getLsbD v)
  let goes := o && (rise || (!vecOpen a v && stands))
  let keep := !o && (causeLevel s v || ((v == 33 || decide (35 ≤ v)) && (rise || s.hp.pba.getLsbD v)))
  let e := mget s.hp.msix {} v
  let s := if goes then send (.msix v e.addr e.data) s else s
  let m : BitVec 64 := 1#64 <<< v
  { s with hp := { s.hp with pba := if keep then s.hp.pba ||| m else s.hp.pba &&& ~~~ m } }

/-- HEALTH_SEQ increments whenever another register of the block has changed (R347); in OFF the block is gone. -/
def settleHealth (a s : State) : State :=
  if s.pkg.power = 3 ∨ healthRegs a = healthRegs s then s else { s with hl := { s.hl with healthSeq := a.hl.healthSeq + 1 } }

/-- What follows from a command, between the state before it and the state that its effect left (R344, R347; log 15). -/
def settle (a s : State) : State :=
  let s := (List.range 37).foldl (settleVec a) (settleHealth a s)
  { s with hp := { s.hp with rose := [] } }

end Sys2Proof.Machine
end

