-- ==== Sys2Proof/Machine/MgmtCmd.lean ====
section
/-! DEFINITION. MgmtCmd.lean: the general, role and configuration commands (spec/12 R368, R373, R375). -/
namespace Sys2Proof.Machine

/-- NOP (R368). -/
def nopCmdEff (r : Req) : State → State := runCmd 0x0000 r (fun s _ => .ok s [])

/-- CMD_RESULT (R360, R368). -/
def cmdResultEff (r : Req) : State → State := runCmd 0x0001 r (fun s _ =>
  let t := argN r 0
  match mfind s.mp.tickets t with
  | none => .bad stNotFound 0
  | some k =>
    if !k.done then .bad stState 0 else
      .ok { s with mp := { s.mp with tickets := mdel s.mp.tickets t } }
        (BitVec.ofNat 32 (k.op + k.detail % 256 * 2 ^ 16 + k.status * 2 ^ 24) :: k.words.take 12))

/-- MP_STATUS (R368). -/
def mpStatusEff (r : Req) : State → State := runCmd 0x0002 r (fun s _ =>
  .ok s [BitVec.ofNat 32 (b2n s.mp.activeB + 2 * b2n s.mp.standbyOk + 4 * s.pod.role + 16 * s.pod.podState),
    s.mp.term.zeroExtend 32, BitVec.ofNat 32 s.mp.tickets.length])

/-- IDENT_READ (R25, R368). -/
def identReadEff (r : Req) : State → State := runCmd 0x0003 r (fun s _ =>
  let site := argN r 0
  if siteReserved site then .bad stBadArg 0
  else if siteAbsent s site then .bad stAbsent 0
  else .ok s (wordsOf 8 (mget s.fuses.blocks 0 site).toNat))

/-- CFG_READ (R368, R373). -/
def cfgReadEff (r : Req) : State → State := runCmd 0x0900 r (fun s _ =>
  if cfgInstances s.pkg.part (argN r 0) ≤ argN r 1 then .bad stNotFound 0 else
    let c := cfgItem s (argN r 0) (argN r 1)
    .ok s (wordsOf 2 c.eff.toNat ++ [BitVec.ofNat 32 c.src] ++ wordsOf 2 (c.held.getD 0).toNat))

/-- CFG_WRITE (R368, R373, R487). -/
def cfgWriteEff (r : Req) : State → State := runCmd 0x0901 r (fun s _ =>
  let item := argN r 0
  let inst := argN r 1
  if cfgInstances s.pkg.part item ≤ inst then .bad stNotFound 0
  else if (item == 1 || item == 2) && r.chan != .pcie then .bad stRefused 0
  else
    match cfgWrite true item inst (argN r 2 + 2 ^ 32 * argN r 3) 2 s with
    | .refused => .bad stRefused 0
    | .jobHeld => .bad stState 0
    | .done s' h =>
      let s' := if item = 11 then { s' with mp2 := { s'.mp2 with oobPeers := s'.mp2.oobPeers.map (fun p => { p with kept := [] }) } } else s'
      .ok s' (wordsOf 2 (cfgItem s' item inst).eff.toNat ++ [BitVec.ofNat 32 (b2n h)]))

/-- ROLE_SET (R368, R375): this package takes the role that names it. -/
def roleSetEff (r : Req) : State → State := runCmd 0x0707 r (fun s _ =>
  if anyJob s then .bad stState 0 else
    let me := argN r 3
    let role := if argN r 1 = me then 1 else if argN r 2 = me then 2 else 0
    let st : Settings := { s.upd.flash.settings with
      role := role, podId := argN r 0, managerPkg := argN r 1, standbyPkg := argN r 2, pkgId := me }
    let pd : Pod := { s.pod with
      podId := BitVec.ofNat 16 (argN r 0), managerPkg := BitVec.ofNat 16 (argN r 1)
      standbyPkg := BitVec.ofNat 16 (argN r 2), pkgId := BitVec.ofNat 16 me, pkgValid := true, role := role
      managerLost := false, leaseHeld := role == 1, leaseAt := if role = 1 then some s.now else none, lastHeartbeat := some s.now, missed := [] }
    .ok { s with pod := pd, upd := { s.upd with flash := { s.upd.flash with settings := st } } } [])

end Sys2Proof.Machine
end

