-- ==== Sys2Proof/Machine/HostRegs.lean ====
section
/-! DEFINITION. HostRegs.lean: the registers of BAR0 and BAR4 and the event window (spec/11). -/
namespace Sys2Proof.Machine

/-- BAR0 is served: the link is up and the package is powered (spec/17 R469, R387). -/
def bar0Up (s : State) : Bool := s.hl.linkUp && decide (s.pkg.power ≠ 3)

/-- A write discarded under the BAR0 reject counter (R334). -/
def bar0Reject (s : State) : State := bump 0x8002 0 1 s

/-! ## Mailboxes (R337 to R339) -/

/-- H2M_MWn written, or rejected while FULL (R338): discarded, counted, and a Completer Abort logged. -/
def h2mWrite (n : Nat) (v : Word32) (s : State) : State :=
  if s.hp.h2mFull then send (.pcie 1 (0x100 + 4 * n) []) { s with hp := { s.hp with h2mRejects := s.hp.h2mRejects + 1 } }
  else { s with hp := { s.hp with h2mMw := mset s.hp.h2mMw n v } }

/-- The checks of a request's words, before the command tables: BAD_MESSAGE (R357, R358). -/
def badMessage (ws : List Word32) : Bool :=
  let g (i : Nat) : Nat := (ws.getD i 0).toNat
  g 15 / 2 ^ 16 != 0 || g 1 % 2 ^ 31 != 0
    || (crc16 ((ws.take 15).flatMap (fun w => leBytes 4 w.toNat))).toNat != g 15 % 2 ^ 16

/-- The request that sixteen words spell. -/
def reqOf (ch : Chan) (ws : List Word32) (payload : List Byte) : Nat × Req :=
  let g (i : Nat) : Nat := (ws.getD i 0).toNat
  (g 0 / 2 ^ 16, { chan := ch, tag := g 0 % 2 ^ 16, force := bitN (g 1) 31, args := (ws.drop 2).take 13, payload := payload })

/-- A message taken by the active processor: answered with the first check that fails, or TAKEN in the journal for its
command's row (R359, R363; log 17). -/
def takeMsg (ch : Chan) (ws : List Word32) (payload : List Byte) (s : State) : State :=
  let p := reqOf ch ws payload
  if badMessage ws then deliver ch (answerWords p.1 p.2.tag stBadMessage 0 0 []) [] s
  else
    match firstCheck s p.1 p.2 with
    | some (st, d) => answer p.1 p.2 st d 0 [] s
    | none => if journalOpen s then beginSites p.1 p.2 (journalAdd p.1 p.2 s) else answer p.1 p.2 stBusy 0 0 [] s

/-- A message that arrives on another channel than the mailbox: taken, or kept while the processor waits after a takeover (R366). -/
def recvMsg (ch : Chan) (ws : List Word32) (payload : List Byte) (s : State) : State :=
  if s.mp.takeoverAt.isSome then { s with mp := { s.mp with waitMsgs := s.mp.waitMsgs ++ [(ch, ws, payload)] } } else takeMsg ch ws payload s

/-- The active processor takes a held H2M message, once it has written the previous answer (R338, R359); one that has just taken control first
resolves the journal (spec/12 R366). -/
def takeMailbox (s : State) : State :=
  let busy := s.mp.journal.any (fun e => e.req.chan == .pcie && decide (e.stage < 3) && e.ticket.isNone)
  if s.mp.running && s.mp.takeoverAt.isNone && s.hp.h2mFull && s.hp.m2hWait.isEmpty && !busy then
    let ws := (List.range 16).map (fun i => mget s.hp.h2mMw 0 i)
    -- FULL clears, and vector 33 is sent, also where it has risen in the same command
    takeMsg .pcie ws [] { s with hp := { s.hp with h2mFull := false, rose := addOnce s.hp.rose 33 } }
  else s

/-- MW15_WRITE (R338). -/
def mw15WriteEff (v : Word32) (s : State) : State :=
  if !bar0Up s then s
  else if s.hp.h2mFull then h2mWrite 15 v s
  else
    let s := h2mWrite 15 v s
    takeMailbox { s with hp := { s.hp with h2mFull := true } }

/-- The answer of a COMMITTED entry now stands in M2H: it is ANSWERED (R363). -/
def entryAnswered (w : List Word32) (s : State) : State :=
  { s with mp := { s.mp with journal := mapFirst (fun e => e.stage == 2 && e.req.chan == .pcie
      && answerWords e.op e.req.tag e.status e.detail 0 e.words == w) (fun e => { e with stage := 3 }) s.mp.journal } }

/-- M2H_RELEASE (R337, R338): 0x0000_0001 releases a held message, and an answer that waited takes its place. -/
def m2hReleaseEff (v : Word32) (s : State) : State :=
  if !bar0Up s || v != 1 || !s.hp.m2hFull then s
  else
    match s.hp.m2hWait with
    | [] => takeMailbox { s with hp := { s.hp with m2hFull := false } }
    | w :: r => takeMailbox (entryAnswered w { s with hp := { s.hp with m2hMw := w, m2hWait := r, rose := addOnce s.hp.rose 32 } })

/-! ## Vectors (R340, R344) -/

/-- D2H_TAKE (R340, R343). -/
def d2hTakeEff (v : Word32) (s : State) : State :=
  if !bar0Up s || s.pkg.recovery then s else { s with hp := { s.hp with d2hPending := s.hp.d2hPending &&& ~~~ v } }
/-- D2H_MASK_WRITE (R340, R344). -/
def d2hMaskWriteEff (v : Word32) (s : State) : State :=
  if !bar0Up s || s.pkg.recovery then s else { s with hp := { s.hp with d2hMask := v } }
/-- VEC_MASK_WRITE (R340, R344). -/
def vecMaskWriteEff (v : Word32) (s : State) : State :=
  if !bar0Up s || s.pkg.recovery then s else { s with hp := { s.hp with vecMask := v.truncate 5 } }

/-- MSIX_TABLE_WRITE (R330, R344): word `w` of a vector's entry: address low, address high, data, vector control. -/
def msixTableWriteEff (vec w : Nat) (v : Word32) (s : State) : State :=
  if !bar0Up s || decide (64 ≤ vec) then s else
    let e := mget s.hp.msix {} vec
    let e' : Msix :=
      if w = 0 then { e with addr := BitVec.ofNat 64 (e.addr.toNat / 2 ^ 32 * 2 ^ 32 + v.toNat) }
      else if w = 1 then { e with addr := BitVec.ofNat 64 (e.addr.toNat % 2 ^ 32 + v.toNat * 2 ^ 32) }
      else if w = 2 then { e with data := v }
      else if w = 3 then { e with masked := v.getLsbD 0 }
      else e
    { s with hp := { s.hp with msix := mset s.hp.msix vec e' } }

/-! ## The wide-value window (R345, R346) -/

/-- Words of an item and its value, or none where the access ends REFUSED (R346). TIME_ORIGIN reads 0 under free running (R224). A read of a buffered field returns the
value last written (R11). -/
def wvItem (s : State) (item idx : Nat) : Option (Nat × Nat) :=
  let last (i : Nat) : Nat := ((cfgItem s i 0).held.getD (cfgItem s i 0).eff).toNat
  if item = 7 ∨ item = 8 then
    if siteReserved idx || siteAbsent s idx then none
    else
      let b := (mget s.fuses.blocks 0 idx).toNat
      some (4, if item = 7 then b / 2 ^ 128 else b % 2 ^ 128)
  else if idx ≠ 0 then none
  else
    match item with
    | 1 => some (2, (mget s.fuses.blocks 0 siteKH).toNat / 2 ^ 192)
    | 2 => some (2, (hubGtc s).toNat)
    | 3 => some (2, if s.clk.hub.src = 0 then 0 else s.aon.origin.toNat)
    | 4 => some (2, last 5)
    | 5 => some (2, last 6)
    | 6 => some (2, last 7)
    | 9 => some (2, s.hl.bar2Base.toNat)
    | _ => none

/-- The value put in WV_DATA, words beyond the item's width reading 0. -/
def wvShow (n v : Nat) : List Word32 := wordsOf 4 (v % 2 ^ (32 * n))

/-- An access to the window begins: BUSY, to end in `next`. -/
def wvBegin (sel : Word32) (next : BitVec 2) (words : Nat) (data : List Word32) (s : State) : State :=
  { s with hp := { s.hp with wvSelect := sel, wvState := 1#2, wvNext := next, wvWords := words, wvData := data } }

/-- A write of WV_SELECT cannot be taken: discarded and counted while BUSY (R346). -/
def wvBusy (s : State) : Bool := s.hp.wvState == 1#2

/-- WV_READ (R346): WV_SELECT written with WRITE 0. -/
def wvReadEff (v : Word32) (s : State) : State :=
  if !bar0Up s || s.pkg.recovery || v.getLsbD 31 then s
  else if wvBusy s then bar0Reject s
  else
    match wvItem s (bitsN v.toNat 0 16) (bitsN v.toNat 16 8) with
    | none => wvBegin (v &&& 0x80FFFFFF#32) 3#2 0 s.hp.wvData s
    | some (n, x) => wvBegin (v &&& 0x80FFFFFF#32) 2#2 (n - 1) (wvShow n x) s

/-- The present second of the hub's time source (R224). -/
def presentSecond (s : State) : Nat := (s.clk.hub.srcTime + 16 * (s.now - s.clk.hub.srcAt)) / 16000000000
/-- TIME_ORIGIN refuses a value (R224). -/
def originRefused (s : State) (v : Nat) : Bool :=
  anyJob s || (v != 0 && (!s.clk.hub.locked || decide (presentSecond s < v) || decide (v + 288230376 < presentSecond s)))

/-- A write of an item: none where it is refused. -/
def wvApply (s : State) (item v : Nat) : Option State :=
  let cfg (i : Nat) : Option State :=
    match cfgWrite false i 0 v 2 s with
    | .done s' _ => some s'
    | _ => none
  match item with
  | 3 => if originRefused s v then none else some { s with aon := { s.aon with origin := BitVec.ofNat 64 v } }
  | 4 => cfg 5
  | 5 => cfg 6
  | 6 => cfg 7
  | 9 => if v % 2 ^ s.hl.bar2Log ≠ 0 then none else some { s with hl := { s.hl with bar2Base := BitVec.ofNat 64 v } }
  | _ => none

/-- WV_WRITE (R346): WV_SELECT written with WRITE 1. -/
def wvWriteEff (v : Word32) (s : State) : State :=
  if !bar0Up s || s.pkg.recovery || !v.getLsbD 31 then s
  else if wvBusy s then bar0Reject s
  else
    let item := bitsN v.toNat 0 16
    let data := (s.hp.wvData.getD 0 0).toNat + 2 ^ 32 * (s.hp.wvData.getD 1 0).toNat
    let sel := v &&& 0x80FFFFFF#32
    match wvItem s item (bitsN v.toNat 16 8) with
    | none => wvBegin sel 3#2 0 s.hp.wvData s
    | some (n, x) =>
      match wvApply s item data with
      | none => wvBegin sel 3#2 (n - 1) (wvShow n x) s
      | some s' => wvBegin sel 2#2 (n - 1) (wvShow n data) s'

/-- WV_COMPLETE (R346): the access leaves BUSY. -/
def wvCompleteEff (s : State) : State :=
  if wvBusy s then { s with hp := { s.hp with wvState := s.hp.wvNext } } else s

/-! ## The event window (R349, R351) -/

/-- The EVQ_LOST record that the hub writes (R351). -/
def lostRec (s : State) (src : Nat) (q : EvQueue) : EvRec :=
  { gtc := hubGtc s, seq := q.prod, source := src, rood := 15, more := false, cont := false, code := Ev.evqLost
    cycles := (dieClk s siteKH).slow, args := BitVec.ofNat 64 q.lostSince }

/-- TRACE_RESUMED (spec/16 R452): the queue has fallen to 1,024 records. -/
def traceResume (src : Nat) (s : State) : State :=
  if s.obs.paused.contains src && decide ((mget s.evq {} src).recs.length ≤ 1024) then
    let n := mget s.obs.notWritten 0 src
    emit src Ev.traceResumed [src, (mget s.evq {} src).recs.length, n]
      { s with obs := { s.obs with paused := dropEl s.obs.paused src, notWritten := mset s.obs.notWritten src 0 } }
  else s

/-- EVQ_CONS_WRITE (R349, R351). A reserved source shows an empty queue, whose EVQ_CONS and EVQ_PROD are 0. -/
def evqConsWriteEff (v : Word32) (s : State) : State :=
  if !bar0Up s || s.pkg.recovery then s else
    let src := (s.hl.evqSelect &&& 0xFF#32).toNat
    let q := mget s.evq {} src
    let cons := q.prod - BitVec.ofNat 32 q.recs.length
    let d := (v - cons).toNat
    if !isSource src then (if v = 0 then s else bar0Reject s)
    else if s.hl.safe.contains 1 then s
    else if q.recs.length < d then bar0Reject s
    else
      let q1 := { q with recs := q.recs.drop d }
      let q2 : EvQueue := if q.lostSince ≠ 0 ∧ d ≠ 0 then
        { q1 with prod := q1.prod + 1, recs := q1.recs ++ [lostRec s src q1], lostSince := 0 } else q1
      traceResume src { s with evq := mset s.evq src q2 }

/-! ## Other registers (R334) -/

/-- REGISTER_WRITE (R334, R337, R338, R346, R349): a write of `v` at a BAR0 offset with byte enables `be`. A register that
another row names is left to that row; read-only, status and reserved offsets ignore it (R11, R15). -/
def registerWriteEff (off be : Nat) (v : Word32) (s : State) : State :=
  if !bar0Up s then s
  else if off % 4 ≠ 0 ∨ be % 16 ≠ 15 then bar0Reject s
  else if 0x100 ≤ off ∧ off ≤ 0x138 then h2mWrite ((off - 0x100) / 4) v s
  else if s.pkg.recovery then s
  else if 0x810 ≤ off ∧ off ≤ 0x81C then
    if wvBusy s then bar0Reject s
    else { s with hp := { s.hp with wvData := s.hp.wvData.set ((off - 0x810) / 4) v } }
  else if off = 0x2000 then { s with hl := { s.hl with evqSelect := v &&& 0xFF#32 } }
  else s

/-- PERST_ASSERT (R333): PERST#, hot reset (`kind` 1) or Function Level Reset (`kind` 2) resets the PCI Express function. -/
def perstAssertEff (kind : Nat) (s : State) : State :=
  let pins := if kind = 0 then { s.pins with perst := true } else s.pins
  let hl := if kind = 0 then { s.hl with linkUp := false, rated := false } else s.hl
  let s := { s with
    pins := pins
    hl := { hl with bar2Log := 38 }
    hp := { s.hp with msix := [], pba := 0, d2hMask := 0xFFFFFFFF#32, vecMask := 0x1F#5 } }
  if s.mp.running then emitMp Ev.hostReset [] s else s

/-- PERST_RELEASE (spec/17 R469): link training may begin. -/
def perstReleaseEff (s : State) : State := { s with pins := { s.pins with perst := false } }

/-- PCIE_LINK_CHANGE (spec/17 R469, R347): the link comes up or goes down, at its rated rate and width or not. It comes up
only with PERST# released and the package powered. -/
def pcieLinkChangeEff (up rated : Bool) (s : State) : State :=
  if up && (s.pins.perst || s.pkg.power == 3) then s
  else { s with hl := { s.hl with linkUp := up, rated := up && rated } }

end Sys2Proof.Machine
end

