-- ==== Sys2Proof/Machine/Channels.lean ====
section
/-! DEFINITION. Channels.lean: the out-of-band, SMBus and fabric-manager channels (spec/12 R361, R362, R370; spec/17 R475, R476). -/
namespace Sys2Proof.Machine

/-! ## Out-of-band port (R361) -/

/-- OOB_LINK_CHANGE (spec/11 R347). -/
def oobLinkChangeEff (up : Bool) (s : State) : State :=
  if s.pkg.power = 3 then s else { s with mp2 := { s.mp2 with oobUp := up } }

/-- The datagram's CHAN_SEQ noted as acted on, in a list of the last 64. -/
def oobNote (peer seq now : Nat) (ps : List OobPeer) : List OobPeer :=
  ps.map (fun p => if p.addr = peer then { p with lastAt := now, kept := ((seq, none) :: p.kept).take 64 } else p)

/-- A peer has been silent for 60 s. -/
def oobStale (s : State) (q : OobPeer) : Bool := decide (q.lastAt + 60000000000 ≤ s.now)
/-- The peers that keep their slots. -/
def oobLive (s : State) : List OobPeer := s.mp2.oobPeers.filter (fun q => !oobStale s q)

/-- OOB_DATAGRAM (R361): from a peer, to a UDP port, with CHAN_SEQ, VER and the sixteen words. -/
def oobDatagramEff (peer port seq ver : Nat) (ws : List Word32) (s : State) : State :=
  if !s.mp.running || s.pkg.recovery || !s.mp2.oobUp || port != oobPort s || ver != 1 then s
  else
    let ch := Chan.oob peer seq
    let p := reqOf ch ws []
    let s := { s with mp2 := { s.mp2 with oobPeers := oobLive s } }
    match s.mp2.oobPeers.find? (fun q => q.addr == peer) with
    | none =>
      if 4 ≤ s.mp2.oobPeers.length then send (.answer ch (answerWords p.1 p.2.tag stBusy 0 0 []) []) s
      else recvMsg ch ws [] { s with mp2 := { s.mp2 with
        oobPeers := s.mp2.oobPeers ++ [{ addr := peer, lastAt := s.now, kept := [(seq, none)] }] } }
    | some q =>
      let heard : State := { s with mp2 := { s.mp2 with
        oobPeers := s.mp2.oobPeers.map (fun x => if x.addr = peer then { x with lastAt := s.now } else x) } }
      match q.kept.find? (fun k => k.1 == seq) with
      | some (_, some a) => send (.answer ch a []) heard
      | some (_, none) => heard
      | none => recvMsg ch ws [] { s with mp2 := { s.mp2 with oobPeers := oobNote peer seq s.now s.mp2.oobPeers } }

/-- OOB_PEER_EXPIRY (R361): a peer that has been silent for 60 s loses its slot and its kept answers. -/
def oobPeerExpiryEff (peer : Nat) (s : State) : State :=
  { s with mp2 := { s.mp2 with oobPeers := s.mp2.oobPeers.filter (fun q => !(q.addr == peer && oobStale s q)) } }

/-! ## Fabric-manager channel (R362, R370) -/

/-- A sequence number taken into a bitmap of the 1,024 up to the newest: the new newest and marks, or none for a copy. -/
def seqTake (newest : Option Nat) (marks : List Nat) (q : Nat) : Option (Nat × List Nat) :=
  match newest with
  | none => some (q, [q])
  | some n =>
    if newer 32 q n then some (q, q :: marks.filter (fun m => decide ((q + 2 ^ 32 - m) % 2 ^ 32 < 1024)))
    else if marks.contains q || decide (1024 ≤ (n + 2 ^ 32 - q) % 2 ^ 32) then none
    else some (n, q :: marks)

/-- A worker accepts commands of this package and term (R362, R376). -/
def fmSender (s : State) (m : FmMsg) : Bool :=
  if s.pod.managerLost then m.srcPkg == s.pod.standbyPkg.toNat && newer 16 m.term s.pod.fmTerm.toNat
  else (m.srcPkg == s.pod.managerPkg.toNat && !newer 16 s.pod.fmTerm.toNat m.term)
    || (m.srcPkg == s.pod.standbyPkg.toNat && newer 16 m.term s.pod.fmTerm.toNat)

/-- A newer term adopted: its sender is the manager, and where the standby package sent it the two packages change roles (R375, R376; spec/14
R418). A former manager becomes the standby (R419). -/
def adoptTerm (m : FmMsg) (s : State) : State :=
  let swapped := m.srcPkg == s.pod.standbyPkg.toNat && m.srcPkg != s.pod.managerPkg.toNat
  let lost := s.pod.role == 1 && m.srcPkg != s.pod.pkgId.toNat
  let again := s.pod2.lostRoleAt.any (fun t => decide (s.now < t + 3600000000000)) || decide (1 ≤ s.pod2.roleLosses)
  let pd : Pod := { s.pod with
    fmTerm := BitVec.ofNat 16 m.term, managerPkg := BitVec.ofNat 16 m.srcPkg, managerLost := false
    standbyPkg := if swapped then s.pod.managerPkg else s.pod.standbyPkg
    role := if lost then 2 else s.pod.role, leaseHeld := s.pod.leaseHeld && !lost }
  let p2 : Pod2 := if lost then
      { s.pod2 with formerManager := true, lostRoleAt := some s.now, roleLosses := s.pod2.roleLosses + 1, noReturn := again }
    else s.pod2
  { s with pod := pd, pod2 := p2 }

/-- FM_MESSAGE (R362): a copy of a request, or of an answer, on either path. -/
def fmMessageEff (m : FmMsg) (isAnswer : Bool) (s : State) : State :=
  let discard : State := { s with pod := { s.pod with fmDiscards := s.pod.fmDiscards + 1 } }
  if !s.mp.running || s.pkg.recovery || decide (4096 < m.payload.length) then s
  else if isAnswer then (if s.pod.role = 1 ∨ s.pod.role = 2 then fmAnswer m s else s)
  else
    let ch := Chan.fm m.srcPkg m.fmSeq
    let op := (reqOf ch m.words m.payload).1
    if 0x0810 ≤ op ∧ op ≤ 0x0811 then
      if s.pod.role ≠ 1 ∨ !s.pod.members.contains m.srcPkg ∨ m.term ≠ s.pod.fmTerm.toNat then discard
      else
        match seqTake (mfind s.pod2.repNewest m.srcPkg) (mget s.pod2.repMarks [] m.srcPkg) m.fmSeq with
        | none => s
        | some (n, ms) => recvMsg ch m.words m.payload { s with pod2 := { s.pod2 with
            repNewest := mset s.pod2.repNewest m.srcPkg n, repMarks := mset s.pod2.repMarks m.srcPkg ms } }
    else if !fmSender s m then discard
    else
      let s := if newer 16 m.term s.pod.fmTerm.toNat then adoptTerm m s else s
      match seqTake s.pod.fmNewest s.pod.fmMarks m.fmSeq with
      | none => s
      | some (n, ms) => recvMsg ch m.words m.payload { s with pod := { s.pod with fmNewest := some n, fmMarks := ms } }

/-- No heartbeat of the manager for 5 ms (R376; spec/14 R418). -/
def managerSilent (s : State) : Bool := s.pod.lastHeartbeat.all (fun t => decide (t + 5000000 ≤ s.now))

/-- MANAGER_LOST (R376): a worker has received no heartbeat for 5 ms. -/
def managerLostEff (s : State) : State :=
  if !s.mp.running || s.pod.role == 1 || s.pod.podState == 0 || s.pod.managerLost || !managerSilent s then s
  else emitMp Ev.managerLost [s.pod.managerPkg.toNat] { s with pod := { s.pod with managerLost := true } }

/-! ## SMBus (spec/17 R475, R476) -/

/-- The port is served: RUN, IDLE and DEEP, not in recovery. -/
def smbUp (s : State) : Bool := s.pkg.power != 3 && !s.pkg.recovery && s.mp.running
/-- Bit 2 of code 0x03: HEALTH_SEQ has changed since the last read of the byte. -/
def smbChanged (s : State) : Bool := s.hl.healthSeq != s.mp2.smbHealthSeq
/-- ALERT# is asserted (R476). -/
def alertPin (s : State) : Bool := s.mp2.smbAnswer.isSome || smbChanged s

/-- SMB_BLOCK_WRITE (R475, R476): code 0x01 with its count, PEC outcome and words. -/
def smbBlockWriteEff (count : Nat) (pecOk : Bool) (ws : List Word32) (s : State) : State :=
  if !smbUp s || s.mp2.smbBusy || s.mp2.smbAnswer.isSome || !pecOk || count != 64 then s
  else recvMsg .smbus ws [] { s with mp2 := { s.mp2 with smbBusy := true } }

/-- SMB_BLOCK_READ (R475): code 0x02 returns and releases the held answer; count 0 when none is held. -/
def smbBlockReadEff (s : State) : State :=
  if !smbUp s then s else
    match s.mp2.smbAnswer with
    | none => send (.smbus [0]) s
    | some ws => send (.smbus (64#8 :: ws.flatMap (fun w => leBytes 4 w.toNat))) { s with mp2 := { s.mp2 with smbAnswer := none } }

/-- SMB_READ_BYTE (R475): code 0x03. -/
def smbReadByteEff (s : State) : State :=
  if !smbUp s then s else
    let b := b2n s.mp2.smbBusy + 2 * b2n s.mp2.smbAnswer.isSome + 4 * b2n (smbChanged s)
    send (.smbus [BitVec.ofNat 8 b]) { s with mp2 := { s.mp2 with smbHealthSeq := s.hl.healthSeq } }

/-- SMB_ALERT_RESPONSE (R476): the package answers with its own address while ALERT# is asserted. -/
def smbAlertResponseEff (s : State) : State :=
  if smbUp s && alertPin s then send (.smbus [BitVec.ofNat 8 (2 * s.pins.smbAddr)]) s else s

/-! ## Two-phase execution (R364, R365) -/

/-- A command in progress is abandoned (R364): ABORT goes to the controllers that prepared, which drop it, and the answer is FAILED with the site. -/
def abandon (e : JEntry) (site : Nat) (s : State) : State :=
  let s := toSites 9 [e.op, e.req.tag] e.prepared (dropHeld e.op e.req s)
  match e.ticket with
  | some t => finishTicket t stFailed site [] s
  | none => closeCmd e.op e.req stFailed site [] [] s

/-- A controller has prepared a command. Once every controller concerned has, its entry is PREPARED, and COMMIT goes to each of them. -/
def preparedAt (op : Nat) (r : Req) (site : Nat) (s : State) : State :=
  match s.mp.journal.find? (isEntry op r) with
  | none => s
  | some e =>
    let l := addOnce e.prepared site
    let all := e.sites.all l.contains
    let s := journalSet op r (fun e => { e with prepared := l, stage := if all then 1 else e.stage }) s
    if all && e.stage == 0 then toSites 8 [op, r.tag] l s else s

/-- PREPARE (R364): the controller of a site receives a command of a term; it holds it, or refuses it. -/
def prepareEff (site term op : Nat) (r : Req) (accepts : Bool) (s : State) : State :=
  if !siteUp s site || newer 16 (mget s.mp.ctrlTerm 0 site).toNat term then s
  else
    let s := { s with mp := { s.mp with ctrlTerm := mset s.mp.ctrlTerm site (BitVec.ofNat 16 term) } }
    if accepts then preparedAt op r site { s with mp := { s.mp with held := mset s.mp.held site (BitVec.ofNat 16 term, op, r) } }
    else match s.mp.journal.find? (isEntry op r) with
      | some e => if e.stage = 0 then abandon e site s else s
      | none => s

/-- COMMIT (R364): the controller applies what it holds, when the term is no older than the newest that it has seen. -/
def commitEff (site term : Nat) (s : State) : State :=
  if newer 16 (mget s.mp.ctrlTerm 0 site).toNat term then s else
    let s := { s with mp := { s.mp with ctrlTerm := mset s.mp.ctrlTerm site (BitVec.ofNat 16 term) } }
    match mfind s.mp.held site with
    | none => s
    | some (_, op, r) =>
      journalSet op r (fun e => { e with applied := addOnce e.applied site })
        { s with mp := { s.mp with held := mdel s.mp.held site } }

/-- ABORT (R364): the controller discards what it holds. -/
def abortCmdEff (site term : Nat) (s : State) : State :=
  if newer 16 (mget s.mp.ctrlTerm 0 site).toNat term then s
  else { s with mp := { s.mp with held := mdel s.mp.held site, ctrlTerm := mset s.mp.ctrlTerm site (BitVec.ofNat 16 term) } }

/-- PREPARE_TIMEOUT (R364): the command in progress is abandoned, for the controller of `site` has not answered within 1 ms of its taking. -/
def prepareTimeoutEff (site : Nat) (s : State) : State :=
  match s.mp.journal.find? (fun e => e.stage == 0 && e.sites.contains site && !e.prepared.contains site && decide (e.takenAt + 1000000 ≤ s.now)) with
  | none => s
  | some e => if s.mp.running && s.mp.takeoverAt.isNone then abandon e site s else s

/-- CONTROLLER_STATUS (R354, R365): a status message; the controller adopts the term. -/
def controllerStatusEff (site : Nat) (s : State) : State :=
  if !siteUp s site || s.mp2.ctrlDown.contains site then s else
    { s with
      mp := { s.mp with ctrlTerm := mset s.mp.ctrlTerm site s.mp.term }
      mp2 := { s.mp2 with ctrlSeen := mset s.mp2.ctrlSeen site s.now } }

/-- One journal entry resolved by the new processor (R366). A command that some controller has applied is committed at the others, and its row answers it;
a waiting command that stands at TAKEN is carried out afresh by its row, under its ticket (log 17). -/
def resolveEntry (s : State) (e : JEntry) : State :=
  let close (st d : Nat) (ws : List Word32) (s : State) : State :=
    match e.ticket with
    | some t => finishTicket t st d ws s
    | none => closeCmd e.op e.req st d ws [] s
  if 3 ≤ e.stage then s
  else if e.stage = 2 then
    (if s.hp.m2hWait.contains (answerWords e.op e.req.tag e.status e.detail 0 e.words) then s else close e.status e.detail e.words s)
  else if e.stage = 1 then
    if e.applied.isEmpty then close stAborted 0 [] (toSites 9 [e.op, e.req.tag] e.prepared (dropHeld e.op e.req s))
    else toSites 8 [e.op, e.req.tag] (e.prepared.filter (fun x => !e.applied.contains x)) s
  else if ((specNow s e.op).map (·.waits)).getD false then
    { s with mp := { s.mp with journal := s.mp.journal.map (fun x => if x = e ∧ e.ticket.isSome = true then { x with redo := true } else x) } }
  else close stAborted 0 [] s

/-- JOURNAL_RESOLUTION (R366): 2 ms after a takeover. Messages that have arrived meanwhile are taken then. -/
def journalResolutionEff (s : State) : State :=
  if s.mp.takeoverAt.all (fun t => decide (s.now < t + 2000000)) || !s.mp.running then s else
    let ms := s.mp.waitMsgs
    let s := s.mp.journal.foldl resolveEntry { s with mp := { s.mp with takeoverAt := none, waitMsgs := [] } }
    takeMailbox (ms.foldl (fun s m => takeMsg m.1 m.2.1 m.2.2 s) s)

end Sys2Proof.Machine
end

