-- ==== Sys2Proof/Machine/Clocks.lean ====
section
/-! DEFINITION. Clocks.lean: the rows of PLLs, roods, stretches, the global time counter and its discipline (spec/07). -/
namespace Sys2Proof.Machine

/-! ## PLLs and references (R209 to R212) -/

/-- The hub bundle of a die that takes marks (R209). -/
def hubBundle (site : Nat) : Nat := if site < 0x40 then 436 + (site - 0x20) else 448 + (site - 0x40)

/-- The tone of a die's hub bundle stands on λ16: that channel carries the service stream (spec/05 R153, R165). -/
def toneOn16 (s : State) (site : Nat) : Bool :=
  let c := mget s.pho.chans {} (hubBundle site * 32 + 16)
  decide (site < siteLH) && c.st == 4 && c.lane == 17
/-- The reference in use (R209, R238): the hub's tone is named by the wavelength that carries it. -/
def refNow (s : State) (site : Nat) : Nat :=
  let d := dieClk s site
  if d.ref < 2 then b2n (toneOn16 s site) else d.ref
/-- The path delay in use (R227). -/
def delayNow (s : State) (site : Nat) : Option Nat :=
  if toneOn16 s site then (dieClk s site).delay16 else (dieClk s site).delay17

/-- The roods of a die that have not yet started begin at 0 (R216). -/
def startRoods (site : Nat) (s : State) : State :=
  (roodsOf site).foldl (fun s i => if (mfind s.clk.roods (site * 16 + i)).isSome then s else setRood s site i {}) s

/-- A die whose root PLL has locked for the first time since power-up (R210, R212, R221, R223): both PLLs are locked and A drives; SLOW counts on, its
period in progress the same part done; TIME starts, and GTC counts from 0 until the die's step; the hub's resumes from the always-on domain (R234). -/
def lockDie (site : Nat) (s : State) : State :=
  let d := dieClk s site
  let kh := site == siteKH
  startRoods site (setDie s site { d with
    locked := true, osc := false, slowPhase := if d.osc then d.slowPhase * 32 / 1000000 else d.slowPhase, timeRun := true, aligned := true
    pllA := {}, pllBeta := {}, pllB := false, unlocked := false
    ref := if decide (siteLH ≤ site) then 3 else 0
    gtc := if kh then s.aon.gtc else 0, frac := 0, corr := 0, stepped := kh, hold := true })

/-- ROOT_PLL_FIRST_LOCK (R212): SLOW moves to ROOT, TIME and the roods start, every crossing is aligned once (R221). A die that is off has no
PLL (R234). -/
def rootPllFirstLockEff (site : Nat) (s : State) : State :=
  if (dieClk s site).locked || !(sitesOf s.pkg.part).contains site || (decide (2 ≤ s.pkg.power) && !s.pkg.starting) then s
  else lockDie site s

/-- The PLL that drives the tree, and the other one (R210). -/
def activePll (d : DieClk) : Pll := if d.pllB then d.pllBeta else d.pllA
def otherPll (d : DieClk) : Pll := if d.pllB then d.pllA else d.pllBeta
def setActive (d : DieClk) (p : Pll) : DieClk := if d.pllB then { d with pllBeta := p } else { d with pllA := p }
def setOther (d : DieClk) (p : Pll) : DieClk := if d.pllB then { d with pllA := p } else { d with pllBeta := p }
/-- A PLL holds lock. -/
def Pll.holds (p : Pll) : Bool := p.lost.isNone && !p.failed
/-- The standby stands ready (R210). -/
def standbyHolds (d : DieClk) : Bool := d.locked && (otherPll d).holds
/-- The source of a die's clock events (R242). -/
def clkSrc (s : State) (site : Nat) : Nat := if site = siteKH then mpSrc s else site

/-- PLL_LOSS_OF_LOCK (R210): `cause` 0 phase, 1 frequency. The tree is switched to the standby; without one the frequency is held. -/
def pllLossOfLockEff (site cause : Nat) (s : State) : State :=
  let d := dieClk s site
  if !d.locked || d.unlocked then s
  else
    let e := setActive d { activePll d with lost := some s.now, cause := cause }
    if standbyHolds d then
      let e := { e with pllB := !d.pllB }
      emit (clkSrc s site) Ev.pllSwitch [site, b2n e.pllB, cause] (setDie s site e)
    else setDie s site { e with unlocked := true }

/-- A PLL being relocked has lost lock at least `ns` ago and has not been given up. -/
def lostSince (now ns : Nat) (p : Pll) : Bool := !p.failed && p.lost.any (fun t => decide (t + ns ≤ now))

/-- PLL_STANDBY_READY (R210): the relocked PLL has held lock for 10 s and becomes the standby. Where neither held lock, the first one drives the tree
again, the one that drove it before the other (DESIGN CHOICE, log 49). -/
def pllStandbyReadyEff (site : Nat) (s : State) : State :=
  let d := dieClk s site
  let back (p : Pll) : Pll := { p with lost := none }
  if d.unlocked then
    if lostSince s.now 10000000000 (activePll d) then setDie s site (setActive { d with unlocked := false } (back (activePll d)))
    else if lostSince s.now 10000000000 (otherPll d) then
      let e := setOther d (back (otherPll d))
      setDie s site { e with unlocked := false, pllB := !d.pllB }
    else s
  else if lostSince s.now 10000000000 (otherPll d) then setDie s site (setOther d (back (otherPll d)))
  else s

/-- PLL_FAIL (R210): a PLL has not relocked within 1 s. -/
def pllFailEff (site : Nat) (s : State) : State :=
  let d := dieClk s site
  let gone (p : Pll) : Pll := { p with failed := true }
  let ev (cause : Nat) (e : DieClk) : State := emit (clkSrc s site) Ev.pllFail [site, b2n e.pllB, cause] (setDie s site e)
  if lostSince s.now 1000000000 (otherPll d) then ev (otherPll d).cause (setOther d (gone (otherPll d)))
  else if lostSince s.now 1000000000 (activePll d) then ev (activePll d).cause (setActive d (gone (activePll d)))
  else s

/-- A die holds over (R229): GTC_HOLD set and GTC_HOLDOVER emitted with its cause. -/
def gtcHoldover (site cause : Nat) (s : State) : State :=
  let d := dieClk s site
  if d.hold || site == siteKH then s else emit site Ev.gtcHoldover [site, cause] (setDie s site { d with hold := true, corr := 0 })

/-- A die whose references come by light. -/
def litDie (site : Nat) : Bool := decide (site < siteLH)
/-- The service stream of a bundle is up. -/
def serviceUp (s : State) (b : Nat) : Bool := !(mget s.pho.bundles {} b).serviceLost
/-- The bundle whose service framing a die's reference falls back to: the lowest-numbered one that comes in from a KC die and whose service stream is
up (R165). -/
def peerFraming (s : State) (site : Nat) : Option Nat :=
  let ep := if site < 0x40 then site - 0x20 else 16 + (site - 0x40)
  (List.range 452).find? (fun b => bDst b == ep && decide (bSrc b < 12) && bundleOn s.pkg.part b && serviceUp s b)

/-- REF_FALLBACK (R211, R165): the hub tone is lost with its bundle's service stream, and the PLL takes a peer's service framing. A die that has lost
every reference (REF 4) does not take one that comes up later: only the hub tone ends it (DESIGN CHOICE, log 43: R211 names no such change). -/
def refFallbackEff (site : Nat) (s : State) : State :=
  let d := dieClk s site
  if !litDie site || !d.locked || decide (1 < d.ref) || serviceUp s (hubBundle site) || (peerFraming s site).isNone then s
  else gtcHoldover site 2 (emit site Ev.refFallback [site, refNow s site, 2] (setDie s site { d with ref := 2 }))

/-- REF_RESTORED (R211, R165): 10 ms after the hub tone reappears. -/
def refRestoredEff (site : Nat) (s : State) : State :=
  let d := dieClk s site
  if !litDie site || !d.locked || decide (d.ref < 2) || !serviceUp s (hubBundle site)
    || decide (s.now < (mget s.pho.bundles {} (hubBundle site)).upAt + 10000000) then s
  else
    emit site Ev.refRestored [site, d.ref, b2n (toneOn16 s site)] (setDie s site { d with ref := 0 })

/-- REF_LOST (R211, R212): no usable input; a die that has never locked is held out of service. -/
def refLostEff (site : Nat) (s : State) : State :=
  let d := dieClk s site
  if !d.locked then
    if litDie site && s.pkg.present.contains site && !s.pkg.heldOut.contains site then
      emit (clkSrc s site) Ev.refLost [site, 4, 4] { s with pkg := { s.pkg with heldOut := addOnce s.pkg.heldOut site } }
    else s
  else if d.ref = 4 ∨ (litDie site && (serviceUp s (hubBundle site) || (peerFraming s site).isSome)) = true then s
  else emit (clkSrc s site) Ev.refLost [site, refNow s site, 4] (setDie s site { d with ref := 4 })

/-- REFCLK_RETURN (R211): the KH root PLL leaves holdover. -/
def refclkReturnEff (s : State) : State :=
  let d := dieClk s siteKH
  if d.locked && d.ref == 4 then
    let e := { d with ref := 3 }
    setDie s siteKH (if d.unlocked && !(activePll d).failed then setActive { e with unlocked := false } { activePll d with lost := none } else e)
  else s

/-! ## Stretches and frequency changes (R217 to R220) -/

/-- The instance of the rood counters (spec/16 R447). -/
def roodInst (site id : Nat) : Nat := site + 256 * id

/-- The period that a trip stretches (R217): the next that begins at least 2 ROOT cycles later. -/
def tripPeriod (key : Nat) (r : Rood) : Nat := if r.phase + 2 ≤ periodLen key r then periodNo r + 1 else periodNo r + 2
/-- The stretched periods among the 63 before a period (R218). -/
def recentStretches (r : Rood) (n : Nat) : Nat := (r.stretches.filter (fun c => decide (n < c + 64))).length

/-- A denied stretch (R218): counted, reported once a second, and in a cluster rood the clock steps down and is held. -/
def stretchDenied (site id : Nat) (r : Rood) (s : State) : State :=
  let g := (gtcOf s site).toNat
  let den := inLastSecond g r.denials
  let sec := g / 16000000000
  let first := r.deniedSec != some sec
  let cur := limitDiv r (targetDiv r)
  let r' := { r with denials := den, deniedSec := some sec }
  let r'' := if isClusterRood site id then
      { r' with holdUntil := some (s.now + 10000000)
                heldDiv := if 3 ≤ cur then r'.heldDiv else some (cur + 1)
                cause := if 3 ≤ cur then r'.cause else 1 }
    else r'
  let s := bump 0x2002 (roodInst site id) 1 (setRood s site id r'')
  if first then emitRood (clkSrc s site) id Ev.stretchDenied [site, id, den.length] s else s

/-- DROOP_TRIP (R217, R218): ignored while the rood is stopped (R220). A period is stretched at most once; of 64 in a row at most 4 are. -/
def droopTripEff (site id : Nat) (s : State) : State :=
  let r := rood s site id
  let n := tripPeriod (site * 16 + id) r
  if !(roodsOf site).contains id || !(dieClk s site).locked || r.stopped || r.gated || stretched r n then s
  else if recentStretches r n < 4 then
    bump 0x2001 (roodInst site id) 1 (setRood s site id { r with stretches := (n :: r.stretches).take 4 })
  else stretchDenied site id r s

/-- ROOD_HOLD_EXPIRY (R218): 10 ms without a denied stretch; back to the set frequency in one change. -/
def roodHoldExpiryEff (site id : Nat) (s : State) : State :=
  let r := rood s site id
  if r.holdUntil.all (fun t => decide (s.now < t)) then s
  else setRood s site id { r with holdUntil := none, heldDiv := some (limitDiv r r.setDiv), cause := 1 }

/-- ROOD_STOP (R220): the rood completes the period in progress and stops to load the held ROOD_DIV. For an increase its supply has been raised. -/
def roodStopEff (site id : Nat) (s : State) : State :=
  let r := rood s site id
  match r.heldDiv with
  | none => s
  | some d =>
    if !isClusterRood site id || r.stopped || r.gated then s
    else
      let r := if r.phase = 0 then r else endPeriod r
      setRood s site id { r with stopped := true, heldDiv := none, loading := some d, supply := min r.supply d }

/-- ROOD_FREQ (R220): the rood restarts at the new frequency with its cycle counter unchanged. After a decrease its supply is lowered. -/
def roodFreqEff (site id : Nat) (s : State) : State :=
  let r := rood s site id
  match r.loading with
  | none => s
  | some d =>
    if !r.stopped then s
    else emitRood site id Ev.roodFreq [site, id, pairArg r.div d, r.cause]
      (setRood s site id { r with stopped := false, div := d, loading := none, supply := d })

/-! ## Global time (R223 to R232) -/

/-- The dies that take marks on a part. -/
def markDies (part : Nat) : List Nat := ((List.range (stacksOf part)).map siteKC) ++ ((List.range (tilesOf part)).map siteLT)

/-- TIME_MARK_RECEIVED (R226, R228, R229): a mark reaches a die, on its own hub bundle's service stream or by relay, with the
GTC latched for the frame. -/
def timeMarkReceivedEff (site : Nat) (m : Mark) (own : Bool) (latched : BitVec 64) (s : State) : State :=
  let d := dieClk s site
  let delay := delayNow s site
  let fresh := match d.lastMseq with
    | none => true
    | some q => newer 16 m.mseq q
  if !own || !fresh || m.reserved != 0 || !d.timeRun || d.ref == 2 || site == siteKH then s
  else
    match delay with
    | none => s
    | some dl =>
      let target := m.frameGtc + BitVec.ofNat 64 dl
      let off : Int := (target - latched).toInt
      let d1 := { d with lastMseq := some (m.mseq % 2 ^ 16), markAt := some s.now, rate := m.rate, offset := clampI (-32767) 32767 off }
      if !d.stepped then
        let g := target + (d.gtc - latched)
        emit site Ev.gtcStep [site, d.gtc.toNat, g.toNat]
          (setDie s site { d1 with gtc := g, stepped := true, hold := false, corr := 0 })
      else
        setDie s site { d1 with
          corr := off
          hold := d.hold && !decide (-8 ≤ off ∧ off ≤ 8) }

/-- DELAY_ECHO (R227): half of the round trip less the echo turnaround, for lambda 17 or lambda 16. -/
def delayEchoEff (site roundTrip turnaround : Nat) (lambda16 : Bool) (s : State) : State :=
  let d := dieClk s site
  if !d.timeRun || site == siteKH then s else
    let v := some ((roundTrip - turnaround) / 2)
    setDie s site (if lambda16 then { d with delay16 := v } else { d with delay17 := v })

/-- GTC_HOLDOVER (R229): `cause` 0 stream lost, 1 relay only, 2 fallback reference. -/
def gtcHoldoverEff (site cause : Nat) (s : State) : State := if (dieClk s site).timeRun then gtcHoldover site cause s else s

/-- TIME_CFG's sources. -/
def primarySrc (s : State) : Nat := bitsN (cfgEff s 4 0) 20 4
def fallbackSrc (s : State) : Nat := bitsN (cfgEff s 4 0) 16 4

/-- The hub's source in use, and whether it is locked; GTC_HOLD of the hub is 1 while it is not (R238). -/
def setSource (src : Nat) (locked : Bool) (s : State) : State :=
  let s := { s with clk := { s.clk with hub := { s.clk.hub with src := src, locked := locked } } }
  setDie s siteKH { dieClk s siteKH with hold := !locked }

/-- The primary source has held lock for 10 s. -/
def primaryHeld (s : State) : Bool := s.clk.hub.primaryLockAt.any (fun t => decide (t + 10000000000 ≤ s.now))
/-- The primary source has not locked within 10 s of start, or has been lost for 1 s. Free running (source 0) never counts as locked (DESIGN CHOICE, log 43: R230 does not
say whether it does). -/
def primaryGone (s : State) : Bool :=
  let h := s.clk.hub
  h.primaryLockAt.isNone && (match h.primaryLostAt with
    | some t => decide (t + 1000000000 ≤ s.now)
    | none => h.startAt.any (fun t => decide (t + 10000000000 ≤ s.now)))

/-- TIME_SRC_CHANGE (R230): to the primary source, which has held lock for 10 s, or to the fallback once the primary has gone. -/
def timeSrcChangeEff (toPrimary : Bool) (s : State) : State :=
  let dest := if toPrimary then primarySrc s else fallbackSrc s
  let h := s.clk.hub
  if !(dieClk s siteKH).timeRun || h.src == dest || !(if toPrimary then primaryHeld s else primaryGone s) then s
  else emitMp Ev.timeSrcChange [h.src, dest] (setSource dest (toPrimary || h.fallbackLocked) s)

/-- The hub master corrected by `off` grains: stepped at first lock or beyond 1 ms while no partition holds a job, and
slewed otherwise (R228). The discipline also sets the hub's rate, a free value of at most 1 grain a cycle (R225, R230; log 43). -/
def discipline (off : Int) (s : State) : State :=
  let d := { dieClk s siteKH with rate := clampI (-(2 ^ 24)) (2 ^ 24) (Config.hubRate s.fresh) }
  let s := { s with fresh := s.fresh + 1 }
  let h := s.clk.hub
  let big := decide (off < -16000000 ∨ 16000000 < off)
  if (!h.everLocked || big) && !anyJob s then
    let g := d.gtc + BitVec.ofInt 64 off
    let s := { s with clk := { s.clk with hub := { h with everLocked := true, stepFlag := true, offsetLarge := false } } }
    emitMp Ev.gtcStep [siteKH, d.gtc.toNat, g.toNat] (setDie s siteKH { d with gtc := g, corr := 0 })
  else
    let large := decide (off < -160000 ∨ 160000 < off)
    let s := { s with clk := { s.clk with hub := { h with everLocked := true, offsetLarge := large } } }
    let s := setDie s siteKH { d with corr := off }
    if large && !h.offsetLarge then emitMp Ev.gtcOffsetLarge [intArg off] s else s

/-- An instant of the PTP timescale, in grains, as the GTC that it would have (R224). -/
def ptpGtc (s : State) (t : Nat) : Int := (t : Int) - s.aon.origin.toNat * 16000000000
/-- A GTC on the PTP timescale. -/
def gtcPtp (s : State) (g : BitVec 64) : Nat := g.toNat + s.aon.origin.toNat * 16000000000

/-- A source is heard, locked or not, with the hub's offset from it, which gives its present instant (R224, R230). The primary source is taken at its
first lock. A source that TIME_CFG no longer selects disciplines nothing. -/
def hearSource (code : Nat) (ok : Bool) (off : Int) (s : State) : State :=
  if !(dieClk s siteKH).timeRun then s else
    let h := s.clk.hub
    let h := if code = primarySrc s then
      { h with primaryLockAt := if ok then some (h.primaryLockAt.getD s.now) else none
               primaryLostAt := if ok then none else if h.primaryLockAt.isSome then some s.now else h.primaryLostAt } else h
    let h := if code = fallbackSrc s then { h with fallbackLocked := ok } else h
    let first := code == primarySrc s && !h.everLocked && ok && h.src == 0 && code != 0
    let inUse := (h.src == code && (code == primarySrc s || code == fallbackSrc s)) || first
    let h' := if ok && inUse then { h with srcTime := ((gtcPtp s (hubGtc s) : Int) + off).toNat, srcAt := s.now } else h
    let s := { s with clk := { s.clk with hub := h' } }
    let s := if first then emitMp Ev.timeSrcChange [h.src, code] s else s
    if !inUse then s
    else if ok && !safeState s 6 0 then discipline off (setSource code true s)
    else setSource code false s

/-! ### IEEE 1588 (R231) -/

def ptpOf (s : State) (k : Nat) : PtpPort := mget s.clk.hub.ptp {} k
def setPtp (k : Nat) (p : PtpPort) (s : State) : State :=
  { s with clk := { s.clk with hub := { s.clk.hub with ptp := mset s.clk.hub.ptp k p } } }
/-- A dataset stands before another: the lexicographic order of their entries. -/
def datasetBefore (a b : List Nat) : Bool :=
  match a, b with
  | x :: a, y :: b => decide (x < y) || (x == y && datasetBefore a b)
  | _, _ => false
/-- The best master clock heard, and its port. -/
def bestMaster (s : State) : Option (Nat × List Nat) :=
  s.clk.hub.ptp.foldl (fun m q => match q.2.master, m with
    | none, _ => m
    | some d, none => some (q.1, d)
    | some d, some (k, b) => if datasetBefore d b then some (q.1, d) else some (k, b)) none
/-- The hub's own dataset: priority1 is 128, the default of the profile, and the entries behind it are open (log 43). -/
def ownDataset : List Nat := 128 :: Config.ptpOwn
/-- The port on which the hub follows a master: that of the best one, where it stands before the hub's own clock. -/
def slavePort (s : State) : Option Nat := (bestMaster s).bind (fun q => if datasetBefore q.2 ownDataset then some q.1 else none)

/-- A sync with both its timestamps asks for the delay (the end-to-end mechanism): the request leaves with its timestamp taken. -/
def ptpAsk (k : Nat) (p : PtpPort) (s : State) : State :=
  if p.t1.isSome && p.t2.isSome then
    send (.ptp k 1 []) (setPtp k { p with t3 := some (gtcPtp s (hubGtc s)) } s)
  else setPtp k p s

/-- The exchange is complete: the hub's offset from its master is half the sum of the two differences. -/
def ptpOffset (s : State) (p : PtpPort) (t4 : Nat) : Option Int :=
  match p.t1, p.t2, p.t3 with
  | some t1, some t2, some t3 => some ((ptpGtc s t1 - ptpGtc s t2 + (ptpGtc s t4 - ptpGtc s t3)) / 2)
  | _, _, _ => none

/-- PTP_MESSAGE (R230, R231): a boundary clock over E0 to E15 with the end-to-end delay mechanism, in the domain and on the transport of TIME_CFG. A port
on which the hub follows no master answers delay requests, where the hub follows one on another port or is itself grandmaster on PTM or free running. -/
def ptpMessageEff (m : PtpMsg) (s : State) : State :=
  let c := cfgEff s 4 0
  let p := ptpOf s m.port
  let own := slavePort s == some m.port
  if !(dieClk s siteKH).timeRun || decide (15 < m.port) || m.domain != bitsN c 24 8 || m.transport != bitsN c 12 4 then s
  else match m.kind with
    | .announce d => setPtp m.port { p with master := some d } s
    | .silent =>
      let s := setPtp m.port {} s
      if own && (slavePort s).isNone then hearSource 2 false 0 s else s
    | .sync t1 rx => if own then ptpAsk m.port { p with t1 := t1, t2 := some (gtcPtp s rx), t3 := none } s else s
    | .followUp t1 => if own && p.t2.isSome && p.t1.isNone then ptpAsk m.port { p with t1 := some t1 } s else s
    | .delayReq sender rx =>
      if own || !((slavePort s).isSome || decide (s.clk.hub.src ≤ 1)) then s else send (.ptp m.port 2 [sender, gtcPtp s rx]) s
    | .delayResp t4 =>
      match ptpOffset s p t4 with
      | none => s
      | some off => if own then hearSource 2 true off (setPtp m.port { p with t1 := none, t2 := none, t3 := none } s) else s

/-- The dataset that the hub announces: its master's, or its own as grandmaster on PTM or free running. -/
def announced (s : State) : Option (List Nat) :=
  match slavePort s with
  | some _ => (bestMaster s).map (·.2)
  | none => if s.clk.hub.src ≤ 1 then some ownDataset else none
/-- The ports on which the hub is master: those with a link, but the one on which it follows, and those that hear a master that stands no lower. -/
def masterPorts (s : State) (d : List Nat) : List Nat :=
  (onesOf 16 (ethUpMask s)).filter (fun k => slavePort s != some k && (ptpOf s k).master.all (fun m => datasetBefore d m))
/-- What the hub sends of itself as a boundary clock (R231): on each port on which it is master a Sync each second, with its timestamp or with a
Follow_Up behind it, and an Announce each 2 seconds: the default profile's intervals (PRESUMED, log 43). -/
def ptpTick (s : State) : State :=
  if s.now % 1000000000 ≠ 0 ∨ (dieClk s siteKH).timeRun = false then s
  else match announced s with
    | none => s
    | some d => (masterPorts s d).foldl (fun s k =>
      let t := gtcPtp s (hubGtc s)
      let s := if s.now % 2000000000 = 0 then send (.ptp k 3 d) s else s
      if Config.ptpTwoStep k then send (.ptp k 5 [t]) (send (.ptp k 4 []) s) else send (.ptp k 4 [t]) s) s

/-- PTM_DIALOGUE (R232): once in 1 ms the device asks its upstream port; the PTM master time, in ns, less TIME_ORIGIN is the reference of GTC. -/
def ptmDialogueEff (ok : Bool) (master : Nat) (s : State) : State :=
  if !(dieClk s siteKH).timeRun || !s.hl.linkUp || s.clk.hub.ptmAt.any (fun t => decide (s.now < t + 1000000)) then s
  else
    let s := send (.pcie 3 0 []) { s with clk := { s.clk with hub := { s.clk.hub with ptmAt := some s.now } } }
    hearSource 1 ok (ptpGtc s (16 * master) - (hubGtc s).toNat) s

/-- COUNTER_EXTENSION_POLL (R240, spec/16 R446): every raw counter is read and extended. -/
def counterExtensionPollEff (s : State) : State :=
  if decide (2 ≤ s.pkg.power) then s
  else { s with obs := { s.obs with ctrs := mmap s.obs.ctrs (fun _ c => extend c), lastPoll := s.now } }

/-- The time status word (R238). -/
def timeStatusWord (s : State) (site : Nat) : Nat :=
  let d := dieClk s site
  let kh := site == siteKH
  let pll := if d.unlocked then 3 else if d.locked && !standbyHolds d then 2 else b2n d.pllB
  let age := match d.markAt with
    | none => 0xFFFF
    | some t => min ((s.now - t) / 1000) 0xFFFF
  let delay := ((delayNow s site).getD 0) % 2 ^ 16
  refNow s site * 2 ^ 60 + pll * 2 ^ 58 + b2n d.hold * 2 ^ 57 + (if kh then s.clk.hub.src * 2 ^ 53 + b2n s.clk.hub.locked * 2 ^ 52 else 0)
    + ofInt 16 d.offset * 2 ^ 32 + age * 2 ^ 16 + delay

/-- TIME_STATUS (R238, spec/12 R368): ABSENT for a site absent on the part. -/
def timeStatusEff (r : Req) : State → State := runCmd 0x0404 r (fun s _ =>
  let site := argN r 0
  if siteReserved site then .bad stBadArg 0
  else if siteAbsent s site then .bad stAbsent 0
  else .ok s (wordsOf 2 (timeStatusWord s site)))

end Sys2Proof.Machine
end

