-- ==== Sys2Proof/Machine/Failover.lean ====
section
/-! DEFINITION. Failover.lean: the two management processors: heartbeats, takeover, return, watchdog and drill (spec/14 R409 to
R415; spec/12 R365). -/
namespace Sys2Proof.Machine

/-- When the heartbeat word of a processor last changed; `b` names MP-B. -/
def hbAt (s : State) (b : Bool) : Nat := if b then s.mp.hbBat else s.mp.hbAat
/-- The word of a processor has not changed for `ns`. -/
def hbSilent (s : State) (b : Bool) (ns : Nat) : Bool := decide (hbAt s b + ns ≤ s.now)
/-- The watch of a processor's word begins anew. -/
def hbFrom (b : Bool) (s : State) : State :=
  if b then { s with mp := { s.mp with hbBat := s.now } } else { s with mp := { s.mp with hbAat := s.now } }

/-- MP_HEARTBEAT (R409): a processor that runs increments its word every 500 µs; `b` names MP-B. -/
def mpHeartbeatEff (b : Bool) (s : State) : State :=
  if s.pkg.power == 3 || !hbSilent s b 500000 || (b != s.mp.activeB && s.mp.standbyReset) || (b == s.mp.activeB && !s.mp.running) then s
  else if b then { s with mp := { s.mp with hbB := s.mp.hbB + 1, hbBat := s.now } }
  else { s with mp := { s.mp with hbA := s.mp.hbA + 1, hbAat := s.now } }

/-- The manager role of this package moves with the active processor (R419, R375): TERM increments, and the pod enters
RECOVERY unless a drill moves it (R414). -/
def roleMoves (drill : Bool) (s : State) : State :=
  if s.pod.role ≠ 1 then s
  else
    let s := { s with pod := { s.pod with fmTerm := s.pod.fmTerm + 1 } }
    if drill then s else podRecovery s

/-- The standby takes control (R365, R409): the new term, the other processor shut out, MP_TAKEOVER with its `cause`:
0 heartbeat, 1 return, 2 drill, 3 DEEP, 4 watchdog (R408). -/
def takeover (cause : Nat) (s : State) : State :=
  let b := !s.mp.activeB
  let m2 := s.mp2
  let loser := b2n s.mp.activeB
  let again := (mfind m2.lossAt loser).any (fun t => decide (s.now < t + 3600000000000))
  let n := mget m2.lossN 0 loser + (if cause = 0 then 1 else 0)
  let back := cause == 1 || cause == 2
  let s := { s with
    mp := { s.mp with activeB := b, standbyOk := back, standbyReset := false, term := s.mp.term + 1
                      takeoverAt := some s.now, formerReset := false }
    mp2 := { m2 with
      lossN := if cause = 0 then mset m2.lossN loser n else m2.lossN
      lossAt := if back then m2.lossAt else mset m2.lossAt loser s.now
      lostCtlAt := if cause = 1 then m2.lostCtlAt else some s.now
      standbySince := if back then some s.now else none
      noReturn := !back && (again || decide (2 ≤ n)) } }
  toSites 10 [] (s.pkg.present.filter (siteUp s)) (emitMp Ev.mpTakeover [b2n b, s.mp.term.toNat, cause] (roleMoves (cause == 2 || s.mp2.drill.isSome) s))

/-- MP_TAKEOVER (R409): the active word has not changed for 5 ms. -/
def mpTakeoverEff (s : State) : State := if s.mp.standbyOk && s.mp.running && hbSilent s s.mp.activeB 5000000 then takeover 0 s else s

/-- STANDBY_FAULT (R409): the standby's word has not changed for 5 ms. -/
def standbyFaultEff (s : State) : State :=
  if !s.mp.standbyOk || !s.mp.running || !hbSilent s (!s.mp.activeB) 5000000 then s
  else emitMp Ev.standbyFault [b2n (!s.mp.activeB), 0, s.mp.selfFails]
    { s with mp := { s.mp with standbyOk := false, standbyReset := true } }

/-- TAKEOVER_RESET_TIMER (R410, R365): 2 ms after the takeover the former processor is held in reset, and every controller has adopted the term. -/
def takeoverResetTimerEff (s : State) : State :=
  if s.mp.formerReset || !s.mp.running || s.mp.takeoverAt.any (fun t => decide (s.now < t + 2000000)) then s
  else { s with mp := { s.mp with formerReset := true, standbyReset := !s.mp.standbyOk
                                  ctrlTerm := (s.pkg.present.filter (siteUp s)).foldl (fun m d => mset m d s.mp.term) s.mp.ctrlTerm } }

/-- STANDBY_READY (R411): the self-check of the processor in reset ends; one that failed is tried again 60 s later. -/
def standbyReadyEff (pass : Bool) (s : State) : State :=
  if !s.mp.running || s.mp.standbyOk || !s.mp.standbyReset || decide (3 ≤ s.mp.selfFails) || s.pkg.power == 2
      || s.mp.selfFailAt.any (fun t => decide (s.now < t + 60000000000)) then s
  else if pass then
    emitMp Ev.standbyReady [b2n (!s.mp.activeB), 1, s.mp.selfFails + 1]
      (hbFrom (!s.mp.activeB) { s with mp := { s.mp with standbyOk := true, standbyReset := false }, mp2 := { s.mp2 with standbySince := some s.now } })
  else
    emitMp Ev.standbyFault [b2n (!s.mp.activeB), 1, s.mp.selfFails + 1]
      { s with mp := { s.mp with selfFails := s.mp.selfFails + 1, standbyReset := true, selfFailAt := some s.now } }

/-- This package lends itself the manager role for a drill (R419): the standby package is the manager until the drill ends. -/
def roleLent (p : Pod) : Pod :=
  { p with role := 1, managerPkg := p.pkgId, standbyPkg := p.managerPkg, leaseHeld := true, leaseAt := none }
/-- The role lent is returned. -/
def roleBack (lent : Bool) (p : Pod) : Pod :=
  if lent then { p with role := 2, managerPkg := p.standbyPkg, standbyPkg := p.pkgId, leaseHeld := false, leaseAt := none } else p

/-- The drill that passed ends with the return of control (R414, R415). -/
def drillEnds (s : State) : State :=
  match s.mp2.drill with
  | none => s
  | some d =>
    let ms := min ((s.now - d.startedAt) / 1000000) 65535
    let st : Settings := { s.upd.flash.settings with drillAt := (hubGtc s).toNat }
    let s := { s with
      mp2 := { s.mp2 with drill := none, drillPassAt := some s.now }
      pod := roleBack d.lent s.pod
      upd := { s.upd with flash := { s.upd.flash with settings := st } } }
    finishTicket d.ticket stOK 0 [BitVec.ofNat 32 (ms * 2 ^ 16 + 1)] s

/-- MP_RETURN (R412): the processor that lost control, healthy as standby for 10 s, takes it back. -/
def mpReturnEff (s : State) : State :=
  if s.mp.running && s.mp.standbyOk && s.mp2.lostCtlAt.isSome && !s.mp2.noReturn
      && s.mp2.standbySince.any (fun t => decide (t + 10000000000 ≤ s.now)) then
    drillEnds (takeover 1 { s with mp2 := { s.mp2 with lostCtlAt := none } })
  else s

/-- MP_WATCHDOG (R413): no healthy standby, and 50 ms of missed heartbeats. -/
def mpWatchdogEff (s : State) : State :=
  if s.mp.standbyOk || !s.mp.running || !hbSilent s s.mp.activeB 50000000 then s
  else
    let s := hbFrom s.mp.activeB { s with mp := { s.mp with term := s.mp.term + 1, takeoverAt := some s.now } }
    toSites 10 [] (s.pkg.present.filter (siteUp s)) (emitMp Ev.mpWatchdog [b2n s.mp.activeB, s.mp.term.toNat] s)

/-- MP_DRILL (R414, R415): `failed` is the first check that fails, 0 for none, with the site that did not answer and the ms
for which the standby held control; check 4 is made on a fabric-manager package. On the standby manager package the role is lent
for the drill, with FM_TAKEOVER. -/
def mpDrillEff (r : Req) (failed site heldMs : Nat) : State → State := runCmd 0x0A02 r (fun s t =>
  if !s.mp.standbyOk || s.upd.activation.isSome || s.mp2.drill.isSome then .bad stRefused 0
  else
    let lent := s.pod.role == 2
    let failed := if 4 < failed || (failed == 4 && s.pod.role == 0) then 0 else failed
    let s1 := if lent then { s with pod := roleLent s.pod } else s
    let s2 := takeover 2 s1
    let s2 := if lent then emitMp Ev.fmTakeover [s2.pod.pkgId.toNat, s2.pod.fmTerm.toNat, 2] s2 else s2
    if failed = 0 then
      .later { s2 with mp2 := { s2.mp2 with drill := some { ticket := t, startedAt := s.now, lent := lent } } }
    else
      let s3 := takeover 1 { s2 with mp2 := { s2.mp2 with drill := some { ticket := t, startedAt := s.now, lent := lent } } }
      let s4 := { s3 with
        mp := { s3.mp with standbyOk := false, standbyReset := true }
        mp2 := { s3.mp2 with lostCtlAt := s.mp2.lostCtlAt, noReturn := s.mp2.noReturn, drill := none }
        pod := roleBack lent s3.pod }
      let w := min heldMs 65535 * 2 ^ 16 + (if failed = 1 then site % 256 * 2 ^ 8 else 0) + failed % 8 * 2
      .ok (emitMp Ev.standbyFault [b2n (!s4.mp.activeB), 2, s4.mp.selfFails] s4) [BitVec.ofNat 32 w])

end Sys2Proof.Machine
end

