-- ==== Sys2Proof/Machine/PhoRows.lean ====
section
/-! DEFINITION. PhoRows.lean: the rows of the photonic layer: ring loops, identity words, mislocks, calibration, castling and light sources
(spec/05). Ring temperatures and photocurrents are operands (log 9). -/
namespace Sys2Proof.Machine

/-! ## Ring loops (R147, R148) -/

/-- One update of a loop's state: the photocurrent in 1/1024 of its calibrated peak, and whether the correction stands at the slew limit. Below 5 % the
loop goes on tracking until the eighth update; above 10 % it resumes. -/
def loopStep (now : Nat) (l : Loop) (cur : Nat) (limit : Bool) : Loop :=
  let low := if cur * 20 < 1024 then l.low + 1 else 0
  if l.st = 3 then l
  else if l.st = 2 then
    (if 1024 < cur * 10 then { l with st := 0, atLimit := 0, below := 0, low := 0, darkAt := none } else { l with low := low })
  else if 8 ≤ low then { l with st := 2, atLimit := 0, below := 0, low := low, darkAt := some now }
  else
    let a := if limit then l.atLimit + 1 else 0
    let b := if limit then 0 else l.below + 1
    { l with st := if 4 ≤ a then 1 else if l.st = 1 ∧ 4 ≤ b then 0 else l.st, atLimit := a, below := b, low := low }

/-- A heater code moved by a correction, at most 16 codes an update. -/
def moveHeat (code : Nat) (corr : Int) : Nat := (clampI 0 4095 ((code : Int) + clampI (-16) 16 corr)).toNat

/-- The correction that a modulator's loop asks for (R147; log 51): its target is SETPT/256 of the peak on the low-frequency flank, so the heater rises while
the photocurrent is below the target, and falls while it is above. -/
def modCorr (setpt cur : Nat) : Int :=
  if cur < 4 * setpt then (Config.ringGain (4 * setpt - cur) : Int)
  else if 4 * setpt < cur then -(Config.ringGain (cur - 4 * setpt) : Int) else 0

/-- The correction that a filter's loop asks for: toward the stronger of its two dither readings. -/
def filterCorr (l : Loop) (cur : Nat) : Int :=
  let up : Int := if l.up then 1 else -1
  if l.last < cur then up * (Config.ringGain (cur - l.last) : Int)
  else if cur < l.last then -up * (Config.ringGain (l.last - cur) : Int) else 0

/-- The heater code of a filter as applied: one above or one below while its loop dithers (R147). -/
def rxApplied (c : Ch) : Nat :=
  if 2 ≤ c.rxLoop.st then c.rx else if c.rxLoop.up then min 4095 (c.rx + 1) else c.rx - 1

/-- RING_LOOP_UPDATE: one update of ring 0 modulator, 1 filter of a channel, by its photocurrent in 1/1024 of the calibrated peak. The bias does not move. -/
def ringLoopUpdateEff (b l ring cur : Nat) (s : State) : State :=
  let c := chOf s b l
  if c.st = 0 ∨ 1 < ring then s
  else if ring = 0 then
    let corr := modCorr c.setpt cur
    let new := loopStep s.now c.txLoop cur (decide (16 ≤ corr.natAbs))
    let code := if c.txLoop.st = 3 then c.tx else if new.st = 2 then ringCode s b l 0 else moveHeat c.tx corr
    setCh b l { c with tx := code, txLoop := new } s
  else
    let corr := filterCorr c.rxLoop cur
    let new := loopStep s.now c.rxLoop cur (decide (16 ≤ corr.natAbs))
    let code := if c.rxLoop.st = 3 then c.rx else if new.st = 2 then ringCode s b l 1 else moveHeat c.rx corr
    setCh b l { c with rx := code, rxLoop := { new with up := !c.rxLoop.up, last := cur } } s

/-! ## Line powers (R146, R171) -/

/-- Power `p` has faded `n` tenths of a dB or more below `p0`. -/
def fadedBy (p0 p n : Nat) : Bool := decide (p0 ≠ 0 ∧ p ^ 100 * 10 ^ n ≤ p0 ^ 100)

/-- The fade in whole tenths of a dB, bit by bit from bit `n - 1`. -/
def fadeBits (p0 p n acc : Nat) : Nat :=
  match n with
  | 0 => acc
  | k + 1 => fadeBits p0 p k (if fadedBy p0 p (acc + 2 ^ k) then acc + 2 ^ k else acc)
def fadeTenths (p0 p : Nat) : Nat := fadeBits p0 p 9 0

/-- Line power relative to commissioned, in whole tenths of a dB. -/
def gainTenths (p0 p : Nat) : Int := if p < p0 then -(fadeTenths p0 p : Int) else (fadeTenths p p0 : Int)

/-- Two powers lie within 1.0 dB of each other. -/
def withinDb (p0 p : Nat) : Bool := decide (p ^ 10 ≤ 10 * p0 ^ 10 ∧ p0 ^ 10 ≤ 10 * p ^ 10)

/-- The largest fade of a list of powers below its commissioned powers, and whether any reaches a threshold. -/
def fadeOf (comm pow : List Nat) : Nat := (comm.zip pow).foldl (fun m q => max m (fadeTenths q.1 q.2)) 0
def anyFaded (comm pow : List Nat) (n : Nat) : Bool := (comm.zip pow).any (fun q => fadedBy q.1 q.2 n)

/-- The commissioned powers of the lines of a comb (R146), and those that apply to it: its own, or its spare's in its place (R170). -/
def commOf (s : State) (t c : Nat) : List Nat := mget s.pho.comm [] (t * 32 + c)
def combComm (s : State) (t c : Nat) : List Nat := commOf s t (if (combOfTile s t c).onSpare then spareComb t c else c)

/-- The lines of a comb that have faded 3.0 dB or more. -/
def fadedLines (s : State) (t c : Nat) : List Nat :=
  (((combComm s t c).zip (combOfTile s t c).pow).zipIdx).filterMap (fun q => if fadedBy q.1.1 q.1.2 30 then some q.2 else none)

/-- The power of each line, the mean of the readings at its taps; a line without a lit bundle keeps what stands. -/
def linePow (old comm : List Nat) (taps : List (List Nat)) : List Nat :=
  (List.range 18).map (fun l => match taps.getD l [] with
    | [] => old.getD l (comm.getD l 0)
    | ts => ts.foldl (· + ·) 0 / ts.length)

/-- A channel's comb line is healthy: lit, in its place, and faded by less than 3.0 dB. -/
def lineHealthy (s : State) (b l : Nat) : Bool :=
  let t := bTile b
  let c := bComb b
  let x := combOfTile s t c
  x.lit && !x.dropped.contains l && decide ((chOf s b l).st ≠ 8 ∧ (chOf s b l).st ≠ 1) && !(fadedLines s t c).contains l

/-- RING_NO_LIGHT (R148): 1 ms of NO_LIGHT; treated as a mislock where the comb line is healthy. The event's ring is 0 for the modulator and 1 for the
filter, a position in that list (R478 gives a mask for a set of rings only; DESIGN CHOICE, log 51). -/
def ringNoLightEff (b l ring : Nat) (s : State) : State :=
  let c := chOf s b l
  let k := if ring = 0 then c.txLoop else c.rxLoop
  if k.st ≠ 2 ∨ 1 < ring ∨ k.darkAt.all (fun d => decide (s.now < d + 10 ^ 6)) = true then s
  else
    let s := emitTile (bTile b) Ev.ringNoLight [b, l, ring] s
    if lineHealthy s b l then mislock b l s else s

/-! ## Identity (R150, R151, R166) -/

/-- The identity word of a channel. -/
def identWord (b l lane : Nat) : Word32 :=
  let hi := b * 2 ^ 15 + l * 2 ^ 10 + lane * 2 ^ 5
  let crc := (leBytes 3 hi).reverse.foldl (crc8Byte 0x07#8) 0xFF#8
  BitVec.ofNat 32 (hi * 256 + crc.toNat)

/-- A word is valid: its CRC, its reserved bits and its fields (R150). -/
def identOk (w : Word32) : Bool :=
  let x := w.toNat
  let b := bitsN x 23 9
  let l := bitsN x 18 5
  let n := bitsN x 13 5
  decide (b < 452 ∧ l < 18 ∧ n < 18) && identWord b l n == w

/-- IDENTITY_WORD_RECEIVED: the receiver of a channel decodes a word (R150, R151, R166, R167). -/
def identityWordReceivedEff (b l : Nat) (w : Word32) (s : State) : State :=
  let c := chOf s b l
  if c.st = 0 ∨ c.st = 9 then s
  else if !identOk w then bump 0x4001 (chInst b l) 1 s
  else if bitsN w.toNat 23 9 ≠ b ∨ bitsN w.toNat 18 5 ≠ l then
    let s := bump 0x4002 (chInst b l) 1 (setCh b l { c with mism := c.mism + 1, good := 0 } s)
    if 2 ≤ c.mism + 1 then mislock b l s else s
  else
    let s := setCh b l { c with mism := 0, good := c.good + 1 } s
    -- a word that names another lane is a steering error: the lane map is resynchronised
    if bitsN w.toNat 13 5 ≠ laneNow s b l then send (.link b 3 [l, laneNow s b l]) s else s

/-- A training frame of a channel (R151): 96 bits of fixed pattern followed by its identity word. -/
def trainFrame (b l lane : Nat) : BitVec 128 := identWord b l lane ++ Config.trainPattern

/-- The training frames of a bundle's channels that are lit. -/
def trainFrames (s : State) (b : Nat) : List Nat :=
  ((List.range 18).filter (fun l => (chOf s b l).st != 0)).map (fun l => (trainFrame b l (laneNow s b l)).toNat)

/-- TRAINING_FRAME_REQUEST (R151): the transmitter of a bundle sends a training frame on every channel. -/
def trainingFrameRequestEff (b : Nat) (s : State) : State :=
  if !(bundleOf s b).lit then s else send (.link b 2 (trainFrames s b)) s

/-- What the slot of a data lane carries in an idle flit: the identity word of the channel that carries it, four times over (R151). -/
def idleSlot (b l lane : Nat) : BitVec 128 := let w := identWord b l lane; w ++ w ++ w ++ w

/-- The channel that carries a data lane now. -/
def carrierOf (s : State) (b n : Nat) : Option Nat := ((List.range 17).filter (fun l => laneNow s b l == n)).head?

/-- The data lanes that work now, each with the channel that carries it, lowest lane first (R141). -/
def workingLanes (s : State) (b : Nat) : List (Nat × Nat) := (List.range 16).filterMap (fun n => (carrierOf s b n).map (fun l => (l, n)))
/-- The channel and the lane on which slot `n` of a flit rides: the 16 slots go in round robin over the lanes that work (R141). -/
def slotCarrier (s : State) (b n : Nat) : Option (Nat × Nat) :=
  let w := workingLanes s b
  w[n % w.length]?

/-- The idle flit of a bundle, in every slot in which it sends no other (R151; spec/06 R186): each of its 16 slots holds the identity word of the
channel that carries it. A bundle without a data lane sends none. -/
def idleFlit (s : State) (b : Nat) : List Byte :=
  (List.range 16).flatMap (fun n => match slotCarrier s b n with
    | none => []
    | some (l, lane) => leBytes 16 (idleSlot b l lane).toNat)

/-- Every 65,536 slots of 1 ns each channel that carries data sends a training frame in place of a slot (R151). -/
def frameTick (s : State) : State :=
  if s.now % 65536 ≠ 0 ∨ 2 ≤ s.pkg.power then s
  else s.pho.bundles.foldl (fun s q =>
    if !q.2.lit then s
    else
      let ls := (List.range 17).filter (fun l => laneNow s q.1 l != 16)
      if ls.isEmpty then s else send (.link q.1 2 (ls.map (fun l => (trainFrame q.1 l (laneNow s q.1 l)).toNat))) s) s

/-- Where a resonance is found near a code, within a quarter of the grid spacing; else near the code one free spectral range up or down, where that
lies within the heater's range (R167). Of the two the code above is tried first (DESIGN CHOICE, log 51: the rule names no order). -/
def settleCode (v spc fsr : Nat) (seen : List Nat) : Option Nat :=
  let near (x : Int) : Option Nat :=
    if x < 0 ∨ 4095 < x then none else seen.find? (fun k => decide (k ≤ 4095 ∧ 4 * ((k : Int) - x).natAbs ≤ spc))
  match near v with
  | some k => some k
  | none => match near ((v : Int) + fsr) with
    | some k => some k
    | none => near ((v : Int) - fsr)

/-- MISLOCK_ATTEMPT_DONE (R167, R168): a sweep ends with the codes at which each ring has found a resonance; on success two valid words have named the
channel. -/
def mislockAttemptDoneEff (b l : Nat) (tr rr : List Nat) (s : State) : State :=
  let c := chOf s b l
  let e := entOf s b l
  let tx := if bitN c.rings 0 then settleCode (ringCode s b l 0) e.txSpc e.txFsr tr else some c.tx
  let rx := if bitN c.rings 1 then settleCode (ringCode s b l 1) e.rxSpc e.rxFsr rr else some c.rx
  if c.st ≠ 7 then s
  else
    let retry (s : State) : State :=
      if c.attempts + 1 < 3 then send (.link b 6 [l]) (setCh b l { c with attempts := c.attempts + 1, good := 0 } s)
      else bundleEval b (emitTile (bTile b) Ev.channelRetired [b, l, c.rings, 3] (setCh b l { c with st := 9, attempts := 3 } s))
    match tx, rx with
    | some x, some y =>
      if c.good < 2 then retry s
      else
        let s := setCh b l { c with st := if l = 16 then 3 else 2, lane := l, attempts := 0, tx := x, rx := y
                                    txLoop := { st := 0 }, rxLoop := { st := 0 } } s
        let s := if l = 16 then grantL16 b s else releaseL16 b l s
        bundleEval b (emitTile (bTile b) Ev.mislockCleared [b, l, c.rings, c.attempts + 1] s)
    | _, _ => retry s

/-! ## Calibration (R157 to R163) -/

/-- A channel may be calibrated now: one of a bundle and 16 bundles of a tile at a time, no castling, the bundle not DOWN or FAILED; λ17
only while λ16 is free (R159, R160). -/
def calAllowed (s : State) (b l : Nat) : Bool :=
  let c := chOf s b l
  let running (x : Nat) : Bool := (List.range 18).any (fun k => (chOf s x k).run)
  c.due != 0 && !c.run && decide (c.retryAt ≤ s.now) && (if l = 16 then c.st == 3 else c.st == 2)
    && !running b && !castling s b && decide ((bundleOf s b).st < 3)
    && decide ((s.pho.chans.filter (fun q => q.2.run && bTile (q.1 / 32) == bTile b)).length < 16)
    && (l != 17 || (chOf s b 16).st == 3)

/-- A run begins (R160): the lane moves to λ16 where it is free, else a data channel goes out of service. -/
def calBegin (b l : Nat) (s : State) : State :=
  if !calAllowed s b l then s
  else
    let s := modCh b l (fun c => { c with st := 5, run := true, measured := false, txLoop := { st := 3 }, rxLoop := { st := 3 } }) s
    let s := send (.link b 4 [l]) s
    bundleEval b (if l ≠ 16 ∧ (chOf s b 16).st = 3 then claimL16 b 4 l s else s)

/-- The order of the due channels (R159, R163): requests, then temperature, largest change first, then rotation, oldest first. -/
def dueKey (s : State) (b l : Nat) : Nat :=
  let c := chOf s b l
  (if c.due = 3 then 0 else if c.due = 2 then 2 ^ 80 + (2 ^ 40 - min c.delta (2 ^ 40)) * 2 ^ 20
   else 2 ^ 81 + c.calAt.getD 0 * 2 ^ 20) + b * 32 + l

/-- The first channel of a tile that is due and may run. -/
def nextDue (s : State) (t : Nat) : Option (Nat × Nat) :=
  (s.pho.chans.filter (fun q => bTile (q.1 / 32) == t && calAllowed s (q.1 / 32) (q.1 % 32))).foldl (fun m q =>
    let k := (q.1 / 32, q.1 % 32)
    match m with
    | none => some k
    | some y => if dueKey s k.1 k.2 < dueKey s y.1 y.2 then some k else some y) none

/-- The first due channel of a tile starts. -/
def calNext (t : Nat) (s : State) : State :=
  match nextDue s t with
  | none => s
  | some k => calBegin k.1 k.2 s

/-- CAL_DUE (R159): a channel's ring temperatures differ by more than 4 °C from those of its last calibration, or 10 s have passed. -/
def calDueEff (b l : Nat) (s : State) : State :=
  let c := chOf s b l
  let tt := ringTemp s b l 0
  let rt := ringTemp s b l 1
  let d := max (tt - c.txTemp).natAbs (rt - c.rxTemp).natAbs
  let old := match c.calAt with
    | none => true
    | some x => decide (x + 10 ^ 10 ≤ s.now)
  if 18 ≤ l ∨ !(bundleOf s b).lit then s
  else if 64 < d then calNext (bTile b) (setCh b l { c with due := max c.due 2, delta := d } s)
  else if old then calNext (bTile b) (setCh b l { c with due := max c.due 1 } s)
  else s

/-- CAL_BEGIN (R160). -/
def calBeginEff (b l : Nat) (s : State) : State := if 18 ≤ l then s else calBegin b l s

/-- The two measurements agree (R161). -/
def calAgrees (m1 m2 : CalMeas) : Bool :=
  let diff (a b : Nat) : Nat := (a - b) + (b - a)
  decide (diff m1.tx m2.tx ≤ 2 ∧ diff m1.rx m2.rx ≤ 2 ∧ 100 * diff m1.bias m2.bias ≤ 3 * m1.bias)
def meanOf (a b : Nat) : Nat := (halfEven ((a : Int) + b) 2).toNat

/-- Both points of a segment moved by an offset, within the value's range (R162). -/
def movePts (f : Nat × Nat × Nat × Nat → Nat × Nat × Nat × Nat) (i : Nat) (l : List (Nat × Nat × Nat × Nat)) : List (Nat × Nat × Nat × Nat) :=
  (l.zipIdx).map (fun p => if p.2 = i ∨ p.2 = i + 1 then f p.1 else p.1)

/-- An accepted calibration written into the entry (R162). -/
def calUpdate (e : CalEnt) (m : CalMeas) (tt rt : Int) : CalEnt :=
  let off (v new mx : Nat) (old : Nat) : Nat := (clampI 0 mx ((v : Int) + new - old)).toNat
  let oTx := interp (ptTx e) 4095 tt
  let oRx := interp (ptRx e) 4095 rt
  let oB := interp (ptBias e) 1023 tt
  let oS := interp (ptSet e) 255 tt
  let pts := movePts (fun p => (off p.1 m.tx 4095 oTx, p.2.1, off p.2.2.1 m.bias 1023 oB, off p.2.2.2 m.setpt 255 oS)) (segOf (min tt 1680)) e.pts
  let pts := movePts (fun p => (p.1, off p.2.1 m.rx 4095 oRx, p.2.2)) (segOf (min rt 1680)) pts
  { e with pts := pts, gen := min (e.gen + 1) 0xFFFFFFFF }

/-- The three values of a measurement in one argument (R180). -/
def measArg (m : CalMeas) : Nat := m.tx % 4096 + m.rx % 4096 * 2 ^ 16 + m.bias % 1024 * 2 ^ 32

/-- CAL_MEASUREMENT_DONE (R160, R161): both measurements of a run, at the temperatures of the two rings. -/
def calMeasurementDoneEff (b l : Nat) (m1 m2 : CalMeas) (s : State) : State :=
  let c := chOf s b l
  let tt := ringTemp s b l 0
  let rt := ringTemp s b l 1
  let e := entOf s b l
  if !c.run ∨ c.measured = true then s
  else if !calAgrees m1 m2 then
    let n := c.rejects + 1
    let s := setCh b l { c with measured := true, rejects := n, retryAt := s.now + 10 ^ 8, calUnstable := c.calUnstable || decide (3 ≤ n) }
      (noteTests (testsChannel b l) (fun t => { t with found := 1 }) s)
    if n = 3 then emitTile (bTile b) Ev.calUnstable [b, l, measArg m1, measArg m2] s else s
  else
    let m : CalMeas := { tx := meanOf m1.tx m2.tx, rx := meanOf m1.rx m2.rx, bias := meanOf m1.bias m2.bias, setpt := meanOf m1.setpt m2.setpt }
    let diff (a b : Nat) : Nat := (a - b) + (b - a)
    if e.txSpc < 2 * diff m.tx (interp (ptTx e) 4095 tt) ∨ e.rxSpc < 2 * diff m.rx (interp (ptRx e) 4095 rt) then
      -- the ring is on the wrong line: step 2 of R167, the lane already on λ16
      let s := setCh b l { c with tx := m.tx, rx := m.rx, attempts := 0 } s
      let s := if l = 16 then s else claimL16 b (claimRank 6 l) l s
      sweepCh b l s
    else
      let s := setCh b l { c with measured := true, tx := m.tx, rx := m.rx, bias := m.bias, setpt := m.setpt, calUnstable := false, rejects := 0
                                  due := 0, delta := 0, calAt := some s.now, txTemp := tt, rxTemp := rt
                                  txLoop := { st := 0 }, rxLoop := { st := 0 } } s
      let s := noteTests (testsChannel b l) (fun t => { t with found := 0, preempted := false }) s
      setPho { s.pho with ents := mset s.pho.ents (b * 32 + l) (calUpdate e m tt rt), dirty := addOnce s.pho.dirty (b * 32 + l) } s

/-- CAL_LANE_RETURN (R160): the lane returns to its channel, and λ16 to SPARE. -/
def calLaneReturnEff (b l : Nat) (s : State) : State :=
  let c := chOf s b l
  if c.st ≠ 5 ∨ !c.measured then s
  else
    let s := setCh b l { c with st := if l = 16 then 3 else 2, run := false, measured := false, txLoop := { st := 0 }, rxLoop := { st := 0 } } s
    calNext (bTile b) (bundleEval b (if l = 16 then grantL16 b s else releaseL16 b l s))

/-- The 64 bytes of a calibration entry (R157). -/
def entBytes (e : CalEnt) : List Byte :=
  let pt (p : Nat × Nat × Nat × Nat) : List Byte :=
    leBytes 2 (p.1 % 4096) ++ leBytes 2 (p.2.1 % 4096) ++ leBytes 2 (p.2.2.1 % 1024) ++ leBytes 1 p.2.2.2 ++ leBytes 1 0
  let body := leBytes 2 e.txFsr ++ leBytes 2 e.rxFsr ++ leBytes 2 e.txSpc ++ leBytes 2 e.rxSpc ++ (e.pts.take 5).flatMap pt ++ leBytes 8 0
    ++ leBytes 4 (min e.gen 0xFFFFFFFF)
  body ++ leBytes 4 (crc32 body).toNat

/-- An entry read from the store, where its CRC holds. -/
def entOfBytes (bs : List Byte) : Option CalEnt :=
  if bs.length ≠ 64 ∨ fieldAt bs 0x3C 4 ≠ (crc32 (bs.take 0x3C)).toNat then none
  else
    some { txFsr := fieldAt bs 0 2, rxFsr := fieldAt bs 2 2, txSpc := fieldAt bs 4 2, rxSpc := fieldAt bs 6 2
           pts := (List.range 5).map (fun i =>
             let o := 8 + 8 * i
             (fieldAt bs o 2 % 4096, fieldAt bs (o + 2) 2 % 4096, fieldAt bs (o + 4) 2 % 1024, fieldAt bs (o + 6) 1))
           gen := fieldAt bs 0x38 4 }

/-- The identity fuse block of a site, and the number of its record in the calibration store (spec/01 R25). -/
def fuseBlock (s : State) (site : Nat) : Nat := (mget s.fuses.blocks 0 site).toNat
def calBase (s : State) (site : Nat) : Nat := bitsN (fuseBlock s site) 160 32

/-- The updated entries of a tile written to the calibration store, or kept where the write fails (R162). -/
def storeWrite (t : Nat) (ok : Bool) (s : State) : State :=
  let l := s.pho.dirty.filter (fun k => bTile (k / 32) == t)
  if l.isEmpty then s
  else
    let s := setPho { s.pho with storeAt := mset s.pho.storeAt t s.now } s
    if ok then
      setPho { s.pho with stored := l.foldl (fun m k => mset m k (entBytes (mget s.pho.ents {} k))) s.pho.stored
                          dirty := s.pho.dirty.filter (fun k => bTile (k / 32) != t) } s
    else emitTile t Ev.calStoreFail [siteLT t, calBase s (siteLT t)] s

/-- A tile may write its entries: not within an hour of its last write (R162). -/
def storeDue (s : State) (t : Nat) : Bool := (mfind s.pho.storeAt t).all (fun x => decide (x + 3600 * 10 ^ 9 ≤ s.now))

/-- CAL_STORE_WRITE (R162). -/
def calStoreWriteEff (t : Nat) (ok : Bool) (s : State) : State := if storeDue s t then storeWrite t ok s else s

/-! ## Commands (R156, R163) -/

/-- A bundle and a wavelength of a command. -/
def withChannel (s : State) (r : Req) (f : Nat → Nat → CmdOut) : CmdOut :=
  let b := bitsN (argN r 0) 0 9
  let l := bitsN (argN r 0) 16 5
  if 452 ≤ b ∨ 18 ≤ l then .bad stBadArg 0 else if !bundleOn s.pkg.part b then .bad stAbsent 0 else f b l

/-- The channel status word (R156). -/
def chWord (s : State) (b l : Nat) : Nat :=
  let c := chOf s b l
  let x := combOfTile s (bTile b) (bComb b)
  let p0 := (combComm s (bTile b) (bComb b)).getD l 0
  let db : Int := if x.pow.isEmpty ∨ p0 = 0 then 0 else gainTenths p0 (x.pow.getD l 0)
  let age := match c.calAt with
    | none => 255
    | some t => min 255 ((s.now - t) / 10 ^ 9)
  c.st * 2 ^ 60 + c.tx % 4096 * 2 ^ 48 + rxApplied c % 4096 * 2 ^ 36 + c.bias % 1024 * 2 ^ 26 + laneNow s b l % 32 * 2 ^ 21 + c.txLoop.st % 4 * 2 ^ 19
    + c.rxLoop.st % 4 * 2 ^ 17 + b2n c.calUnstable * 2 ^ 16 + ofInt 8 (clampI (-128) 127 db) * 2 ^ 8 + age

/-- PHO_CHANNEL (R156). -/
def phoChannelEff (r : Req) : State → State := runCmd 0x0400 r (fun s _ => withChannel s r (fun b l => .ok s (wordsOf 2 (chWord s b l))))

/-- A request to calibrate a channel is refused (R163; spec/12 R368). -/
def calRefused (s : State) (b l : Nat) : Bool := (chOf s b l).st == 0 || castling s b || decide (3 ≤ (bundleOf s b).st)

/-- PHO_CAL (R163): the channel goes to the head of the order. -/
def phoCalEff (r : Req) : State → State := runCmd 0x0401 r (fun s _ => withChannel s r (fun b l =>
  if calRefused s b l then .bad stState 0 else .ok (calNext (bTile b) (modCh b l (fun c => { c with due := 3 }) s)) []))

/-! ## Combs and castling (R169 to R176) -/

/-- The group of a comb has a spare left. -/
def spareLeft (s : State) (t c : Nat) : Bool := !s.pho.spent.contains (t * 8 + combGroup t c)
def spendSpare (t c : Nat) (s : State) : State := setPho { s.pho with spent := addOnce s.pho.spent (t * 8 + combGroup t c) } s
/-- An event of a comb (R180). -/
def combEvent (t c code fade spare : Nat) (s : State) : State := emitTile t code [siteLT t, c, fade, spare] s

/-- The comb's bundles that are present, as a mask of which bit j stands for the comb's bundle j in ascending order (R478). -/
def combMask (part t c : Nat) : Nat :=
  maskOf ((((List.range 452).filter (fun b => bTile b == t && bComb b == c)).zipIdx.filter (fun q => bundleOn part q.1)).map (·.2))

/-- Lines of a comb without a spare are dropped (R175); the event names the comb's bundles affected. -/
def dropLines (t c : Nat) (ls : List Nat) (s : State) : State :=
  ls.foldl (fun s l =>
    let x := combOfTile s t c
    if x.dropped.contains l then s
    else
      let bs := combBundles s.pkg.part t c
      let s := setComb05 t c { x with dropped := x.dropped ++ [l] } s
      let s := emitTile t Ev.lineDropped [siteLT t, c, l, combMask s.pkg.part t c] s
      bs.foldl (fun s b =>
        let s := if l = 16 then dropL16 b s else s
        let s := modCh b l (fun k => if k.st = 9 then k else { k with st := 0, run := false, measured := false, txLoop := {}, rxLoop := {} }) s
        bundleEval b (if l = 16 then s else claimL16 b (claimRank 0 l) l s)) s) s

/-- A spare that fails during castling (R174): its event carries the spare's own fade, the lines go back, and the group has no spare. -/
def castFail (t c fade : Nat) (s : State) : State :=
  if (combOfTile s t c).cast.isNone then s
  else
    let s := castReturn t c s
    let s := spendSpare t c (setComb05 t c { combOfTile s t c with cast := none } s)
    let s := combEvent t (spareComb t c) Ev.combFailed fade absentArg s
    dropLines t c (fadedLines s t c) s

/-- Castling begins (R172): calibration on the bundles of the comb is suspended, and a run in progress is abandoned as one that a claim pre-empts
(DESIGN CHOICE, log 51). -/
def castStart (t c fade : Nat) (s : State) : State :=
  let x := combOfTile s t c
  let s := combEvent t c Ev.castlingStart fade (spareComb t c) (spendSpare t c (setComb05 t c { x with cast := some {} } s))
  (combBundles s.pkg.part t c).foldl (fun s b =>
    bundleEval b ((List.range 18).foldl (fun s l =>
      if (chOf s b l).st = 5 then releaseL16 b l (abandonRun b l s) else s) s)) s

/-- A working comb fails (R176). Without a spare its bundles go straight to FAILED: the model reports no DOWN between (DESIGN CHOICE, log 51). -/
def combFail (t c fade : Nat) (s : State) : State :=
  let x := combOfTile s t c
  let free := spareLeft s t c || x.cast.isSome
  let s := combEvent t c Ev.combFailed fade (if free then spareComb t c else absentArg) s
  let s := spendSpare t c (setComb05 t c { x with cast := none, onSpare := x.onSpare || free, lit := free, pow := [], total := 0, dropped := []
                                                  weak := false, r15 := 0, r30 := 0, weakClear := 0 } s)
  (combBundles s.pkg.part t c).foldl (fun s b =>
    let s := (List.range 18).foldl (fun s l =>
      modCh b l (fun k => if k.st = 9 then k else { k with st := if free then 1 else 0, lane := 16, run := false, measured := false, txLoop := {}, rxLoop := {} }) s) s
    bundleEval b (setBundle b { bundleOf s b with holder := none, waiting := [] } s)) s

/-- The spare of a castling in a round: it fails where it has faded by 3.0 dB or more in 3 rounds in a row (R171, R174). -/
def spareRound (t c : Nat) (r : CombRead) (s : State) : State :=
  let x := combOfTile s t c
  match x.cast with
  | none => s
  | some k =>
    if spareComb t c ≠ r.comb ∨ !k.l16 then s
    else
      let comm := commOf s t r.comb
      let pow := linePow [] comm r.taps
      let n := if anyFaded comm pow 30 then k.r30 + 1 else 0
      if 3 ≤ n then castFail t c (fadeOf comm pow) s else setComb05 t c { x with cast := some { k with pow := pow, r30 := n } } s

/-- One comb in a housekeeping round (R171). -/
def combRound (t : Nat) (s : State) (r : CombRead) : State :=
  let x := combOfTile s t r.comb
  let sp := if t = 4 then 4 else 28
  let comm := combComm s t r.comb
  let pow := linePow x.pow comm r.taps
  let f := fadeOf comm pow
  if sp ≤ r.comb then (List.range sp).foldl (fun s c => spareRound t c r s) s
  else if !x.lit then s
  else if fadedBy x.total r.total 60 then combFail t r.comb f s
  else
    let r15 := if anyFaded comm pow 15 then x.r15 + 1 else 0
    let r30 := if anyFaded comm pow 30 then x.r30 + 1 else 0
    let cl := if anyFaded comm pow 10 then 0 else x.weakClear + 1
    let s := setComb05 t r.comb { x with pow := pow, total := r.total, r15 := r15, r30 := r30, weakClear := cl
                                         weak := if 3 ≤ r15 then true else if 3 ≤ cl then false else x.weak } s
    let s := if 3 ≤ r15 ∧ !x.weak then combEvent t r.comb Ev.combWeak f (if spareLeft s t r.comb then spareComb t r.comb else absentArg) s else s
    if r30 < 3 ∨ x.cast.isSome = true then s
    else if spareLeft s t r.comb then castStart t r.comb f s
    else dropLines t r.comb (fadedLines s t r.comb) s

/-- A claim of rank 1 or 2 of a channel that may yet return pauses castling (R173). -/
def castPaused (s : State) (b : Nat) : Bool :=
  ((bundleOf s b).holder.toList ++ (bundleOf s b).waiting).any (fun k => decide (k.1 ≤ 2 ∧ ((chOf s b k.2).st = 6 ∨ (chOf s b k.2).st = 7)))

/-- The next line of a castling begins to move (R172): its channel enters CASTLING in every bundle of the comb, and its lane claims λ16 where that is SPARE. Where
it is not, the lane is out of service meanwhile, λ17's service stream with it. Both loops of the channel are HELD until the line has moved (DESIGN CHOICE, log 51:
R148 gives HELD to calibration and a sweep, and nothing to castling). -/
def castBegin (t c : Nat) (s : State) : State :=
  let x := combOfTile s t c
  let bs := combBundles s.pkg.part t c
  match x.cast with
  | none => s
  | some k =>
    let l := castLine k.moved
    if bs.any (castPaused s) then s
    else bs.foldl (fun s b =>
      if (chOf s b l).st ≠ 2 then s
      else
        let s := modCh b l (fun h => { h with st := 8, txLoop := { st := 3 }, rxLoop := { st := 3 } }) s
        bundleEval b (if (chOf s b 16).st = 3 then claimL16 b (claimRank 8 l) l s else s))
      (setComb05 t c { x with cast := some { k with line := true } } s)

/-- CASTLING_LAMBDA16_SWITCH (R172, R174): the spare has warmed, its lines read at `pow`; each is to lie within 1.0 dB of its own commissioned power. A
bundle whose λ16 holds a lane loses it for this step. The first line then begins to move. -/
def castlingLambda16SwitchEff (t c : Nat) (pow : List Nat) (s : State) : State :=
  let x := combOfTile s t c
  let comm := commOf s t (spareComb t c)
  match x.cast with
  | none => s
  | some k =>
    if k.l16 then s
    else if !(comm.zip pow).all (fun q => withinDb q.1 q.2) then castFail t c (fadeOf comm pow) s
    else
      let s := (combBundles s.pkg.part t c).foldl (fun s b =>
        let h := chOf s b 16
        if h.st ≠ 4 then s else bundleEval b (setCh b 16 h (bundleEval b (setCh b 16 { h with st := 1 } s))))
        (setComb05 t c { x with cast := some { k with l16 := true, pow := pow } } s)
      castBegin t c s

/-- CASTLING_LINE_MOVE (R172 to R174): the line in progress has switched to the spare; `pass` where its identity is verified in every bundle. Its lanes return,
and the next line begins; after the last one the old comb is off. A line that fails the check fails the spare (DESIGN CHOICE, log 51). Where castling was paused, the
row resumes it. CASTLING_DONE names no spare, since the group has none left (DESIGN CHOICE, log 51: R180 does not say which spare its argument names). -/
def castlingLineMoveEff (t c : Nat) (pass : Bool) (s : State) : State :=
  let x := combOfTile s t c
  match x.cast with
  | none => s
  | some k =>
    if !k.l16 then s
    else if !k.line then castBegin t c s
    else if !pass then castFail t c (fadeOf (commOf s t (spareComb t c)) k.pow) s
    else
      let s := castReturn t c s
      if k.moved < 16 then castBegin t c (setComb05 t c { combOfTile s t c with cast := some { k with moved := k.moved + 1, line := false } } s)
      else combEvent t c Ev.castlingDone (fadeOf (combComm s t c) x.pow) absentArg
        (setComb05 t c { combOfTile s t c with cast := none, onSpare := true, weak := false, pow := [], total := 0, r15 := 0, r30 := 0, weakClear := 0 } s)

/-! ## Start-up training (R167, R168, R178) -/

/-- A channel is found mislocked in training, and its sweep ends with the identity found: after `n` attempts, at the codes of its two rings. -/
def trainCleared (b l n tx rx : Nat) (s : State) : State :=
  if (chOf s b l).st = 0 ∨ (chOf s b l).st = 9 then s
  else
    let rings := mislockRings s b l
    emitTile (bTile b) Ev.mislockCleared [b, l, rings, n] (emitTile (bTile b) Ev.mislock [b, l, rings, 0]
      (modCh b l (fun c => { c with rings := rings, tx := if bitN rings 0 then tx else c.tx, rx := if bitN rings 1 then rx else c.rx }) s))

/-- A channel whose identity is not found in training: mislocked, and retired after its attempts. -/
def trainRetired (b l : Nat) (s : State) : State :=
  if (chOf s b l).st = 0 ∨ (chOf s b l).st = 9 then s
  else
    let rings := mislockRings s b l
    emitTile (bTile b) Ev.channelRetired [b, l, rings, 3] (emitTile (bTile b) Ev.mislock [b, l, rings, 0]
      (setCh b l { chOf s b l with st := 9, attempts := 3, rings := rings } s))

/-- The lanes of retired channels claim λ16, and the bundle's state follows. -/
def trainEnds (b : Nat) (s : State) : State :=
  bundleEval b ((List.range 18).foldl (fun s l => if l ≠ 16 ∧ (chOf s b l).st = 9 then claimL16 b (claimRank 9 l) l s else s) s)

/-- BUNDLE_UP (R176, R178): a bundle whose comb has been replaced has repeated start-up training: the heaters go to their interpolated codes and the loops close;
channels of `cleared` were mislocked and have been found, those of `bad` are retired. -/
def bundleUpEff (b : Nat) (bad : List Nat) (cleared : List (Nat × Nat × Nat × Nat)) (s : State) : State :=
  let x := bundleOf s b
  if !x.lit ∨ !(combOfTile s (bTile b) (bComb b)).lit ∨ x.st ≠ 3 then s
  else
    let set (l : Nat) (s : State) : State :=
      let e := entOf s b l
      let tt := ringTemp s b l 0
      modCh b l (fun k => if k.st = 1 then { k with
          st := if l = 16 then 3 else 2, lane := l, tx := ringCode s b l 0, rx := ringCode s b l 1, bias := interp (ptBias e) 1023 tt
          setpt := interp (ptSet e) 255 tt, attempts := 0, txLoop := { st := 0 }, rxLoop := { st := 0 } } else k) s
    let s := (List.range 18).foldl (fun s l => set l s) s
    let s := cleared.foldl (fun s q => trainCleared b q.1 q.2.1 q.2.2.1 q.2.2.2 s) s
    trainEnds b (bad.foldl (fun s l => trainRetired b l s) s)

/-! ## Ethernet light sources (R177) -/

/-- One CW source in a housekeeping round: the thresholds of R171 at the taps of its port. -/
def cwRound (s : State) (r : CwRead) : State :=
  let x := mget s.pho.cws {} r.port
  let src := x.src.getD r.port
  let comm := mget s.pho.cwComm [] src
  let total := r.taps.foldl (· + ·) 0
  if 16 ≤ r.port || x.failed then s
  else
    let f := fadeOf comm r.taps
    let put (y : Cw) (s : State) : State := setPho { s.pho with cws := mset s.pho.cws r.port y } s
    let ev (code : Nat) (s : State) : State := emit siteLH code [src, r.port, f] s
    let r15 := if anyFaded comm r.taps 15 then x.r15 + 1 else 0
    let r30 := if anyFaded comm r.taps 30 then x.r30 + 1 else 0
    let cl := if anyFaded comm r.taps 10 then 0 else x.clear + 1
    let s := put { x with last := total, r15 := r15, r30 := r30, clear := cl, weak := if 3 ≤ r15 then true else if 3 ≤ cl then false else x.weak } s
    let s := if 3 ≤ r15 ∧ !x.weak then ev Ev.cwWeak s else s
    if r30 < 3 ∧ !fadedBy x.last total 60 then s
    else
      let s := drainPort r.port 1 s
      if 0 < s.pho.cwSpares then
        ev Ev.cwReplaced (put { src := some (18 - s.pho.cwSpares) } (setPho { s.pho with cwSpares := s.pho.cwSpares - 1 } s))
      else ev Ev.cwFailed (put { x with failed := true } s)

end Sys2Proof.Machine
end

