-- ==== Sys2Proof/Machine/Fences.lean ====
section
/-! DEFINITION. Fences.lean: fences and returns (spec/14 R402 to R404), and the package's entries to OFF and DEEP (spec/13 R386; spec/17
R470). -/
namespace Sys2Proof.Machine

/-! ## Entry to OFF and DEEP -/

/-- What the flash holds of an HBM4 stack: its repair log (spec/04 R133). -/
def keptHbm (h : Hbm) : Hbm :=
  { logRows := h.logRows, logSpared := h.logSpared, logFailed := h.logFailed, logRetired := h.logRetired }

/-- What a vertical channel keeps without power: the lanes that failed, the spares used, and HALF (spec/04 R121). -/
def keptVc (v : Vc) : Vc := { state := v.state, half := v.half, spares := v.spares, prior := v.prior }

/-- What the photonic layer keeps without power: the calibration store, and what R401 says is never returned to its pool: spare combs and light sources,
and channels RETIRED (spec/05 R152; log 51). A spare that a castling in progress has not yet put to use stays in its pool. -/
def keptPho (p : Pho) : Pho :=
  let casting := (p.combs.filter (fun q => q.2.cast.isSome)).map (fun q => q.1 / 32 * 8 + combGroup (q.1 / 32) (q.1 % 32))
  { stored := p.stored, storeAt := p.storeAt, comm := p.comm, cwComm := p.cwComm, spent := p.spent.filter (fun g => !casting.contains g), cwSpares := p.cwSpares
    cws := mmap p.cws (fun _ x => { src := x.src, failed := x.failed })
    combs := mmap p.combs (fun _ x => { onSpare := x.onSpare })
    chans := (p.chans.filter (fun q => q.2.st == 9)).map (fun q => (q.1, { st := 9 })) }

/-- Every rail except VAON is removed: what survives is the pins, the fuses, the flash and the tiles' calibration stores, and the
always-on domain, which continues GTC, and the spares spent (spec/13 R397; spec/14 R401; spec/17 R467, R470). `latch` records an entry to OFF that R391 latches. -/
def enterOff (latch : Bool) (s : State) : State :=
  let r : State := {}
  let aon := { s.aon with gtc := if s.pkg.power < 2 then hubGtc s else s.aon.gtc, phase := 0
                          latchOff := s.aon.latchOff || latch, holdOff := s.aon.holdOff || latch }
  { r with
    pending := s.pending, now := s.now, fresh := s.fresh, out := s.out, pins := s.pins, fuses := s.fuses, aon := aon
    pkg := { r.pkg with part := s.pkg.part, recReport := s.pkg.recReport }
    pwr := { r.pwr with phases := s.pwr.phases }
    guest := { r.guest with fitted := s.guest.fitted }
    mem := { r.mem with hbms := mmap s.mem.hbms (fun _ h => keptHbm h)
                        vcs := mmap s.mem.vcs (fun _ v => { keptVc v with state := if v.state = 3 then v.prior else v.state }) }
    pho := keptPho s.pho
    cores := { r.cores with phys := s.cores.phys, absent := s.cores.absent }
    upd := { r.upd with flash := s.upd.flash, bankActive := s.upd.bankActive } }

/-- What stays in DEEP: the hub's mailboxes, windows and event store, the processor that remains, and the always-on domain, with the hub's SLOW count and that
processor's rood; the contents of every memory, core, link and engine are lost (R386, R387). The tables of the fabric stay with the hub's firmware. Every
partition enters NONE, so a fenced core that still waits for its spare is served first (spec/02 R79); what its spare's test finds is a free value (log 50). -/
def enterDeep (s : State) : State :=
  let s := s.cores.toSpare.foldl (fun s c => let q := drawLanes s; substitute q.1 c q.2) s
  let r : State := {}
  { r with
    pending := s.pending, now := s.now, fresh := s.fresh, out := s.out, pins := s.pins, fuses := s.fuses
    pkg := { s.pkg with power := 2, transition := none }
    aon := { s.aon with gtc := hubGtc s, phase := 0 }
    clk := { r.clk with
      hub := s.clk.hub
      dies := [(siteKH, { dieClk s siteKH with timeRun := false })]
      roods := s.clk.roods.filter (fun q => q.1 == siteKH * 16 + (if s.mp.activeB then 3 else 2)) }
    evq := s.evq, hp := s.hp, hl := s.hl, mp := s.mp, mp2 := s.mp2, pod := s.pod, pod2 := s.pod2, cfg := s.cfg
    guest := { s.guest with linkUp := false }, obs := { r.obs with ctrs := s.obs.ctrs }, rel := s.rel, upd := s.upd
    pwr := { r.pwr with budget := s.pwr.budget, hyst := s.pwr.hyst, theta := s.pwr.theta, phases := s.pwr.phases
                        therm := mmap s.pwr.therm (fun _ t => { ({} : Therm) with broken := t.broken, shutdown := t.shutdown }) }
    cores := { r.cores with phys := s.cores.phys, absent := s.cores.absent, fenced := s.cores.fenced }
    mem := { r.mem with hbms := mmap s.mem.hbms (fun _ h => { keptHbm h with heat := h.heat }), vcs := mmap s.mem.vcs (fun _ v => keptVc v) }
    fab := { r.fab with fence := s.fab.fence, epoch := s.fab.epoch }
    pho := keptPho s.pho
    xpt := { ports := mmap s.xpt.ports (fun _ p => if p.state = 3 then p else { ({} : PortSide) with adopted := p.adopted }) }
    parts := mmap s.parts (fun _ p => { p with plan := 0, named := [], runs := none }) }

/-- The package enters DEEP (R386): calibration entries are written (spec/05 R179; those of the tiles of `storeBad` in vain, R162), and the active
processor hands control to its standby and powers off. -/
def deepEnter (storeBad : List Nat) (s : State) : State :=
  let s := (List.range 5).foldl (fun s t => storeWrite t (!storeBad.contains t) s) s
  let s := if s.mp.standbyOk then takeover 3 s else s
  enterDeep { s with mp := { s.mp with standbyOk := false, standbyReset := true } }

/-- The package enters DEEP, and the processor that remains emits PWR_STATE. `cause` is 0 command, 1 wake input, 2 trip. -/
def deepEntry (cause : Nat) (storeBad : List Nat) (s : State) : State := emitMp Ev.pwrState [s.pkg.power, 2, cause] (deepEnter storeBad s)

/-! ## Fences (R402) -/

/-- The cores of a stack stop with what they hold in flight. -/
def stopStack (n : Nat) (s : State) : State :=
  { s with cores := { s.cores with core := mmap s.cores.core (fun c k => if coreStack c = n then stopCore k else k) } }

/-- A compute stack is fenced (R402, R403): its endpoint in the pod's fence tables, its jobs torn down; a stack that no job holds leaves
its partition at once. -/
def fenceStack (n cause : Nat) (s : State) : State :=
  if 12 ≤ n ∨ (mfind s.rel.stackF n).isSome = true then s
  else
    let s := { s with rel := { s.rel with stackF := mset s.rel.stackF n cause } }
    let s := emitMp Ev.dieFenced [siteKC n, cause] (stopStack n s)
    let s := thermClear (0x80 + n) (thermClear (siteKC n) (setDiePower s n { diePower s n with acct := 0, decrease := none, rise := none }))
    let s := dieDead (ownPkg s) n 1 s
    let s := match partOfStack s n with
      | none => s
      | some pt => if holdsJob s pt then s else leaveStacks pt (stopPlan pt s)
    recompute s

/-- A compute tile is fenced: its stacks, its memory group, and every job of the package (R402). A KV-120 enters DEEP. -/
def fenceTile (t cause : Nat) (s : State) : State :=
  if 4 ≤ t ∨ (mfind s.rel.tileF t).isSome = true then s
  else
    let s := emitMp Ev.dieFenced [siteLT t, cause] { s with rel := { s.rel with tileF := mset s.rel.tileF t cause } }
    let s := (List.range 4).foldl (fun s i => thermClear (0xA0 + 4 * t + i) s) (thermClear (siteLT t) s)
    let s := [0, 1, 2].foldl (fun s i => fenceStack (3 * t + i) cause s) s
    let s := if mgrActs s then tearThere (ownPkg s) none 1 s else s
    if s.pkg.part = 2 ∧ s.pkg.power < 2 then
      let (bad, s) := drawStores s
      deepEntry 2 bad s
    else s

/-- An HBM4 stack at its shutdown threshold (spec/13 R391): its 32 channels are retired until the package starts again, and what it held is
lost. The trigger that the events name is left open. -/
def hbmStackDown (m : Nat) (s : State) : State :=
  (List.range 32).foldl (fun s ch =>
    let h := stackAt s m
    if h.retired.contains ch || h.heat.contains ch then s
    else
      let (w, s) := drawWord (setStack m { h with heat := h.heat ++ [ch] } s)
      emit (stackSite m) Ev.hbmChannelRetired [m, ch, w.toNat] s) s

/-! ## Margins (spec/01 R38 to R40) -/

/-- The trip point of a margin code in mV. -/
def tripOf (code : Nat) : Nat := if code ≤ 3 then 15 else if code ≤ 7 then 25 else if code ≤ 11 then 35 else 45

/-- A rood set by the smallest code of its regions: its trip point, and where that is 0 the limit of 1.6 GHz, for which a cluster rood's ROOD_DIV is
written (R40; spec/07 R219). -/
def marginRood (id code : Nat) (r : Rood) : Rood :=
  let r := { r with tripMv := tripOf code, limited := code == 0 }
  if r.limited && decide (id < 8) && targetDiv r == 0 then { r with heldDiv := some 1, cause := 2 } else r

/-- The timing-margin map of a stack is read and its roods set (R38 to R40). -/
def marginLoad (n : Nat) (s : State) : State :=
  let m := mget s.fuses.margin (0, 0) n
  let bytes := leBytes 128 m.1.toNat
  let ok := crc16 bytes == m.2
  let code (i : Nat) : Nat := if ok then bitsN m.1.toNat (4 * i) 4 else 1
  let rev := revOf s (siteKC n)
  let s := if ok then s else emit (siteKC n) Ev.marginCrc [siteKC n] s
  let low (id : Nat) : Nat := ((List.range 256).filter (fun i => Config.regionRood rev i == id)).foldl (fun a i => min a (code i)) 15
  let s := (List.range 10).foldl (fun s id => setRood s (siteKC n) id (marginRood id (low id) (rood s (siteKC n) id))) s
  ((List.range 10).filter (fun id => low id == 0)).foldl (fun s id => emitRood (siteKC n) id Ev.marginLow [siteKC n, id] s) s

/-! ## Returns (R404; spec/13 R391; spec/09 R300) -/

/-- The memories of a stack as they stand after power-up: zeros with valid check bits. -/
def wipeStack (n : Nat) (s : State) : State :=
  let m := wipe s.mem.m (cmBase (n * 8)) (cmBase (n * 8 + 8))
  let m := wipe m (scrBase (n * 128)) (scrBase ((n + 1) * 128))
  setMem s (wipe m (slBase (n * 128)) (slBase ((n + 1) * 128)))

/-- A fenced stack returns as added capacity: in a new fabric epoch, in which its fence is cleared. A die whose GTC has not made its step is not
returned to service (spec/07 R223). A margin map that no start has read is read now (spec/01 R39). -/
def returnStack (n : Nat) (s : State) : State :=
  match mfind s.rel.stackF n with
  | none => s
  | some cause =>
    if !(dieClk s (siteKC n)).stepped then s else
    let s := if (rood s (siteKC n) 0).tripMv = 0 then marginLoad n s else s
    let s := { s with rel := { s.rel with stackF := mdel s.rel.stackF n }
                      cores := { s.cores with core := s.cores.core.filter (fun q => coreStack q.1 != n) } }
    let s := emitMp Ev.dieReturned [siteKC n, cause] (wipeStack n s)
    let s := if mgrActs s then dieBack (ownPkg s) n s else s
    recompute s

/-- A fenced tile returns with its stacks. -/
def returnTile (t : Nat) (s : State) : State :=
  match mfind s.rel.tileF t with
  | none => s
  | some cause =>
    if !(dieClk s (siteLT t)).stepped then s else
    let s := emitMp Ev.dieReturned [siteLT t, cause] { s with rel := { s.rel with tileF := mdel s.rel.tileF t } }
    [0, 1, 2].foldl (fun s i => if mfind s.rel.stackF (3 * t + i) = some cause then returnStack (3 * t + i) s else s) s

/-- A stack in service that no usable bundle or relay joins to the hub is fenced (R403, ISOLATED); looked at where bundles or ports have
changed. What no fence touches stays as it is. -/
def isolationSettle (a s : State) : State :=
  if (a.pho.bundles = s.pho.bundles ∧ a.xpt.ports = s.xpt.ports) ∨ running s = false then s
  else
    let r := (List.range (stacksOf s.pkg.part)).foldl (fun s n =>
      if stackUp s n && !reachesEp s n 12 then fenceStack n 0x0B s else s) s
    { r with now := s.now, pins := s.pins, fuses := s.fuses, pkg := s.pkg, aon := s.aon, hl := s.hl, pod2 := s.pod2, guest := s.guest
             upd := s.upd, pho := s.pho, xpt := s.xpt
             hp := { s.hp with d2hPending := r.hp.d2hPending }, mp := { s.mp with tickets := r.mp.tickets, journal := r.mp.journal }
             clk := { r.clk with dies := s.clk.dies, hub := s.clk.hub } }

end Sys2Proof.Machine
end

