-- ==== Sys2Proof/Machine/Power.lean ====
section
/-! DEFINITION. Power.lean: power commands and messages, rails, thermal thresholds and coolant (spec/13 R379 to R396). -/
namespace Sys2Proof.Machine

/-- BUDGET_RECOMPUTE (R381): once per second. -/
def budgetRecomputeEff (s : State) : State :=
  if !running s || s.pwr.dividedAt.any (fun t => decide (s.now < t + 1000000000)) then s
  else recompute { s with pwr := { s.pwr with dividedAt := some s.now } }

/-- GRANT (R382): a die applies a grant, and acknowledges a decrease with its sequence number. -/
def grantEff (n w seq : Nat) (s : State) : State :=
  if !stackUp s n then s else
    let d := diePower s n
    let s' := setDiePower s n { d with grant := w }
    if w < d.grant then sendCtl (siteKC n) 2 [n, seq] s' else s'

/-- GRANT_ACK (R382): the freed watts become unallocated. -/
def grantAckEff (n seq : Nat) (s : State) : State :=
  let d := diePower s n
  match d.decrease with
  | none => s
  | some (w, q) => if q = seq then releaseRises (setDiePower s n { d with acct := w, decrease := none }) else s

/-- REQUEST (R382): granted from unallocated pool only and not above the die's ceiling, or dropped. A decrease that is not acknowledged yet stays counted
beside it. -/
def requestEff (n w : Nat) (s : State) : State :=
  let d := diePower s n
  let g := (d.decrease.map (·.1)).getD d.acct + w
  if !running s || !stackUp s n || decide (unallocated s < w) || decide (ceilingW s n < g) then s
  else sendGrant n g (setDiePower s n { d with acct := d.acct + w, decrease := d.decrease.map (fun x => (g, x.2)) })

/-- RETURN (R382): the returned watts become unallocated, but for those that a decrease in flight leaves the die. -/
def returnWattsEff (n w : Nat) (s : State) : State :=
  let d := diePower s n
  if !running s || !stackUp s n then s else releaseRises (setDiePower s n { d with acct := max (d.acct - w) ((d.decrease.map (·.1)).getD 0) })

/-- POWER_BUDGET (R380, spec/12 R368): BAD_ARG above the TDP; below the floor the floor applies. -/
def powerBudgetEff (r : Req) : State → State := runCmd 0x0B01 r (fun s _ =>
  if tdp s.pkg.part < argN r 0 then .bad stBadArg 0
  else .ok (recompute { s with pwr := { s.pwr with budget := max (argN r 0) (floorW s.pkg.part) } }) [])

/-! ## Rails (R379) -/

/-- PWR_PHASE_LOST (R379): a phase of a rail fails. Rails are numbered by site * 16 + kind, kinds 0 to 7 VCORE of a cluster,
8 VNET, 9 VKS, 10 VLT, 11 VHTR, 12 the HBM4 rails, 13 VHUB; `phases` is how many the rail has without its two spares. -/
def pwrPhaseLostEff (site kind phases : Nat) (s : State) : State :=
  if s.pkg.power == 3 then s else
    let k := site * 16 + kind
    let lost := (mget s.pwr.phases (0, 1) k).1 + 1
    let s := emitMp Ev.pwrPhaseLost [kind, site, 2 - lost] { s with pwr := { s.pwr with phases := mset s.pwr.phases k (lost, phases) } }
    if 2 < lost ∧ site < 0x40 ∧ kind ≤ 8 then recompute s else s

/-! ## Temperature (R389 to R393) -/

/-- Warning, throttle and shutdown in 1/16 degree, by die type: 0 KC, KS and KH; 1 tiles; 2 HBM4 (R390). -/
def thermType (k : Nat) : Nat := if 0x40 ≤ k ∧ k ≤ 0x44 then 1 else if 0xA0 ≤ k then 2 else 0
def warnAt (k : Nat) : Int := if thermType k = 0 then 95 * 16 else 85 * 16
def throttleAt (k : Nat) : Int := warnAt k + 160
def shutdownAt (k : Nat) : Int := warnAt k + 320
def hystOf (s : State) (k : Nat) : Int := (mget s.pwr.hyst 5 (thermType k) : Nat) * 16

/-- The readings of the two nearest working neighbours of sensor `i`, nearest by number, the lower first (log 42). -/
def nearestTwo (temps : List (Option Int)) (i : Nat) : List Int :=
  ((List.range temps.length).flatMap (fun d =>
    (if 0 < d ∧ d ≤ i then [temps.getD (i - d) none] else []) ++ (if 0 < d then [temps.getD (i + d) none] else []))).filterMap id |>.take 2

/-- A sensor differs by more than 25 degrees from the mean of its two nearest working neighbours (R392). -/
def differs (temps : List (Option Int)) (i : Nat) : Bool :=
  match temps.getD i none, nearestTwo temps i with
  | some t, [a, b] => decide ((a + b) - 2 * t < -800 ∨ 800 < (a + b) - 2 * t)
  | some t, [a] => decide (a - t < -400 ∨ 400 < a - t)
  | _, _ => false

/-- Why a sensor is broken in this round: 0 conversion, 1 range, 2 neighbours (R392). -/
def brokenNow (t : Therm) (temps : List (Option Int)) (i : Nat) : Option Nat :=
  match temps.getD i none with
  | none => some 0
  | some x => if x < -320 ∨ 2400 < x then some 1 else if 10 ≤ mget t.differ 0 i then some 2 else none

/-- The event's die identifier: the site for a die that has one, and for a KS die the site of its stack. -/
def thermId (k : Nat) : Nat := if 0x80 ≤ k ∧ k < 0xA0 then k - 0x60 else k
/-- The event source that reads the die (R389). -/
def thermSrc (s : State) (k : Nat) : Nat :=
  if k = siteKH then mpSrc s else if 0xA0 ≤ k then siteLT ((k - 0xA0) / 4) else thermId k

/-- A sensor's turn: broken sensors are kept until package start. -/
def judgeSensor (k : Nat) (temps : List (Option Int)) (s : State) (i : Nat) : State :=
  let t := therm s k
  if t.broken.contains i then s else
    let working := (List.range temps.length).map (fun j => if t.broken.contains j then none else temps.getD j none)
    let t := { t with differ := mset t.differ i (if differs working i then mget t.differ 0 i + 1 else 0) }
    match brokenNow t temps i with
    | none => setTherm s k t
    | some c =>
      let t' := { t with broken := t.broken ++ [i] }
      emit (thermSrc s k) Ev.sensorBroken [thermId k, i, c, t'.broken.length] (setTherm s k t')

/-- The die's maximum and the sensor that gives it: a broken sensor reads as the throttle threshold (R389, R392). -/
def dieMax (k : Nat) (t : Therm) (temps : List (Option Int)) : Int × Nat :=
  (List.range temps.length).foldl (fun m i =>
    let v := if t.broken.contains i then throttleAt k else (temps.getD i none).getD (throttleAt k)
    if m.1 < v then (v, i) else m) (-1600, 0)

/-- The thermal cap of a KC die moves by one step of 38 W between 140 W and 380 W (R391). -/
def capStep (down : Bool) (n : Nat) (s : State) : State :=
  let d := diePower s n
  setDiePower s n { d with cap := if down then max 140 (d.cap - 38) else min 380 (d.cap + 38), capAt := s.now }

/-- The KC dies that a die's throttle acts on (R391). -/
def throttledKc (k : Nat) : List Nat :=
  if k < 0x40 then [k - 0x20]
  else if k < 0x44 then (List.range 3).map (fun i => 3 * (k - 0x40) + i)
  else if 0x80 ≤ k ∧ k < 0xA0 then [k - 0x80]
  else []

/-- The package reduction of LH and KH throttle moves by 5 % of TDP (R391). -/
def reduceStep (down : Bool) (s : State) : State :=
  let st := tdp s.pkg.part / 20
  let r := if down then min (s.pwr.reduction + st) (tdp s.pkg.part - floorW s.pkg.part) else s.pwr.reduction - st
  recompute { s with pwr := { s.pwr with reduction := r, reductionAt := s.now } }

/-- A die at its shutdown threshold (R391). -/
def thermShutdown (k : Nat) (s : State) : State :=
  if k = siteKH ∨ k = siteLH then enterOff true s
  else if 0xA0 ≤ k then hbmStackDown (k - 0xA0) (setTherm s k { broken := (therm s k).broken, shutdown := true })
  else if k < 0x40 then fenceStack (k - 0x20) 8 s
  else if k < 0x44 then fenceTile (k - 0x40) 8 s
  else fenceStack (k - 0x80) 8 s

/-- The thresholds of one die in one round (R390, R391). A cap that already falls falls by its own 10 ms. -/
def judgeDie (k : Nat) (mx : Int) (sensor : Nat) (s : State) : State :=
  let s0 := s
  let t := therm s k
  let h := hystOf s k
  let wIn := decide (warnAt k ≤ mx)
  let tIn := decide (throttleAt k ≤ mx)
  let wc := if mx < warnAt k - h then t.warnClear + 1 else 0
  let tc := if mx < throttleAt k - h then t.thrClear + 1 else 0
  let w := wIn || (t.warn && decide (wc < 3))
  let th := tIn || (t.throttle && decide (tc < 3))
  let down := decide (shutdownAt k ≤ mx) && !t.shutdown
  let cool := if mx < warnAt k - h then some (t.coolSince.getD s.now) else none
  let s1 := setTherm s k { t with maximum := mx, coolSince := cool, warn := w, throttle := th, warnClear := wc, thrClear := tc
                                  shutdown := t.shutdown || down }
  let src := thermSrc s k
  let ev (c : Nat) (lim : Int) (s : State) : State := emit src c [thermId k, intArg mx, intArg lim, sensor] s
  let s2 := if w && !t.warn then ev Ev.thermalWarn (warnAt k) s1 else s1
  let s3 := if th && !t.throttle then
      let s := ev Ev.thermalThrottle (throttleAt k) s2
      if k = siteKH ∨ k = siteLH then (if (therm s0 siteLH).throttle || (therm s0 siteKH).throttle then s else reduceStep true s)
      else (throttledKc k).foldl (fun s n => if kcThrottled s0 n then s else capStep true n s) s
    else s2
  if down then thermShutdown k (ev Ev.thermalShutdown (shutdownAt k) s3) else s3

/-- One die's sensors in one round (R389 to R393). -/
def thermRound (k : Nat) (temps : List (Option Int)) (s : State) : State :=
  if temps.isEmpty then s else
    let s := (List.range temps.length).foldl (judgeSensor k temps) s
    let t := therm s k
    let m := dieMax k t temps
    let half := decide (temps.length ≤ 2 * t.broken.length)
    if half && (k < siteLH || (0x80 ≤ k && k < 0xA0)) then
      let s := emit (thermSrc s k) Ev.sensorFence [thermId k, absentArg, absentArg, t.broken.length] s
      if k < 0x40 then fenceStack (k - 0x20) 7 s else if k < 0x44 then fenceTile (k - 0x40) 7 s else fenceStack (k - 0x80) 7 s
    else judgeDie k (if half && decide (m.1 < throttleAt k) then throttleAt k else m.1) m.2 s

/-! ## The middle-layer cross-check (R394) -/

/-- The integer part of the fifth root of `x`, from bit `n` down. -/
def root5 (n x acc : Nat) : Nat :=
  match n with
  | 0 => acc
  | k + 1 => let a := acc + 2 ^ k; if a ^ 5 ≤ x then root5 k x a else root5 k x acc

/-- (F_r / f) to the power 0.8, times 2^16. -/
def flowFactor (part flow : Nat) : Nat :=
  let fr := ratedFlow part
  let f := max (4 * flow) fr
  root5 19 (2 ^ 80 * (4 * fr) ^ 4 / f ^ 4) 0

/-- e_up and e_down in 1/16 degree. -/
def estUp (s : State) (n : Nat) (ks : Int) (p : Nat) : Int :=
  ks + (p * (mget s.pwr.theta (40, 60) n).1 * 16 * flowFactor s.pkg.part (flowF s) / 65536 / 1000 : Nat)
def estDown (s : State) (n : Nat) (lt : Int) (p : Nat) : Int :=
  lt + (p * (mget s.pwr.theta (40, 60) n).2 * 16 / 1000 : Nat)

/-- The cross-check of one stack in one round: `ks` and `lt` are the readings above and below, where there are working
sensors. -/
def crossCheck (n : Nat) (ks lt : Option Int) (kcMax : Int) (p : Nat) (s : State) : State :=
  let up := ks.map (fun x => estUp s n x p)
  let dn := lt.map (fun x => estDown s n x p)
  let est : Option Int := match up, dn with
    | some a, some b => some ((a + b) / 2)
    | some a, none => some a
    | none, some b => some b
    | none, none => none
  match est with
  | none => s
  | some e =>
    let d := diePower s n
    let past := decide (128 < e - kcMax)
    let k := if past then d.disN + 1 else 0
    let c := if e - kcMax ≤ 48 then d.disClear + 1 else 0
    let on := (d.disOn && decide (c < 3)) || decide (3 ≤ k)
    let s1 := setDiePower s n { d with disN := k, disClear := c, disOn := on }
    if on && !d.disOn then
      (if kcThrottled s n then id else capStep true n) (emit (siteKC n) Ev.sensorDisagree
        [siteKC n, intArg e, intArg kcMax, (up.map intArg).getD absentArg, (dn.map intArg).getD absentArg, flowF s] s1)
    else s1

/-! ## Die budget control (R383) -/

/-- The cluster rood that draws most among those that can go slower. -/
def hottestRood (s : State) (n : Nat) (draws : List Nat) : Option Nat :=
  ((List.range 8).foldl (fun (m : Option (Nat × Nat)) c =>
    let r := rood s (siteKC n) c
    let w := draws.getD c 0
    if 3 ≤ limitDiv r (targetDiv r) then m else
      match m with
      | none => some (c, w)
      | some (_, b) => if b < w then some (c, w) else m) none).map (·.1)

/-- The slowest rood, lowest-numbered first, that may go faster (R383, CORE_DIV_MIN). -/
def slowestRood (s : State) (n : Nat) : Option Nat :=
  let lo := match partOfStack s n with
    | none => 0
    | some pt => bitsN (cfgEff s 9 pt) 0 2
  ((List.range 8).foldl (fun (m : Option (Nat × Nat)) c =>
    let r := rood s (siteKC n) c
    let d := limitDiv r (targetDiv r)
    if d ≤ lo ∨ d = 0 ∨ r.holdUntil.isSome ∨ (r.limited ∧ d ≤ 1) then m else
      match m with
      | none => some (c, d)
      | some (_, b) => if b < d then some (c, d) else m) none).map (·.1)

/-- A rood's ROOD_DIV written for the budget (R219). -/
def budgetDiv (n c : Nat) (up : Bool) (s : State) : State :=
  let r := rood s (siteKC n) c
  let d := limitDiv r (targetDiv r)
  let d' := limitDiv r (if up then d - 1 else d + 1)
  setRood s (siteKC n) c { r with heldDiv := some d', setDiv := d', cause := 0 }

/-- One round of a KC die against its limit (R382, R383). -/
def dieBudget (n draw : Nat) (roodDraw : List Nat) (s : State) : State :=
  let d := diePower s n
  let lim := min d.grant d.cap
  let draws := (draw :: d.draws).take 10
  let mean := draws.foldl (· + ·) 0 / 10
  let below := if draw + 38 < lim then d.below + 1 else 0
  let at' := if lim ≤ draw then d.atLimit + 1 else 0
  let s := setDiePower s n { d with draws := draws, below := if 10 ≤ below then 0 else below, atLimit := if 10 ≤ at' then 0 else at' }
  let s := if lim < draw then
      match hottestRood s n roodDraw with
      | some c => budgetDiv n c false s
      | none =>
        let sec := secondOf (gtcOf s (siteKC n))
        if (diePower s n).overSec = some sec then s
        else emit (siteKC n) Ev.budgetOver [siteKC n, lim, draw] (setDiePower s n { diePower s n with overSec := some sec })
    else if 10 ≤ below then
      match slowestRood s n with
      | some c => budgetDiv n c true s
      | none => s
    else s
  let s := if 10 ≤ at' ∧ d.grant < d.cap then sendCtl (siteKC n) 3 [n, 38] s else s
  if draws.length = 10 ∧ mean + 38 < d.grant ∧ 140 < d.grant then
    let g := max 140 (mean + 19)
    if g < d.grant then sendCtl (siteKC n) 4 [n, d.grant - g] (setDiePower s n { diePower s n with grant := g }) else s
  else s

/-! ## Coolant (R396) -/

/-- A condition's rounds: in force after 3 rounds inside, and no longer after 3 outside. -/
def coolStep (c : CoolCond) (inside : Bool) : CoolCond :=
  let i := if inside then c.inside + 1 else 0
  let o := if inside then 0 else c.outside + 1
  { inside := i, outside := o, on := (c.on && decide (o < 3)) || decide (3 ≤ i) }

/-- The heat flow in mL/min: VIN12 power divided by the rise, for water (R395, R396). -/
def heatFlow (power : Nat) (rise : Int) (pFlow : Nat) : Nat :=
  if rise ≤ 0 then pFlow else power * 60 * 16 * 1000 / (4180 * rise.toNat)

/-- The coolant's round at the management processor; the division follows a change of the effective budget. -/
def coolantRound (r : Round) (s : State) : State :=
  let was := effBudget s
  let hf := heatFlow r.power (r.outlet - r.inlet) r.pFlow
  let fr := ratedFlow s.pkg.part
  let f := min r.pFlow hf
  let dis := decide (max r.pFlow hf * 5 < (max r.pFlow hf - min r.pFlow hf) * 25)
  let rounds := if dis then s.pwr.flowRounds + 1 else 0
  let p := { s.pwr with inlet := r.inlet, outlet := r.outlet, pFlow := r.pFlow, hFlow := hf, flowRounds := rounds }
  let ins (i : Nat) : Bool :=
    if i = 0 then decide (640 < r.inlet) || decide (f < fr) || decide (160 < r.outlet - r.inlet)
    else if i = 1 then decide (720 < r.inlet)
    else if i = 2 then decide (f * 100 < fr * 73)
    else decide (f * 100 < fr * 18)
  let args := [intArg r.inlet, intArg r.outlet, r.pFlow, hf]
  let s := { s with pwr := p }
  let s := if rounds = 100 then emitMp Ev.flowDisagree args s else s
  let s := (List.range 4).foldl (fun s i =>
    let c := mget s.pwr.cool {} i
    let c' := coolStep c (ins i)
    let s' := { s with pwr := { s.pwr with cool := mset s.pwr.cool i c' } }
    if c'.on && !c.on then
      let code := if i = 0 then Ev.coolantMargin else if i = 1 then Ev.coolantWarm else if i = 2 then Ev.coolantLowFlow else Ev.coolantLost
      let s'' := emitMp code args s'
      if i = 3 then capsDown s'' else s''
    else s') s
  if effBudget s = was then s else recompute s

/-- The largest draw of the last second of every consumer other than the KC dies (R381). -/
def nonKcRound (draw : Nat) (s : State) : State :=
  let l := (s.now, draw) :: s.pwr.nonKcLog.filter (fun e => decide (s.now < e.1 + 1000000000))
  { s with pwr := { s.pwr with nonKcLog := l.take 1000, nonKc := (l.map (·.2)).foldl max 0 } }

/-- THERMAL_CAP_STEP (R391): every 10 ms a cap, or the package reduction, moves one step. `site` is a KC site, or LH or KH for
the package. -/
def thermalCapStepEff (site : Nat) (s : State) : State :=
  if decide (2 ≤ s.pkg.power) then s
  else if site < 0x40 then
    let n := site - 0x20
    if !stackUp s n || decide (s.now < (diePower s n).capAt + 10000000) then s
    else if kcThrottled s n then capStep true n s
    else if (diePower s n).cap < 380 ∧ !s.aon.inletTrip ∧ !s.aon.vinTrip ∧ !(mget s.pwr.cool {} 3).on then capStep false n s
    else s
  else if s.now < s.pwr.reductionAt + 10000000 then s
  else if (therm s siteLH).throttle || (therm s siteKH).throttle then reduceStep true s
  else if 0 < s.pwr.reduction then reduceStep false s
  else s

end Sys2Proof.Machine
end

