-- ==== Sys2Proof/Machine/Update.lean ====
section
/-! DEFINITION. Update.lean: the firmware store, manifests, measurement, anti-rollback and activation (spec/15). -/
namespace Sys2Proof.Machine

/-! ## Identity (spec/01 R25 to R29, R477) -/

/-- IDENT_CRC as R477 computes it. -/
def identCrc (w : Nat) : Nat :=
  (crc16 ((leBytes 16 (bitsN w 128 128)).reverse ++ (leBytes 6 (bitsN w 0 48)).reverse)).toNat

/-- The first of checks 1 to 4 of R27 that fails for the block at a site: 0 FUSE_CRC, 1 FUSE_BLANK, 2 IDENT_MISMATCH, 3 SITE_MISPLACED. -/
def identFails (s : State) (site : Nat) : Option Nat :=
  let w := fuseBlock s site
  let kh := fuseBlock s siteKH
  let p := bitsN w 24 8
  if identCrc w ≠ bitsN w 48 16 then some 0
  else if bitsN w 40 8 ≠ 1 ∨ p = 0 ∨ 2 < p ∨ siteReserved (bitsN w 0 8) = true then some 1
  else if bitsN w 192 64 ≠ bitsN kh 192 64 ∨ (p ≠ bitsN kh 24 8 ∧ ¬ (bitsN kh 24 8 = 2 ∧ p = 1)) then some 2
  else if bitsN w 0 8 ≠ site then some 3
  else none

/-- Bytes of a byte string. -/
def slice (b : List Byte) (off n : Nat) : List Byte := (b.drop off).take n
def zeroBytes (b : List Byte) : Bool := b.all (· == 0)

/-! ## Manifests (R426, R427) -/

structure PartEnt where
  kind : Nat
  rev : Nat
  version : Nat
  off : Nat
  len : Nat
  hash : List Byte
  deriving DecidableEq, Repr

structure Manifest where
  part : Nat
  key : Nat
  version : Nat
  compat : Nat
  rb : Nat
  pk : List Byte
  ents : List PartEnt
  /-- Bytes before SIGNATURE, and SIGNATURE. -/
  body : List Byte
  sig : List Byte
  deriving DecidableEq, Repr

def partEnt (b : List Byte) : PartEnt :=
  { kind := fieldAt b 0 2, rev := fieldAt b 2 1, version := fieldAt b 4 4, off := fieldAt b 8 4, len := fieldAt b 12 4
    hash := slice b 16 32 }

/-- A part entry is well formed. -/
def entOk (b : List Byte) (e : PartEnt) : Bool :=
  decide (1 ≤ e.kind ∧ e.kind ≤ 9) && fieldAt b 3 1 == 0 && e.off % 64 == 0 && decide (1 ≤ e.len ∧ e.len ≤ 16777216)

/-- How many parts of a kind. -/
def kindCount (es : List PartEnt) (k : Nat) : Nat := (es.filter (fun e => e.kind == k)).length

/-- The set holds what R426 asks: one part of each kind, and a die controller image for each REV among the present dies. -/
def setComplete (es : List PartEnt) (revs : List Nat) : Bool :=
  [1, 3, 4, 5, 6, 7, 8].all (fun k => kindCount es k == 1) && decide (kindCount es 9 ≤ 1)
    && revs.all (fun v => (es.filter (fun e => e.kind == 2 && (e.rev == v || e.rev == 0xFF))).length == 1)

/-- The manifest at the start of a bank, or none where it is malformed or lacks a part (R426). -/
def parseManifest (bank : List Byte) (revs : List Nat) : Option Manifest :=
  let n := fieldAt bank 0x11 1
  let raw := (List.range n).map (fun i => slice bank (0x40 + 48 * i) 48)
  let es := raw.map partEnt
  let m : Manifest :=
    { part := fieldAt bank 6 1, key := fieldAt bank 7 1, version := fieldAt bank 8 4, compat := fieldAt bank 12 4
      rb := fieldAt bank 16 1, pk := slice bank 0x20 32, ents := es
      body := bank.take (0x40 + 48 * n), sig := slice bank (0x40 + 48 * n) 7856 }
  if fieldAt bank 0 4 = 0x4E414D4B ∧ fieldAt bank 4 2 = 1 ∧ 1 ≤ m.part ∧ m.part ≤ 2 ∧ m.key ≤ 3 ∧ m.version ≠ 0 ∧ m.rb ≤ 64
      ∧ 1 ≤ n ∧ n ≤ 64 ∧ zeroBytes (slice bank 0x12 14) ∧ (raw.zip es).all (fun p => entOk p.1 p.2) ∧ setComplete es revs
      ∧ m.sig.length = 7856 then some m
  else none

/-- SIGNER_PK is the ROM's key and SIGNATURE verifies (R427). -/
def sigOk (m : Manifest) : Bool :=
  sha256 m.pk == Config.romKeyHash m.key && Config.slhVerify m.pk m.body m.sig
/-- Every part's HASH matches its bytes. -/
def hashesOk (bank : List Byte) (m : Manifest) : Bool :=
  m.ents.all (fun e => (slice bank e.off e.len).length == e.len && sha256 (slice bank e.off e.len) == e.hash)
/-- The whole manifest's bytes. -/
def manifestBytes (m : Manifest) : List Byte := m.body ++ m.sig

/-- The REVs among the KC dies of the part. -/
def kcRevs (s : State) : List Nat :=
  ((List.range (stacksOf s.pkg.part)).map (fun n => revOf s (siteKC n))).foldl addOnce []

/-- The manifest of an authentic bank. -/
def authBank (s : State) (bank : List Byte) : Option Manifest :=
  match parseManifest bank (kcRevs s) with
  | none => none
  | some m => if sigOk m && hashesOk bank m then some m else none

def bankOf (s : State) (i : Nat) : List Byte := if i = 1 then s.upd.flash.bankB else s.upd.flash.bankA
def setBank (i : Nat) (b : List Byte) (s : State) : State :=
  { s with upd := { s.upd with flash := (if i = 1 then { s.upd.flash with bankB := b } else { s.upd.flash with bankA := b }) } }

/-- The bytes of the part of a kind, and its entry. -/
def partOf (bank : List Byte) (m : Manifest) (kind : Nat) : Option (PartEnt × List Byte) :=
  (m.ents.find? (fun e => e.kind == kind)).map (fun e => (e, slice bank e.off e.len))

/-! ## The boot selector (R425) -/

structure Selector where
  gen : Nat
  active : Nat
  rolling : Bool
  prev : Nat
  deriving DecidableEq, Repr

def parseSel (b : List Byte) : Option Selector :=
  if b.length = 20 ∧ fieldAt b 0 4 = 0x4C45534B ∧ (crc32 (b.take 16)).toNat = fieldAt b 16 4 ∧ fieldAt b 8 1 ≤ 1 ∧ fieldAt b 9 1 ≤ 1
  then some { gen := fieldAt b 4 4, active := fieldAt b 8 1, rolling := fieldAt b 9 1 == 1, prev := fieldAt b 12 4 }
  else none

def selBytes (x : Selector) : List Byte :=
  let b := leBytes 4 0x4C45534B ++ leBytes 4 x.gen ++ leBytes 1 x.active ++ leBytes 1 (b2n x.rolling) ++ leBytes 2 0 ++ leBytes 4 x.prev
  b ++ leBytes 4 (crc32 b).toNat

/-- The copy that governs, 0 or 1, and its record: the valid one with the newer GEN. -/
def governing (s : State) : Option (Nat × Selector) :=
  match parseSel s.upd.flash.sel0, parseSel s.upd.flash.sel1 with
  | some a, some b => if newer 32 b.gen a.gen then some (1, b) else some (0, a)
  | some a, none => some (0, a)
  | none, some b => some (1, b)
  | none, none => none

/-- The selector rewritten in the copy that does not govern, with GEN one higher. -/
def writeSel (active : Nat) (rolling : Bool) (prev : Nat) (s : State) : State :=
  let g := governing s
  let gen := match g with
    | some (_, x) => (x.gen + 1) % 2 ^ 32
    | none => 1
  let b := selBytes { gen := gen, active := active, rolling := rolling, prev := prev }
  let one := match g with
    | some (0, _) => true
    | _ => false
  { s with upd := { s.upd with bankActive := active
                               flash := (if one then { s.upd.flash with sel1 := b } else { s.upd.flash with sel0 := b }) } }

/-! ## Measurement (R442) -/

/-- A log entry of 48 bytes. -/
def measEntry (reg type site kind version : Nat) (digest : List Byte) : List Byte :=
  leBytes 1 reg ++ leBytes 1 type ++ leBytes 1 site ++ leBytes 1 0 ++ leBytes 2 kind ++ leBytes 2 0 ++ leBytes 4 version
    ++ leBytes 4 0 ++ ((digest ++ List.replicate 32 0).take 32)

/-- MEAS0 to MEAS3: 32 bytes each, zero until extended. -/
def measReg (s : State) (n : Nat) : List Byte := s.upd.meas.getD n (List.replicate 32 0)

/-- A measurement register extended by an entry, and the entry logged while there is room. -/
def measExtend (reg type site kind version : Nat) (digest : List Byte) (s : State) : State :=
  let e := measEntry reg type site kind version digest
  let m := (List.range 4).map (fun i => if i = reg then sha256 (measReg s i ++ e) else measReg s i)
  if s.upd.log.length < 4096 then { s with upd := { s.upd with meas := m, log := s.upd.log ++ [e] } }
  else
    let s' := { s with upd := { s.upd with meas := m, logOverflow := true } }
    if s.upd.logOverflow then s' else emitMp Ev.measLogFull [reg] s'

/-! ## Anti-rollback (R436) -/

/-- The count: the ones of ROLLBACK in the KH block. -/
def rbCount (s : State) : Nat := popN 64 (bitsN (mget s.fuses.blocks 0 siteKH).toNat 64 64)

/-- `n` more fuses blown in ascending bit order. -/
def blowFuses (fuel n w : Nat) : Nat :=
  (List.range fuel).foldl (fun (p : Nat × Nat) i =>
    if p.1 = 0 ∨ bitN p.2 (64 + i) then p else (p.1 - 1, p.2 + 2 ^ (64 + i))) (n, w) |>.2

/-- The count advanced to an epoch, one fuse at a time; where a write fails after `fails` fuses, the rest is left for the next start. -/
def rbAdvance (epoch : Nat) (fails : Option Nat) (s : State) : State :=
  let c := rbCount s
  if epoch ≤ c then s
  else
    let k := min (fails.getD (epoch - c)) (epoch - c)
    let w := BitVec.ofNat 256 (blowFuses 64 k (mget s.fuses.blocks 0 siteKH).toNat)
    let s := if k = 0 then s else measExtend 3 4 0 0 (c + k) [] { s with fuses := { s.fuses with blocks := mset s.fuses.blocks siteKH w } }
    emitMp (if k < epoch - c then Ev.fuseWriteFail else Ev.rbAdvanced) [c, epoch] s

/-! ## The configuration, thermal and guest parts (R372, R390, R420) -/

/-- An item of the configuration part: item, instance, value. -/
def cfgEntry (b : List Byte) : Nat × Nat × Nat := (fieldAt b 0 2, fieldAt b 2 1, fieldAt b 8 8)

/-- The base items of a configuration part. -/
def baseItems (b : List Byte) : List (Nat × Nat × Nat) :=
  (List.range (fieldAt b 8 4)).map (fun i => cfgEntry (slice b (0x20 + 16 * i) 16))

/-- The overlays: mode and items. -/
def overlayItems (b : List Byte) : Map (List (Nat × BitVec 64)) :=
  [0, 1, 2, 3].foldl (fun m i =>
    let off := fieldAt b (12 + 4 * i) 4
    if off = 0 then m else
      let mode := fieldAt b off 1
      let n := min (fieldAt b (off + 2) 2) 64
      mset m mode ((List.range n).map (fun j =>
        let e := cfgEntry (slice b (off + 8 + 16 * j) 16)
        (e.1, BitVec.ofNat 64 e.2.2)))) []

/-- A base value that is reserved or out of range (R372, R126). -/
def baseRefused (s : State) (item inst v : Nat) : Bool :=
  decide (cfgInstances s.pkg.part item ≤ inst)
    || (item == 3 && (decide (bitsN v 0 7 < 6 ∨ 72 < bitsN v 0 7) || decide (48 < bitsN v 8 6)))
    || cfgRefused s item (cfgDefault item) v

/-- One base item applied at start: its value, or where that is refused its design default. -/
def applyBase (s : State) (e : Nat × Nat × Nat) : State :=
  if baseRefused s e.1 e.2.1 e.2.2 then
    let d := BitVec.ofNat 64 (cfgDefault e.1)
    emitMp Ev.cfgItemBad [e.1, e.2.1, e.2.2]
      (if cfgInstances s.pkg.part e.1 ≤ e.2.1 then s else setCfg s e.1 e.2.1 { base := d, eff := d })
  else
    let v := e.2.2 &&& fieldMask (cfgRw e.1 ++ cfgRwb e.1 ++ (if s.pkg.part = 2 then [] else cfgRo e.1))
    setCfg s e.1 e.2.1 { base := BitVec.ofNat 64 v, eff := BitVec.ofNat 64 v }

/-- The four instances of MG_CFG rest on one TL_SHARE, or each takes 0 (R126). -/
def mgShares (s : State) : State :=
  let ts := (List.range (tilesOf s.pkg.part)).map (fun i => bitsN (cfgEff s 3 i) 8 6)
  if ts.all (fun t => t == ts.headD 0) then s
  else (List.range (tilesOf s.pkg.part)).foldl (fun s i =>
    let v := BitVec.ofNat 64 (mergeBits 0x3F00 (cfgEff s 3 i) 0)
    if bitsN (cfgEff s 3 i) 8 6 = 0 then s
    else emitMp Ev.cfgItemBad [3, i, cfgEff s 3 i] (setCfg s 3 i { base := v, eff := v })) s

/-- The configuration part applied at package start. -/
def loadConfig (b : List Byte) (s : State) : State :=
  let s := mgShares ((baseItems b).foldl applyBase { s with cfg := [] })
  { s with upd := { s.upd with overlays := overlayItems b } }

/-- The thermal part: one byte of hysteresis per die type, 1 to 5 degrees (R390). -/
def loadThermal (b : List Byte) (s : State) : State :=
  [0, 1, 2].foldl (fun s t =>
    let h := fieldAt b t 1
    if 1 ≤ h ∧ h ≤ 5 then { s with pwr := { s.pwr with hyst := mset s.pwr.hyst t h } }
    else emitMp Ev.cfgItemBad [8, t, h] { s with pwr := { s.pwr with hyst := mset s.pwr.hyst t 5 } }) s

/-- The guest part: GUEST_CTL and GUEST_WIN (R420), whose reserved bits read 0; a reserved LEN or PART is taken as ENABLE 0. -/
def guestCtlOf (w : Nat) : Nat :=
  let w := mergeBits (fieldMask [(12, 20), (11, 1), (10, 1), (0, 4)]) 0 w
  if bitsN w 12 20 = 0 ∨ 393216 < bitsN w 12 20 ∨ 11 < bitsN w 0 4 then mergeBits (2 ^ 11) w 0 else w
def loadGuest (b : Option (List Byte)) (s : State) : State :=
  match b with
  | none => { s with guest := { s.guest with ctl := 0, win := 0 } }
  | some b => { s with guest := { s.guest with ctl := BitVec.ofNat 64 (guestCtlOf (fieldAt b 0 8)), win := BitVec.ofNat 64 (mergeBits (fieldMask [(21, 27)]) 0 (fieldAt b 8 8)) } }

/-- The settings record read by the active image (R438): an older format is written afresh, the lock kept. The fields reset are told as a mask in the order of
R438: bit 1 the values of ROLE_SET, bit 2 the time of the drill (log 9). -/
def readSettings (format : Nat) (s : State) : State :=
  let st := s.upd.flash.settings
  if format ≤ st.format then s
  else
    let st' : Settings := { lock := st.lock, format := format }
    emitMp Ev.settingsReset [st.format, 6] { s with upd := { s.upd with flash := { s.upd.flash with settings := st' } } }

/-! ## Staging and activation (R430 to R437) -/

/-- A capacity change is in progress (R431). -/
def capBusy (s : State) : Bool := s.pod.podState == 1 || capChange s

/-- The update refusal states: the first that holds (R431 0x01 to 0x03). -/
def updRefusal (s : State) : Option Nat :=
  if s.upd.flash.settings.lock then some 1 else if marginLow s then some 2 else if capBusy s then some 3 else none

/-- The refusals that a manifest gives (R431 0x04 to 0x08). -/
def manifestRefusal (s : State) (m : Manifest) : Option Nat :=
  if m.version ≤ s.upd.version then some 4
  else if m.rb < rbCount s then some 5
  else if m.key < s.upd.keyIndex then some 6
  else if s.upd.version < m.compat then some 7
  else if m.part ≠ s.pkg.part then some 8
  else none

/-- UPD_STAGE (R430, R431): `sd` is the file on the card, and `writeOk` whether the flash takes it. -/
def updStageEff (r : Req) (sd : Option (List Byte)) (writeOk : Bool) : State → State := runCmd 0x0C00 r (fun s _ =>
  let inactive := 1 - s.upd.bankActive
  let erased (d : Nat) : CmdOut :=
    .fail (emitMp Ev.updStageFailed [((sd.map (fun b => fieldAt b 8 4)).getD absentArg), inactive, d]
      (setBank inactive [] { s with upd := { s.upd with staged := none } })) stFailed d
  if s.upd.activation.isSome || s.mp2.drill.isSome then .bad stBusy 0
  else
    match updRefusal s with
    | some d => .bad stRefused d
    | none =>
      match sd with
      | none => erased 0x10
      | some img =>
        match parseManifest img (kcRevs s) with
        | none => erased 0x11
        | some m =>
          match manifestRefusal s m with
          | some d => .bad stRefused d
          | none =>
            if !sigOk m then erased 0x12
            else if !hashesOk img m then erased 0x13
            else if !writeOk then erased 0x14
            else .ok (emitMp Ev.updStaged [m.version, inactive, 0]
              (setBank inactive img { s with upd := { s.upd with staged := some m.version } })) [BitVec.ofNat 32 m.version])

/-- The units of the roll in order (R432): sites, then 0x100 fabric engine, 0x101 request engine, 0x102 the standby
processor and 0x103 the former active one. -/
def rollUnits (s : State) : List Nat :=
  ((List.range (tilesOf s.pkg.part)).map siteLT ++ [siteLH] ++ (List.range (stacksOf s.pkg.part)).map siteKC).filter
      (fun u => siteUp s u && (if u < 0x40 then stackUp s (u - 0x20) else (mfind s.rel.tileF (u - 0x40)).isNone))
    ++ [0x100, 0x101, 0x102, 0x103]

/-- KIND of the part that a unit of the roll loads. -/
def unitKind (u : Nat) : Nat :=
  if u < 0x40 then 2 else if u < siteLH then 3 else if u = siteLH then 4 else if u = 0x100 then 5 else if u = 0x101 then 6 else 1

/-- The site that a unit of the roll names. -/
def unitSite (u : Nat) : Nat := if u < 0x100 then u else siteKH

/-- The unit that the roll reloads next: the first of its order that is not reloaded yet (R432, R434). -/
def rollNext (s : State) (a : Activation) : Option Nat := (rollUnits s).find? (fun u => !a.done.contains u)

/-- The roll goes on with the reload of its next unit, whose events are held; it pauses between two reloads while an update refusal state holds. -/
def rollOn (a : Activation) (s : State) : State :=
  let u := if (updRefusal s).isSome then none else rollNext s a
  let down := match u with
    | some x => if x < 0x100 then addOnce s.mp2.ctrlDown x else s.mp2.ctrlDown
    | none => s.mp2.ctrlDown
  { s with upd := { s.upd with activation := some { a with unit := u } }, mp2 := { s.mp2 with ctrlDown := down } }

/-- A unit's reload is over: its controller runs again, and the events held enter its queue. -/
def rollUp (u : Nat) (s : State) : State :=
  if s.mp2.ctrlDown.contains u then
    let mp2 := { s.mp2 with ctrlDown := dropEl s.mp2.ctrlDown u, ctrlSeen := mset s.mp2.ctrlSeen u s.now }
    let obs := { s.obs with trace := mdel s.obs.trace u, paused := dropEl s.obs.paused u, notWritten := mdel s.obs.notWritten u }
    releaseEvents u { s with mp2 := mp2, obs := obs }
  else s

/-- UPD_ACTIVATE (R431, R432): the selector reads ROLLING, and the first reload begins. -/
def updActivateEff (r : Req) : State → State := runCmd 0x0C01 r (fun s t =>
  let bank := bankOf s (1 - s.upd.bankActive)
  if s.upd.activation.isSome || s.mp2.drill.isSome then .bad stBusy 0
  else
    match updRefusal s with
    | some d => .bad stRefused d
    | none =>
      match s.upd.staged.bind (fun _ => (parseManifest bank (kcRevs s)).bind (manifestRefusal s)) with
      | some d => .bad stRefused d
      | none =>
        if 4096 < s.upd.log.length + 64 then .bad stRefused 9
        else match s.upd.staged.bind (fun _ => authBank s bank) with
        | none => .bad stState 0x0A
        | some m =>
          let act : Activation := { ticket := t, oldVersion := s.upd.version, newVersion := m.version }
          let s := writeSel (1 - s.upd.bankActive) true s.upd.version s
          let s := measExtend 0 5 0 0 m.version (sha256 (manifestBytes m)) s
          .later (rollOn act (emitMp Ev.updActivating [act.oldVersion, act.newVersion] s)))

/-- An item of the new base applied to an item not written since start, as a write of it would (R437). -/
def applyNewBase (s : State) (e : Nat × Nat × Nat) : State :=
  if (cfgItem s e.1 e.2.1).src = 2 then s
  else if baseRefused s e.1 e.2.1 e.2.2 then emitMp Ev.cfgItemBad [e.1, e.2.1, e.2.2] s
  else
    match cfgWrite false e.1 e.2.1 e.2.2 0 s with
    | .done s' _ =>
      let c := cfgItem s' e.1 e.2.1
      setCfg s' e.1 e.2.1 { c with base := BitVec.ofNat 64 e.2.2 }
    | _ => let c := cfgItem s e.1 e.2.1
      setCfg s e.1 e.2.1 { c with base := BitVec.ofNat 64 e.2.2, held := some (BitVec.ofNat 64 e.2.2), heldSrc := 0 }

/-- The measurement of a unit's load. -/
def measUnit (m : Manifest) (u type : Nat) (s : State) : State :=
  let k := unitKind u
  match m.ents.find? (fun e => e.kind == k && (k != 2 || e.rev == revOf s u || e.rev == 0xFF)) with
  | none => s
  | some e => measExtend (if k = 1 then 0 else 1) type (unitSite u) k e.version e.hash s

/-- Steps 5 to 7 of R432. -/
def activationEnds (a : Activation) (bank : List Byte) (m : Manifest) (fuseFails : Option Nat) (s : State) : State :=
  let s := match partOf bank m 7 with
    | none => s
    | some (e, b) =>
      let s := measExtend 2 2 siteKH 7 e.version e.hash ((baseItems b).foldl applyNewBase s)
      { s with upd := { s.upd with overlays := overlayItems b } }
  let s := match partOf bank m 8 with
    | none => s
    | some (e, b) => measExtend 2 2 siteKH 8 e.version e.hash (loadThermal b s)
  let s := readSettings (Config.settingsFormat m.version) (rbAdvance m.rb fuseFails (writeSel s.upd.bankActive false a.oldVersion s))
  let s := { s with upd := { s.upd with activation := none, staged := none, version := m.version, keyIndex := m.key, rbEpoch := m.rb } }
  finishTicket a.ticket stOK 0 [BitVec.ofNat 32 m.version] (emitMp Ev.updActivated [a.oldVersion, m.version] s)

/-- The activation is reverted (R435): the part that failed and every part reloaded before it load from the previous bank again, in reverse order. -/
def activationReverts (a : Activation) (u : Nat) (s : State) : State :=
  let s := writeSel (1 - s.upd.bankActive) false a.newVersion s
  let s := match authBank s (bankOf s s.upd.bankActive) with
    | none => s
    | some m => (u :: a.done.reverse).foldl (fun s v => measUnit m v 1 s) s
  let s := { s with upd := { s.upd with activation := none } }
  finishTicket a.ticket stFailed (unitSite u) [] (emitMp Ev.updReverted [a.oldVersion, unitSite u, unitKind u] s)

/-- A reload of the roll has passed: control goes to the reloaded standby, and the reloaded former processor becomes the standby (R432 step 4). -/
def rollHandover (u : Nat) (s : State) : State :=
  if u = 0x102 then
    let s := takeover 1 { s with mp := { s.mp with standbyOk := true } }
    { s with mp := { s.mp with standbyOk := false }, mp2 := { s.mp2 with lostCtlAt := some s.now } }
  else if u = 0x103 then hbFrom (!s.mp.activeB) { s with mp := { s.mp with standbyOk := true, standbyReset := false }
                                                         mp2 := { s.mp2 with standbySince := some s.now } }
  else s

/-- ACTIVATION_RELOAD_DONE (R432, R435): the reload in progress ends; it passes where `pass` says that its unit answers in time and the checks of R27
(those of a processor, its self-check) pass. A roll that pauses goes on as the refusal state clears. -/
def activationReloadDoneEff (pass : Bool) (fuseFails : Option Nat) (s : State) : State :=
  match s.upd.activation with
  | none => s
  | some a =>
    if a.unit.isNone && (updRefusal s).isSome then s
    else
      let u := a.unit.getD ((rollNext s a).getD 0x103)
      let s := rollUp u s
      match authBank s (bankOf s s.upd.bankActive) with
      | none => activationReverts a u s
      | some m =>
        let s := measUnit m u 1 s
        if !pass || (decide (u < 0x100) && (identFails s u).isSome) then activationReverts a u s
        else
          -- a controller that has started from reset (spec/06 R201)
          let s := rollHandover u (if u < 0x100 then initSides u s else s)
          let a' := { a with done := a.done ++ [u] }
          if (rollNext s a').isNone then activationEnds a' (bankOf s s.upd.bankActive) m fuseFails s else rollOn a' s

/-- UPD_LOCK (R439): STATE while an activation is in progress. -/
def updLockEff (r : Req) : State → State := runCmd 0x0C02 r (fun s _ =>
  if s.upd.activation.isSome then .bad stState 0
  else
    let st : Settings := { s.upd.flash.settings with lock := bitN (argN r 0) 0 }
    .ok (emitMp Ev.updLockChanged [b2n st.lock, chanCode r.chan]
      { s with upd := { s.upd with flash := { s.upd.flash with settings := st } } }) [])

/-- FW_VER (spec/11 R336). -/
def fwVer (s : State) : BitVec 32 := BitVec.ofNat 32 s.upd.version

end Sys2Proof.Machine
end

