-- ==== Sys2Proof/Machine/PinEvents.lean ====
section
/-! DEFINITION. PinEvents.lean: the control lands, the always-on domain and its comparators, and the test access port (spec/13
R397; spec/16 R460; spec/17 R467 to R471). -/
namespace Sys2Proof.Machine

/-- PWR_STATE's cause: 0 command, 1 wake input, 2 trip (R398). -/
def pwrState (old new cause : Nat) (s : State) : State := emitMp Ev.pwrState [old, new, cause] s

/-- ALWAYS_ON_DOMAIN_UP (spec/17 R469): VIN12 is applied; the domain counts GTC from 0. -/
def alwaysOnDomainUpEff (s : State) : State :=
  if s.aon.up then s else { s with pins := { s.pins with vin12 := true }, aon := { ({} : Aon) with up := true } }

/-- VIN12_REMOVAL (R467): the whole package loses power, and the always-on domain is cleared. -/
def vin12RemovalEff (s : State) : State :=
  { enterOff false s with pins := { s.pins with vin12 := false, pwrgd := false }, aon := {} }

/-- PWRGD_FALL (R470). -/
def pwrgdFallEff (s : State) : State := { enterOff false s with pins := { s.pins with pwrgd := false } }

/-- HWRST_ASSERT (R467, R470): to OFF, and the hold of latched trips is released. -/
def hwrstAssertEff (s : State) : State :=
  let s := enterOff false s
  { s with pins := { s.pins with hwrst := true }, aon := { s.aon with holdOff := false } }

/-- AON_TRIP's argument words: comparator (0 inlet, 1 hot-spot, 2 VIN12 window, 3 wake input), state at the trip, latched. -/
def aonTrip (c st : Nat) (latched : Bool) (s : State) : State := emitMp Ev.aonTrip [c, st, b2n latched] s

/-- A trip noted: reported when it occurs, or kept for the wake or the next start (R397). -/
def noteTrip (c : Nat) (s : State) : State :=
  if s.pkg.power < 2 then aonTrip c s.pkg.power false s
  else { s with aon := { s.aon with report := s.aon.report ++ [(c, s.pkg.power)] } }

/-- COOLANT_INLET_TRIP (R397): in RUN and IDLE every thermal cap falls to 140 W by hardware. -/
def coolantInletTripEff (s : State) : State :=
  if !s.aon.up || s.aon.inletTrip then s else
    let s := noteTrip 0 { s with aon := { s.aon with inletTrip := true } }
    if s.pkg.power < 2 then capsDown s else s

/-- HOT_SPOT_TRIP (R397): in RUN and IDLE the package enters OFF, latched; in OFF it is recorded, and latched. -/
def hotSpotTripEff (s : State) : State :=
  if !s.aon.up || s.pkg.power == 2 then s
  else
    let st := s.pkg.power
    let s := if st < 2 then enterOff false s else s
    { s with aon := { s.aon with latchHot := true, holdOff := true, report := s.aon.report ++ [(1, st)] } }

/-- VIN12_WINDOW_TRIP (R397): the caps at once; the window's trip is latched and reported at the next start. -/
def vin12WindowTripEff (s : State) : State :=
  if !s.aon.up || s.aon.vinTrip then s else
    let aon := { s.aon with vinTrip := true, vinTripAt := s.now, latchVin := true, holdOff := true
                            report := s.aon.report ++ [(2, s.pkg.power)] }
    let s := { s with aon := aon }
    if s.pkg.power < 2 then capsDown s else s

/-- VIN12_TRIP_TIMEOUT (R397): a trip that lasts 10 ms takes the package to OFF. -/
def vin12TripTimeoutEff (s : State) : State :=
  if !s.aon.vinTrip || decide (2 ≤ s.pkg.power) || decide (s.now < s.aon.vinTripAt + 10000000) then s else enterOff false s

/-- Wake is held while a comparator is tripped (R388). -/
def wakeHeld (s : State) : Bool := s.aon.inletTrip || s.aon.vinTrip

/-- COMPARATOR_CLEAR (R388, R397): `vin` names the VIN12 window, otherwise the coolant inlet. -/
def comparatorClearEff (vin : Bool) (s : State) : State :=
  if vin then { s with aon := { s.aon with vinTrip := false } } else { s with aon := { s.aon with inletTrip := false } }

/-- A wake by the wake input is to start as soon as no comparator holds it (R388, R471). -/
def wakeAsked (s : State) : State :=
  let s := noteTrip 3 s
  { s with aon := { s.aon with wakeCause := 2 }
           pkg := { s.pkg with transition := some (s.pkg.transition.getD (2 ^ 16, 0)) } }

/-- WAKE_IN_EDGE (R397, R471): counted in RUN and IDLE, a wake in DEEP, reported on that wake; ignored in OFF. -/
def wakeInEdgeEff (s : State) : State :=
  if !s.aon.up || s.pkg.power == 3 then s
  else if s.pkg.power = 2 then wakeAsked s
  else noteTrip 3 { s with aon := { s.aon with wakeCount := s.aon.wakeCount + 1 } }

/-! ## The test access port (R460) -/

/-- IDCODE. -/
def idcode (s : State) : BitVec 32 :=
  BitVec.ofNat 32 (revOf s siteKH % 16 * 2 ^ 28 + (if s.pkg.part = 2 then 0x1200 else 0x4800) * 2 ^ 12
    + Config.manufacturerId.toNat * 2 + 1)

/-- JTAG_INSTRUCTION (R460): 0 IDCODE, 1 BYPASS, 2 SAMPLE/PRELOAD act in every state; 3 EXTEST, 4 CLAMP and 5 HIGHZ act
while HWRST# is asserted and otherwise as BYPASS; a private instruction (6 and above) acts only in production test mode,
where the spec does not give its effect, and otherwise as BYPASS. -/
def jtagInstruction (i : Nat) (s : State) : Host.Outcome State Fault Refusal :=
  let act (j : Nat) : Host.Outcome State Fault Refusal :=
    let s := { s with obs := { s.obs with tap := j } }
    .next (if j = 0 then send (.tap (idcode s)) s else s)
  if i ≤ 2 then act i
  else if i ≤ 5 then act (if s.pins.hwrst then i else 1)
  else if s.pins.testSampled then .refused .privateTestInstruction
  else act 1

end Sys2Proof.Machine
end

