-- ==== Sys2Proof/Machine/Start.lean ====
section
/-! DEFINITION. Start.lean: the start of the package: the ROM, identity checks, margins, photonic start-up, memory and ports (spec/01 R25 to
R29, R38 to R40; spec/05 R178; spec/15 R424 to R429, R440; spec/17 R469; log 13). -/
namespace Sys2Proof.Machine

/-! ## Identity (R25 to R29, R477) -/

/-- The event of a failed check. -/
def identEvent (n : Nat) : Nat := [Ev.fuseCrc, Ev.fuseBlank, Ev.identMismatch, Ev.siteMisplaced].getD n Ev.fuseCrc

/-- KH fails check 1, 2 or 4, or LH one of 1 to 4 (R28): the site and the check. -/
def hubFault (s : State) : Option (Nat × Nat) :=
  match identFails s siteKH with
  | some n => some (siteKH, n)
  | none => (identFails s siteLH).map (fun n => (siteLH, n))

/-- The identity checks of a die (R27, R29): the first that fails decides. A die that fails one of 1 to 4 is held out and fenced (cause 9); one that
fails the fifth, whose record fails CAL_CRC, is reported. -/
def identCheck (calBad : List Nat) (s : State) (site : Nat) : State :=
  match identFails s site with
  | some n =>
    let s := emitMp (identEvent n) [site] { s with pkg := { s.pkg with heldOut := addOnce s.pkg.heldOut site } }
    if site < 0x40 then fenceStack (site - 0x20) 9 s else fenceTile (site - 0x40) 9 s
  | none =>
    let s := if bitsN (fuseBlock s siteKH) 24 8 = 2 ∧ bitsN (fuseBlock s site) 24 8 = 1 then emitMp Ev.identMismatch [site, 0] s else s
    if calBad.contains site then emitMp Ev.calCrc [site] s else s

/-- The sites whose first failing check is the fifth (R27): they start on the design-default calibration. -/
def calDefaults (s : State) (calBad : List Nat) : List Nat := calBad.filter (fun x => (identFails s x).isNone)

/-- Dies outside the sites of a KV-120 are absent; each that reads 0x01 is reported (R29). -/
def strayCheck (s : State) (site : Nat) : State :=
  if bitsN (fuseBlock s site) 24 8 = 1 then emitMp Ev.identMismatch [site] s else s

/-! ## Clocks, light, memory and ports -/

/-- The dies in service that answer lock their PLLs (R210, R212); those of `silent` stay on their start-up oscillators. The hub's discipline begins again
(R230, R234). -/
def startClocks (silent : List Nat) (s : State) : State :=
  let h := s.clk.hub
  let s := { s with clk := { s.clk with hub := { h with
    src := 0, locked := false, everLocked := false, primaryLockAt := none, primaryLostAt := none, fallbackLocked := false
    startAt := some s.now, lastMark := none } } }
  s.pkg.present.foldl (fun s site =>
    if !silent.contains site then lockDie site s else if litDie site then setDie s site { osc := true } else s) s

/-- A working comb at start-up, as first read (R178): where a line has faded by 3.0 dB or more its spare replaces it before use, and without a spare
the line is dropped (R175). -/
def startComb (t : Nat) (r : CombRead) (s : State) : State :=
  let x := combOfTile s t r.comb
  if !x.lit then s
  else
    let comm := combComm s t r.comb
    let pow := linePow [] comm r.taps
    if !anyFaded comm pow 30 then setComb05 t r.comb { x with pow := pow, total := r.total } s
    else if spareLeft s t r.comb then spendSpare t r.comb (setComb05 t r.comb { x with onSpare := true } s)
    else
      let s := setComb05 t r.comb { x with pow := pow, total := r.total } s
      dropLines t r.comb (fadedLines s t r.comb) s

/-- The entry of the design-default calibration (R27; log 23). -/
def designEnt (b l : Nat) : CalEnt :=
  let f (i n : Nat) : Nat := Config.designCal b l i % 2 ^ n
  { txFsr := f 0 16, rxFsr := f 1 16, txSpc := f 2 16, rxSpc := f 3 16
    pts := (List.range 5).map (fun i => (f (4 + 4 * i) 12, f (5 + 4 * i) 12, f (6 + 4 * i) 10, f (7 + 4 * i) 8)) }

/-- A channel on the design-default calibration (R27, R178): swept to the line with the correct identity, and calibrated before it carries traffic. -/
def startSweep (b l : Nat) (m : CalMeas) (s : State) : State :=
  let tt := ringTemp s b l 0
  let rt := ringTemp s b l 1
  let s := setPho { s.pho with ents := mset s.pho.ents (b * 32 + l) (calUpdate (designEnt b l) m tt rt), dirty := addOnce s.pho.dirty (b * 32 + l) } s
  modCh b l (fun c => { c with tx := m.tx, rx := m.rx, bias := m.bias, setpt := m.setpt, calAt := some s.now, txTemp := tt, rxTemp := rt }) s

/-- Photonic start-up (R178): the bundles between present endpoints are lit, those of `bundlesDown` excepted; entries are those of the store, and of no
tile on the design-default calibration; the heaters go to the codes interpolated at the temperatures found. On the design-default calibration the channels of `sweeps` have been
found and calibrated, and the others are retired; elsewhere those of `cleared` were mislocked and have been found, and those of `chansBad` are retired (R167, R168). -/
def startPhotonics (f : StartFind) (s : State) : State :=
  let p := s.pkg.part
  let bs := (List.range 452).filter (fun b => bundleOn p b)
  let tiles := (List.range (tilesOf p)) ++ [4]
  let combs := tiles.flatMap (fun t => ((List.range (if t = 4 then 4 else 28)).filter (fun c => bs.any (fun b => bTile b == t && bComb b == c))).map
    (fun c => (t * 32 + c, ({ lit := true, onSpare := (combOfTile s t c).onSpare } : Comb))))
  let ents := s.pho.stored.filterMap (fun q =>
    if s.pkg.defCal.contains (siteLT (bTile (q.1 / 32))) then none else (entOfBytes q.2).map (fun e => (q.1, e)))
  let temps := f.temps.foldl (fun m q => mset m q.1 q.2) []
  let retired := s.pho.chans.filter (fun q => q.2.st == 9)
  let s := { s with pwr := { s.pwr with tileTemps := temps } }
  let s := setPho { s.pho with
    chans := retired, ents := ents, dirty := [], combs := combs, temps0 := temps
    bundles := bs.map (fun b => (b, if f.bundlesDown.contains b then ({ st := 4 } : Bundle) else { lit := true, st := 0, lanes := 16, serviceLost := false })) } s
  let s := (bs.filter (fun b => f.bundlesDown.contains b)).foldl (fun s b => emitTile (bTile b) Ev.bundleFailed [b, 0, 1] s) s
  let s := f.combs.foldl (fun s q => startComb q.1 q.2 s) s
  let s := retired.foldl (fun s q =>
    let b := q.1 / 32
    let l := q.1 % 32
    if !(bundleOf s b).lit then s else bundleEval b (if l = 16 then s else claimL16 b (claimRank 9 l) l s)) s
  let lit (s : State) (b : Nat) : Bool := (bundleOf s b).lit
  let dflt (b : Nat) : Bool := s.pkg.defCal.contains (siteLT (bTile b))
  let s := (f.sweeps.filter (fun q => dflt (q.1 / 32) && lit s (q.1 / 32))).foldl (fun s q => startSweep (q.1 / 32) (q.1 % 32) q.2 s) s
  let lost := (bs.filter (fun b => dflt b && lit s b)).flatMap (fun b =>
    ((List.range 18).map (fun l => b * 32 + l)).filter (fun k => (mfind f.sweeps k).isNone))
  let s := (f.cleared.filter (fun q => lit s (q.1 / 32))).foldl (fun s q => trainCleared (q.1 / 32) (q.1 % 32) q.2.1 q.2.2.1 q.2.2.2 s) s
  let bad := (f.chansBad ++ lost).filter (fun k => lit s (k / 32))
  let s := bad.foldl (fun s k => trainRetired (k / 32) (k % 32) s) s
  (bad.map (· / 32)).eraseDups.foldl (fun s b => trainEnds b s) s

/-- HBM4 training: the repair log is applied again (R133, R490), and a channel that fails its training is spared (R135). -/
def startHbm (bad : List Nat) (s : State) : State :=
  let s := (List.range (hbmStacks s.pkg.part)).foldl (fun s m =>
    let h := { keptHbm (stackAt s m) with heat := (stackAt s m).heat }
    let mine (row : Nat) : Bool := h.logSpared == some (row % spareMark / 2 ^ 21)
    let h := { h with
      spared := h.logRows.map (· % spareMark), retired := h.logRetired
      used := (h.logRows.filter (fun r => decide (r < spareMark))).foldl (fun u r => mmod u 0 (bankKey r) (· + 1)) []
      spareUsed := (h.logRows.filter (fun r => decide (spareMark ≤ r) && mine r)).foldl (fun u r => mmod u 0 (bankKey (r % spareMark)) (· + 1)) []
      spare := if h.logFailed then .failed h.logSpared else match h.logSpared with
        | some c => .inUse c
        | none => .free }
    setStack m h s) s
  bad.foldl (fun s k => hbmInterfaceErrorEff (k / 32) (k % 32) false s) s

/-- The down ports trained from the first START of each side, with INIT, and those of `bad` fenced (R201, R205). A port that was fenced before a wake
stays so. -/
def startPorts (bad : List Nat) (s : State) : State :=
  let e := BitVec.ofNat 16 (bitsN (hubGtc s).toNat 10 16)
  let ps := (List.range 144).filter (portOn s)
  let s := setXpt { ports := s.xpt.ports } s
  let s := ps.foldl (fun s p => if (portSide s p 0).state = 3 then s else [0, 1].foldl (fun s side =>
    let a := (portSide s p side).adopted
    let s := sendTrain p side 16 3 (setSide p side { state := 1, step := 1, localEp := e, init := true } s)
    setSide p side { state := 2, width := 3, localEp := e, peerEp := e, adopted := a } s) s) s
  (ps.filter (fun p => bad.contains p)).foldl (fun s p => fencePort p (setSide p 0 { portSide s p 0 with fails := 3 } s)) s

/-- The latches and the trips since the last start are reported and cleared (R397). -/
def reportTrips (s : State) : State :=
  let s := s.aon.report.foldl (fun s r => aonTrip r.1 r.2 (r.1 == 1 || r.1 == 2) s) s
  { s with aon := { s.aon with report := [], latchHot := false, latchVin := false, latchOff := false } }

/-! ## The ROM (R424 to R429, R440) -/

/-- DETAIL of a bank that is not authentic (R431). -/
def bankDetail (s : State) (bank : List Byte) : Nat :=
  match parseManifest bank (kcRevs s) with
  | none => 0x11
  | some m => if !sigOk m then 0x12 else 0x13

/-- The bank that starts, with its manifest: the ACTIVE one, else the other where R428 admits it. With no valid selector bank A stands first. -/
def romBank (s : State) : Option (Nat × Manifest) × State :=
  let act := ((governing s).map (·.2.active)).getD 0
  match authBank s (bankOf s act) with
  | some m => (some (act, m), { s with upd := { s.upd with bankActive := act } })
  | none =>
    let s := emitMp Ev.bankInvalid [act, bankDetail s (bankOf s act)] s
    let old := parseManifest (bankOf s act) (kcRevs s)
    match authBank s (bankOf s (1 - act)) with
    | none => (none, s)
    | some m =>
      if m.rb < rbCount s ∨ m.key < (old.map (·.key)).getD 0 then (none, s)
      else (some (1 - act, m), writeSel (1 - act) false ((old.map (·.version)).getD 0) s)

/-- Recovery mode (R440): the ROM alone serves, on PCIe. -/
def enterRecovery (cause : Nat) (s : State) : State :=
  let s := { s with
    pkg := { s.pkg with power := 0, starting := false, recovery := true, recCause := cause, recReport := some cause }
    mp := { s.mp with running := true }
    upd := { s.upd with rcvLen := none, rcvImage := [], rcvBank := if cause = 2 then s.upd.bankActive else 0, rcvFuse := cause == 0 } }
  measExtend 3 3 0 0 0 [] s

/-- An image checked and installed in recovery (R440): the VERSION installed, or the DETAIL of R431. -/
def installImage (img : List Byte) (s : State) : (Nat ⊕ Nat) × State :=
  match parseManifest img (kcRevs s) with
  | none => (.inr 0x11, s)
  | some m =>
    let old := parseManifest (bankOf s s.upd.rcvBank) (kcRevs s)
    if m.rb < rbCount s then (.inr 5, s)
    else if m.key < (old.map (·.key)).getD 0 then (.inr 6, s)
    else if m.part ≠ s.pkg.part then (.inr 8, s)
    else if !sigOk m then (.inr 0x12, s)
    else if !hashesOk img m then (.inr 0x13, s)
    else (.inl m.version, writeSel s.upd.rcvBank false ((old.map (·.version)).getD 0) (setBank s.upd.rcvBank img s))

/-- The loads of a start, measured: the manifest, both processors, and every unit that answers. -/
def measureStart (m : Manifest) (silent : List Nat) (s : State) : State :=
  let s := measExtend 0 5 0 0 m.version (sha256 (manifestBytes m)) s
  let us := [0x102, 0x103] ++ ((List.range (tilesOf s.pkg.part)).map siteLT ++ [siteLH] ++ (List.range (stacksOf s.pkg.part)).map siteKC).filter
    (fun u => siteUp s u && !silent.contains u) ++ [0x100, 0x101]
  us.foldl (fun s u => measUnit m u 1 s) s

/-- The configuration, thermal and guest parts, applied and measured (R372, R390, R420, R442). -/
def applyParts (bank : List Byte) (m : Manifest) (s : State) : State :=
  let put (k : Nat) (f : List Byte → State → State) (s : State) : State :=
    match partOf bank m k with
    | none => s
    | some (e, b) => measExtend 2 2 siteKH k e.version e.hash (f b s)
  let s := put 8 loadThermal (put 7 loadConfig s)
  if (partOf bank m 9).isSome then put 9 (fun b => loadGuest (some b)) s else loadGuest none s

/-- The role that the settings record holds (R419, R438). -/
def roleFromSettings (s : State) : State :=
  let x := s.upd.flash.settings
  if x.role = 0 ∧ x.podId = 0 ∧ x.pkgId = 0 then s
  else { s with pod := { s.pod with role := x.role, podId := BitVec.ofNat 16 x.podId, pkgId := BitVec.ofNat 16 x.pkgId, pkgValid := true
                                    managerPkg := BitVec.ofNat 16 x.managerPkg, standbyPkg := BitVec.ofNat 16 x.standbyPkg
                                    lastHeartbeat := some s.now } }

/-- The start on a bank (R469): true where every part starts and passes its checks. -/
def startOn (f : StartFind) (bank : Nat) (m : Manifest) (s : State) : Bool × State :=
  let part := s.pkg.part
  let s := rbAdvance m.rb f.fuseWriteFails s
  let s := { s with
    pkg := { s.pkg with power := 0, recovery := false, present := sitesOf part, heldOut := [], defCal := calDefaults s f.calBad, recFault := none }
    mp := { s.mp with running := true, standbyOk := true, standbyReset := false, hbAat := s.now, hbBat := s.now }
    mp2 := { s.mp2 with standbySince := some s.now, ctrlSeen := (sitesOf part).map (fun x => (x, s.now)) }
    pwr := { s.pwr with budget := tdp part, dividedAt := some s.now }
    upd := { s.upd with version := m.version, keyIndex := m.key, rbEpoch := m.rb } }
  let s := applyParts (bankOf s bank) m s
  let s := roleFromSettings (readSettings (Config.settingsFormat m.version) s)
  let s := startPorts f.portsBad (startHbm f.hbmBad (startPhotonics f (startClocks f.silent s)))
  let dies := (sitesOf part).filter (fun x => x != siteKH && x != siteLH)
  let s := ([siteKH, siteLH] ++ dies).foldl (identCheck f.calBad) s
  let s := if part = 2 then ((List.range 9).map (fun i => siteKC (i + 3)) ++ [siteLT 1, siteLT 2, siteLT 3]).foldl strayCheck s else s
  let s := (f.silent.filter (fun x => dies.contains x)).foldl (fun s x =>
    if x < 0x40 then fenceStack (x - 0x20) 6 s else fenceTile (x - 0x40) 6 s) s
  let s := measureStart m f.silent s
  let s := ((List.range (stacksOf part)).filter (stackUp s)).foldl (fun s n => marginLoad n s) s
  let good := dies.all (fun x => (identFails s x).isNone && !f.silent.contains x)
  (good, recompute s)

/-- The end of a start: reports of the trips and of a recovery. -/
def startDone (s : State) : State :=
  let s := reportTrips s
  match s.pkg.recReport with
  | none => s
  | some c => emitMp Ev.recoveryEntered [c, s.upd.version] { s with pkg := { s.pkg with recReport := none } }

/-- The ROM starts: the part is read from the KH block, and the measurement log is empty (R424, R440). -/
def romBegins (s : State) : State :=
  { s with pkg := { s.pkg with part := if bitsN (fuseBlock s siteKH) 24 8 = 2 then 2 else 1 }
           upd := { s.upd with meas := [], log := [], logOverflow := false } }

/-- A start from OFF (R428, R429, R440, R469), which follows at most `fuel` times where a rolling activation reverts or the SD card mends the banks.
Where R28 refuses it, the code of the failed check and its site belong in the health summary, whose registers have no field for them (R347): the model
keeps them as `recFault` beside the recovery cause, and reports them by the check's event too (DESIGN CHOICE, log 37). -/
def startPkg (fuel : Nat) (f : StartFind) (s : State) : State :=
  match fuel with
  | 0 => s
  | fuel + 1 =>
    let s0 := s
    let s := romBegins s
    let part := s.pkg.part
    if !f.flashGood then enterRecovery 1 { s with pkg := { s.pkg with flashBad := true } }
    else
      -- the ROM tries the card once; the package does not start where R28 holds it
      let card (cause : Nat) (s : State) : State :=
        let s := enterRecovery cause s
        match f.sdImage with
        | none => s
        | some img => match installImage img s with
          | (.inr _, s) => s
          | (.inl _, s) =>
            if cause = 0 then s
            else startPkg fuel { f with sdImage := none, selfFail := false }
              { s0 with fuses := s.fuses, out := s.out, fresh := s.fresh, upd := { s0.upd with flash := s.upd.flash, bankActive := s.upd.bankActive }
                        pkg := { s0.pkg with recReport := some cause } }
      match hubFault s with
      | some (site, n) => card 0 (emitMp (identEvent n) [site] { s with pkg := { s.pkg with recFault := some (site, n) } })
      | none =>
        match romBank s with
        | (none, s) => card 1 s
        | (some (b, m), s) =>
          if f.selfFail then card 2 s
          else
            let rolling := ((governing s).map (·.2.rolling)).getD false
            let prev := ((governing s).map (·.2.prev)).getD 0
            let (good, s) := startOn f b m s
            if !rolling then startDone s
            else if good then startDone (emitMp Ev.updActivated [prev, m.version] (writeSel b false prev s))
            else
              let bad := ((sitesOf part).find? (fun x => (identFails s x).isSome || f.silent.contains x)).getD siteKH
              let s1 := writeSel (1 - b) false m.version s
              let s1 := { s0 with fuses := s1.fuses, out := s1.out, fresh := s1.fresh
                                  upd := { s0.upd with flash := s1.upd.flash, bankActive := 1 - b } }
              emitMp Ev.updReverted [prev, bad, unitKind bad] (startPkg fuel f s1)

/-- The strap lands sampled at the start moment (R468). -/
def strapped (testmode a1 a0 : Bool) (s : State) : State :=
  { s with pins := { s.pins with pwrgd := true, hwrst := false, testmode := testmode, smbAddr1 := a1, smbAddr0 := a0
                                 smbAddr := 0x48 + 2 * b2n a1 + b2n a0, testSampled := testmode } }

/-- PACKAGE_START (R467 to R469): the start moment; `testmode`, `a1` and `a0` are the strap lands. While a latch holds, the package stays in
OFF; in production test mode it does not start (R460). -/
def packageStartEff (testmode a1 a0 : Bool) (f : StartFind) (s : State) : State :=
  if !s.aon.up || s.pkg.power != 3 then s
  else
    let s := strapped testmode a1 a0 s
    if s.aon.holdOff || testmode then s else startPkg 3 f s

/-! ## Recovery commands (R440) -/

/-- The image of the mailbox: `n` bytes, those not written erased. -/
def putImage (img : List Byte) (off : Nat) (d : List Byte) : List Byte :=
  let img := if img.length < off then img ++ List.replicate (off - img.length) 0xFF#8 else img
  img.take off ++ d ++ img.drop (off + d.length)

/-- RCV_BEGIN. -/
def rcvBeginEff (r : Req) : State → State := runCmd 0x0D00 r (fun s _ =>
  let n := argN r 0
  if n = 0 ∨ 50331648 < n then .bad stBadArg 0 else .ok { s with upd := { s.upd with rcvLen := some n, rcvImage := [] } } [])

/-- RCV_DATA. -/
def rcvDataEff (r : Req) : State → State := runCmd 0x0D01 r (fun s _ =>
  let off := argN r 0
  let n := argN r 1 % 64
  if n = 0 ∨ 44 < n then .bad stBadArg 1
  else match s.upd.rcvLen with
  | none => .bad stState 0
  | some len =>
    if len < off + n then .bad stBadArg 0
    else
      let d := ((List.range 11).flatMap (fun i => leBytes 4 (argN r (2 + i)))).take n
      .ok { s with upd := { s.upd with rcvImage := putImage s.upd.rcvImage off d } } [])

/-- The package restarts from the bank installed; the answer stands in the mailbox (R440). -/
def restartAfter (f : StartFind) (s : State) : State :=
  if s.upd.rcvFuse then s
  else
    let k := s.pkg.recCause
    let o := enterOff false s
    let o := { o with aon := s.aon, pkg := { o.pkg with recReport := some k } }
    let t := startPkg 3 { f with sdImage := none } o
    { t with hp := { t.hp with m2hMw := s.hp.m2hMw, m2hFull := s.hp.m2hFull, m2hWait := s.hp.m2hWait }
             hl := { t.hl with linkUp := s.hl.linkUp, rated := s.hl.rated } }

/-- An installation answered, and then the restart. -/
def rcvInstall (op : Nat) (r : Req) (img : Option (List Byte)) (f : StartFind) (s : State) : State :=
  let was := s.pkg.recovery
  let okNow (s : State) : Option Nat := match img with
    | none => none
    | some b => match installImage b s with
      | (.inl v, _) => some v
      | (.inr _, _) => none
  let go := (firstCheck s op r).isNone && (okNow s).isSome && s.mp.running && was
  let s := runCmd op r (fun s _ => match img with
    | none => .bad stFailed 0x10
    | some b => match installImage b s with
      | (.inl v, s) => .ok s [BitVec.ofNat 32 v]
      | (.inr d, s) => .fail s stFailed d) s
  if go then restartAfter f s else s

/-- RCV_END: the image written by mailbox. -/
def rcvEndEff (r : Req) (f : StartFind) (s : State) : State :=
  let n := s.upd.rcvLen.getD 0
  let img := (s.upd.rcvImage ++ List.replicate (n - s.upd.rcvImage.length) 0xFF#8).take n
  rcvInstall 0x0D02 r (some img) f s

/-- RCV_FROM_SD: the image of the card. -/
def rcvFromSdEff (r : Req) (f : StartFind) (s : State) : State := rcvInstall 0x0D03 r f.sdImage f s

end Sys2Proof.Machine
end

