-- ==== Sys2Proof/Machine/Attest.lean ====
section
/-! DEFINITION. Attest.lean: the attestation report (spec/15 R441 to R443). -/
namespace Sys2Proof.Machine

/-- FLAGS of the report. -/
def attestFlags (s : State) : Nat :=
  let rolling := match governing s with
    | some (_, x) => x.rolling
    | none => false
  b2n s.upd.flash.settings.lock + 2 * b2n rolling + 4 * b2n (decide (healthState s = 2)) + 8 * b2n (s.guest.ctl.getLsbD 11)
    + 16 * b2n s.upd.logOverflow

/-- SHA-256 of the active manifest. -/
def activeManifestHash (s : State) : List Byte :=
  match parseManifest (bankOf s s.upd.bankActive) (kcRevs s) with
  | some m => sha256 (manifestBytes m)
  | none => List.replicate 32 0

/-- Every byte of the report before SIGNATURE. -/
def attestBody (nonce : List Byte) (s : State) : List Byte :=
  let w := (mget s.fuses.blocks 0 siteKH).toNat
  leBytes 4 0x5454414B ++ leBytes 2 1 ++ leBytes 1 s.pkg.part ++ leBytes 1 (revOf s siteKH) ++ leBytes 8 (w / 2 ^ 192) ++ fitBytes 32 nonce
    ++ leBytes 8 (hubGtc s).toNat ++ leBytes 4 s.upd.version ++ leBytes 1 (rbCount s) ++ leBytes 1 (attestFlags s)
    ++ leBytes 2 s.upd.log.length ++ fitBytes 32 (activeManifestHash s) ++ (List.range 4).flatMap (fun i => fitBytes 32 (measReg s i))
    ++ fitBytes 32 Config.identityPk ++ s.upd.log.flatMap (fitBytes 48) ++ fitBytes 7920 s.upd.flash.cert

/-- The report's size. -/
def attestSize (s : State) : Nat := 16032 + 48 * s.upd.log.length

/-- ATTEST (R443, R486). -/
def attestEff (r : Req) : State → State := runCmd 0x0C03 r (fun s _ =>
  let nonce := (r.args.take 8).flatMap (fun w => leBytes 4 w.toNat)
  let a := addrArg r 8
  if argN r 10 < attestSize s then .bad stBadArg 10
  else if !inHbm s.pkg.part a (attestSize s) then .bad stBadArg 8
  else
    let body := attestBody nonce s
    match bufWrite a (body ++ fitBytes 7856 (Config.identitySign body)) s with
    | (some d, s) => .fail s stFailed d
    | (none, s) => .ok s [BitVec.ofNat 32 (attestSize s)])

end Sys2Proof.Machine
end

