-- ==== Sys2Proof/Machine/Bar2.lean ====
section
/-! DEFINITION. Bar2.lean: the host's window onto HBM4 (spec/11 R331, R332). -/
namespace Sys2Proof.Machine

/-- An access of `n` bytes at an offset lies in the window, and the link is up. -/
def bar2Hit (s : State) (x n : Nat) : Bool := s.hl.linkUp && s.pkg.power != 3 && decide (0 < n ∧ x + n ≤ 2 ^ s.hl.bar2Log)
/-- HBM4 is powered: not in DEEP (spec/13 R387), and the package started. -/
def hbmServes (s : State) : Bool := decide (s.pkg.power ≤ 1) && !s.pkg.starting && !s.pkg.recovery
/-- What the host is sent for a line (log 16): 1 Completer Abort logged, 2 data, 3 data with EP, 4 Completer Abort, 5 Unsupported Request,
6 Unsupported Request logged. -/
def toPcie (kind a : Nat) (bs : List Byte) (s : State) : State := send (.pcie kind a bs) s

/-- One line of a host read: the bytes of it from `lo` to below `hi`. -/
def bar2Line (l lo hi : Nat) (fs : List LineFind) (s : State) : State :=
  let cut (bs : List Byte) : List Byte := (bs.drop (lo - l)).take (hi - lo)
  if !hbmServes s || lineCut s 12 l then toPcie 4 lo [] s
  else match dpaOf s.pkg.part l with
    | .hbm =>
      let (o, s) := readLine l fs s
      (match o with
       | .data bs => toPcie 2 lo (cut bs) s
       | .poison bs => toPcie 3 lo (cut bs) s
       | .fenced => toPcie 4 lo [] s)
    | _ => toPcie 5 lo [] s

/-- BAR2_READ (R331): `n` bytes at an offset, each line taken alone. -/
def bar2ReadEff (x n : Nat) (fs : List LineFind) (s : State) : State :=
  if !bar2Hit s x n then s
  else
    let a := s.hl.bar2Base.toNat + x
    (linesOf a n).foldl (fun s l => bar2Line l (max a l) (min (a + n) (l + 64)) fs s) s

/-- One line of a host write, or part of it. -/
def bar2Put (a : Nat) (bs : List Byte) (ep : Bool) (fs : List LineFind) (s : State) : State :=
  if !hbmServes s || lineCut s 12 a then toPcie 1 a [] s
  else match dpaOf s.pkg.part a with
    | .hbm =>
      let (ok, s) := if bs.length = 64 ∧ a % 64 = 0 then writeLine a bs ep s
        else
          let (ok, s) := writePart a bs fs s
          (ok, if ep && ok then setMem s (setPoison s.mem.m a) else s)
      if ok then s else toPcie 1 a [] s
    | _ => toPcie 6 a [] s

/-- BAR2_WRITE (R331): bytes at an offset, each line taken alone; a TLP with EP writes its lines as poison. -/
def bar2WriteEff (x : Nat) (bs : List Byte) (ep : Bool) (fs : List LineFind) (s : State) : State :=
  if !bar2Hit s x bs.length then s
  else (pieces (s.hl.bar2Base.toNat + x) bs 0).foldl (fun s q => bar2Put q.1 q.2.1 ep fs s) s

end Sys2Proof.Machine
end

