-- ==== Sys2Proof/Machine/Plans.lean ====
section
/-! DEFINITION. Plans.lean: partitions and their plans: forming, loading, starting, stopping and the plan boundary (spec/02 R44 to R52, R77,
R79, R491; spec/08 R250; spec/12 R368, R369, R371; spec/16 R456). -/
namespace Sys2Proof.Machine

/-! ## Partitions (spec/12 R368) -/

/-- A kind of test that is die-granular (spec/16 R453). -/
def dieGranular (k : Nat) : Bool := decide (0x10 ≤ k ∧ k ≤ 0x12)
/-- A die-granular test holds a stack of the mask (spec/16 R456). -/
def testHolds (s : State) (stackSet : Nat) : Bool :=
  s.obs.tests.any (fun t => dieGranular t.kind && decide (t.site < 0x40) && bitN stackSet (t.site - 0x20))

/-- The plan may be changed: NONE or LOADED (R49). -/
def planIdle (p : Part) : Bool := decide (p.plan ≤ 1)

/-- A partition named by a command: a number that no partition can have is BAD_ARG (R77), one that has not been formed NOT_FOUND. -/
def withPart (s : State) (pt : Nat) (f : Part → CmdOut) : CmdOut :=
  if stacksOf s.pkg.part ≤ pt then .bad stBadArg 0
  else match part s pt with
    | none => .bad stNotFound 0
    | some p => f p

/-- The same, of a command whose other arguments are checked first: `bad` is the first of them out of range (R359). -/
def withPartArgs (s : State) (pt : Nat) (bad : Option Nat) (f : Part → CmdOut) : CmdOut :=
  match bad with
  | some i => .bad stBadArg (if stacksOf s.pkg.part ≤ pt then 0 else i)
  | none => withPart s pt f

/-- A die that has not made its step carries no plan (spec/07 R223). -/
def unstepped (s : State) (p : Part) : Bool := (partStacks p).any (fun n => !(dieClk s (siteKC n)).stepped)

/-- PART_FORM (R368, R371, R374). A stack whose die has not made its step is not in service (spec/07 R223). -/
def partFormEff (r : Req) : State → State := runCmd 0x0100 r (fun s _ =>
  let pt := argN r 0
  let st := bitsN (argN r 1) 0 12
  let mode := bitsN (argN r 1) 16 4
  let owner := bitsN (argN r 1) 20 2
  if stacksOf s.pkg.part ≤ pt then .bad stBadArg 0
  else if mode < 1 ∨ 4 < mode ∨ owner = 3 ∨ st = 0 then .bad stBadArg 1
  else if (onesOf 12 st).any (fun n => siteAbsent s (siteKC n)) then .bad stAbsent 0
  else if (part s pt).isSome || (onesOf 12 st).any (fun n => (partOfStack s n).isSome || !stackUp s n || !(dieClk s (siteKC n)).stepped) then .bad stState 0
  else if testHolds s st then .bad stBusy 0
  else
    let s := setPart s pt { stackSet := st, mode := mode, owner := owner }
    .ok (jobBoundary pt (setOverlay pt 0 mode s)) [])

/-- PART_DISSOLVE (R368). Its overlay's items return to their base values. Hub queues assigned to the partition keep its number, so that a partition formed
under it again is served without HQ_ASSIGN (DESIGN CHOICE, log 45: R77 and R368 do not say what becomes of them). -/
def partDissolveEff (r : Req) : State → State := runCmd 0x0101 r (fun s _ =>
  let pt := argN r 0
  withPart s pt (fun p =>
    if holdsJob s pt || !planIdle p then .bad stState 0
    else
      let s := detachAll p (setOverlay pt p.mode 0 s)
      .ok (recompute { s with parts := mdel s.parts pt, jobs := mdel s.jobs pt }) []))

/-- PART_WINDOW (R125, R368): held for the job boundary. -/
def partWindowEff (r : Req) : State → State := runCmd 0x0102 r (fun s _ =>
  let a0 := argN r 0
  let pt := bitsN a0 0 4
  let w := bitsN a0 8 4
  let base := addrArg r 1
  let len := addrArg r 3
  let al := 2 ^ 21
  withPartArgs s pt (if bitN a0 18 then none else if base % al ≠ 0 then some 1 else if len % al ≠ 0 then some 3 else none) (fun p =>
    if bitN a0 18 then .ok (setPart s pt { p with heldWins := p.heldWins ++ [(w, none)] }) []
    else .ok (setPart s pt { p with heldWins := p.heldWins ++
      [(w, some { base := base, len := len, rd := bitN a0 16, wr := bitN a0 17 })] }) []))

/-- PART_OVERLAY (R368, R374): held for the job boundary. -/
def partOverlayEff (r : Req) : State → State := runCmd 0x0103 r (fun s _ =>
  let pt := bitsN (argN r 0) 0 4
  let mode := bitsN (argN r 0) 16 4
  withPartArgs s pt (if mode < 1 ∨ 4 < mode then some 0 else none) (fun p =>
    .ok (setPart s pt { p with heldOverlay := some mode }) []))

/-- PART_STALEMATE (spec/08 R262; R368): held for the job boundary. -/
def partStalemateEff (r : Req) : State → State := runCmd 0x0104 r (fun s _ =>
  let pt := argN r 0
  match cfgWrite true 8 pt (argN r 1) 2 s with
  | .done t _ => withPart s pt (fun _ => .ok t [])
  | _ => withPartArgs s pt (some 1) (fun _ => .bad stBadArg 1))

/-- PART_APPLY (R371): a job boundary of a partition that holds no job. -/
def partApplyEff (r : Req) : State → State := runCmd 0x0105 r (fun s _ =>
  let pt := argN r 0
  withPart s pt (fun p => if holdsJob s pt || !planIdle p then .bad stState 0 else .ok (jobBoundary pt s) []))

/-- PART_REPORT (R368; R81). A fenced stack that is still in its partition counts its cores here, though the health summary leaves it out (DESIGN CHOICE, log 45: R81 names
both and does not speak of a fenced stack). -/
def partReportEff (r : Req) : State → State := runCmd 0x0106 r (fun s _ =>
  let pt := argN r 0
  withPart s pt (fun p =>
    let n := 96 * (partStacks p).length - (s.cores.absent.filter (fun c => bitN p.stackSet (coreStack c))).length
    let j := job s pt
    .ok s ([p.stackSet + p.mode * 2 ^ 12 + p.plan * 2 ^ 16 + j.state * 2 ^ 19 + p.run.toNat * 2 ^ 24, n, j.id].map (BitVec.ofNat 32))))

/-! ## Loading (R44 to R48, R369) -/

/-- A core-table entry (R45) in a partition: its core, where the index is below the plan's stack count, its words, its offset,
and whether a reserved bit or field is set or core 12 to 15 is named. -/
structure PEnt where
  core : Option Nat
  words : Nat
  off : Nat
  bad : Bool
  deriving DecidableEq, Repr

def parseEnt (p : Part) (stackSet : Nat) (b : List Byte) : PEnt :=
  let w := fieldAt b 0 2
  let res := decide (w / 2 ^ 12 ≠ 0 ∨ bitN w 4 = true ∨ 11 < w % 16 ∨ fieldAt b 4 4 ≠ 0 ∨ stackSet ≤ bitsN w 8 4)
  { core := if res then none else coreOfField p w, words := fieldAt b 2 2, off := fieldAt b 8 8, bad := res }

/-- The lowest number of a list. -/
def lowest (l : List Nat) : Option Nat := match l with
  | [] => none
  | a :: r => some (r.foldl min a)

/-- One refusal where it applies. -/
def refuseIf (b : Bool) (d : Nat) : List Nat := if b then [d] else []

/-- The refusals that the header alone shows (R369). -/
def headRefusals (s : State) (p : Part) (a : Nat) (h : List Byte) : List Nat :=
  let flags := fieldAt h 6 2
  let stackSet := fieldAt h 8 1
  let mode := fieldAt h 9 1
  let n := fieldAt h 10 2
  let tab := fieldAt h 16 8
  let len := fieldAt h 24 8
  refuseIf (fieldAt h 0 4 != 0x4E414C50 || fieldAt h 4 2 != 1 || decide (4 ≤ flags) || fieldAt h 12 4 != 0) 1
    ++ refuseIf (stackSet != (partStacks p).length) 3
    ++ refuseIf (decide (4 < mode) || (mode != 0 && mode != p.mode)) 4
    ++ refuseIf (decide (len < 64 ∨ tab < 64 ∨ len < tab + 16 * n) || !inHbm s.pkg.part a len) 9
    ++ refuseIf (n == 0 || decide (96 * stackSet < n)) 11
    ++ refuseIf (tab % 8 != 0) 12

/-- Two entries name one core. -/
def twice (l : List Nat) : Bool := match l with
  | [] => false
  | a :: r => r.contains a || twice r

/-- The refusals that the core table shows (R369). -/
def tableRefusals (s : State) (len : Nat) (es : List PEnt) : List Nat :=
  refuseIf (es.any (·.bad)) 5
    ++ refuseIf (es.any (fun e => e.core.any (fun c => s.cores.absent.contains c))) 6
    ++ refuseIf (twice (es.filterMap (·.core))) 7
    ++ refuseIf (es.any (fun e => e.words == 0 || decide (8192 < e.words))) 8
    ++ refuseIf (es.any (fun e => decide (e.off < 64 ∨ len < e.off + 8 * e.words))) 9
    ++ refuseIf (es.any (fun e => e.off % 8 != 0)) 12

/-- Bytes of a plan, or the refusal 0x0D where a line that the loader reads is poisoned or fenced. -/
def planBytes (a n : Nat) (fs : List LineFind) (s : State) : Option (List Byte) × State :=
  match bufRead a n fs s with
  | (.data bs, s) => (some bs, s)
  | (.bad _, s) => (none, s)

/-- What the loader finds: the lowest refusal, or the plan's FLAGS and its cores with the schedule of each. -/
def planFind (p : Part) (a : Nat) (fs : List LineFind) (s : State) : (Nat ⊕ (Nat × List (Nat × List Byte))) × State :=
  let st := refuseIf (!planIdle p) 10
  if !inHbm s.pkg.part a 64 then (.inl ((lowest (9 :: st)).getD 9), s)
  else match planBytes a 64 fs s with
    | (none, s) => (.inl ((lowest (13 :: st)).getD 13), s)
    | (some h, s) =>
      let n := fieldAt h 10 2
      let tab := fieldAt h 16 8
      let len := fieldAt h 24 8
      let hr := headRefusals s p a h ++ st
      -- the hash (R44)
      let (hs, s) : List Nat × State := if bitN (fieldAt h 6 2) 1 && decide (64 ≤ len) && inHbm s.pkg.part a len then
          match planBytes (a + 64) (len - 64) fs s with
          | (none, s) => ([13], s)
          | (some bs, s) => (refuseIf (sha256 bs != h.drop 32) 2, s)
        else ([], s)
      if !inHbm s.pkg.part (a + tab) (16 * n) then (.inl ((lowest (9 :: hs ++ hr)).getD 9), s)
      else
        match planBytes (a + tab) (16 * n) fs s with
        | (none, s) => (.inl ((lowest (13 :: hs ++ hr)).getD 13), s)
        | (some tb, s) =>
          let es := (chunks n 16 tb).map (parseEnt p (fieldAt h 8 1))
          match lowest (hr ++ hs ++ tableRefusals s len es) with
          | some d => (.inl d, s)
          | none =>
            let x := es.foldl (fun (x : Option (List (Nat × List Byte)) × State) e =>
              match x.1, e.core with
              | some l, some c =>
                (match planBytes (a + e.off) (8 * e.words) fs x.2 with
                  | (some bs, s) => (some (l ++ [(c, bs)]), s)
                  | (none, s) => (none, s))
              | _, _ => (none, x.2)) (some [], s)
            match x.1 with
            | none => (.inl 13, x.2)
            | some l => (.inr (fieldAt h 6 2, l), x.2)

/-- CORE_ID of a logical core (R74). -/
def coreIdOf (s : State) (c : Nat) : BitVec 64 :=
  let p := physOf s c
  BitVec.ofNat 64 (coreCluster p % 8 * 2 ^ 17 + coreK p * 2 ^ 13 + (if p = c then 0 else 2 ^ 12) + coreStack c * 2 ^ 8 + coreCluster c % 8 * 2 ^ 5
    + coreK c)

/-- A schedule placed at the top of its core's scratch (R47). -/
def placeSchedule (s : State) (q : Nat × List Byte) : State :=
  let k := coreAt s q.1
  let s := setMem s (writeBs s.mem.m (scrBase q.1 + 524288 - q.2.length) q.2)
  setCore s q.1 { k with words := q.2.length / 8, coreId := coreIdOf s q.1, cond := .idle, wait := .none }

/-- PLAN_LOAD (R48, R369, R486). -/
def planLoadEff (r : Req) (fs : List LineFind) : State → State := runCmd 0x0110 r (fun s _ =>
  let pt := argN r 0
  withPart s pt (fun p =>
    if testHolds s p.stackSet then .bad stBusy 0
    else match planFind p (addrArg r 1) fs s with
      | (.inl d, s) => .fail s (if d = 10 then stState else stBadArg) d
      | (.inr (flags, l), s) =>
        let s := p.named.foldl (fun s q => modCore q.1 (fun k => { k with words := 0 }) s) s
        let s := l.foldl placeSchedule s
        let nm := l.foldl (fun m q => mset m q.1 (q.2.length / 8)) []
        .ok (setPart s pt { p with plan := 1, named := nm, resetCtx := bitN flags 0, left := false, runs := none }) []))

/-! ## Starting and stopping (R49 to R52) -/

/-- The cycle in which the named cores of a cluster begin to issue (R52). -/
def startCycle (s : State) (p : Part) (cl : Nat) : Nat :=
  (p.named.filter (fun q => coreCluster q.1 == cl)).foldl (fun m q => max m (issueCycle s q.1)) 0

/-- One run of a loaded plan starts (R52, R76; spec/08 R250, R258). -/
def startRun (pt : Nat) (runs : Option Nat) (s : State) : State :=
  match part s pt with
  | none => s
  | some p =>
    let s0 := s
    let s := p.named.foldl (fun s q =>
      let t := startCycle s0 p (coreCluster q.1)
      modCore q.1 (fun k =>
        let x : Ctx := if p.resetCtx then {} else k.ctx
        { k with
          ctx := { x with pc := 0, slots := mmap x.slots (fun _ w => putField w 0 14 0) }
          planCyc0 := BitVec.ofNat 64 t, nextCyc := t, cond := .issuing, wait := .none })
        (reachRood (coreSite q.1) (coreCluster q.1 % 8) t s)) s
    let s := clearCombs pt false s
    let s := setPart s pt { p with plan := 2, runs := runs, run := p.run + 1, saturated := [], abortCause := 0 }
    if pt = enginePart s ∧ s.eng.cleared = true then { s with eng := { s.eng with started := true } } else s

/-- PLAN_START (R368). -/
def planStartEff (r : Req) : State → State := runCmd 0x0111 r (fun s _ =>
  let pt := argN r 0
  withPart s pt (fun p =>
    if p.plan ≠ 1 ∨ unstepped s p = true then .bad stState 0
    else if testHolds s p.stackSet then .bad stBusy 0
    else .ok (startRun pt (if argN r 1 = 0 then none else some (argN r 1)) s) []))

/-- PLAN_STOP (R51, R368): OK with no effect when not RUNNING. -/
def planStopEff (r : Req) : State → State := runCmd 0x0112 r (fun s _ =>
  if stacksOf s.pkg.part ≤ argN r 0 then .bad stBadArg 0 else .ok (stopPlan (argN r 0) s) [])

/-- PLAN_UNLOAD (R368). -/
def planUnloadEff (r : Req) : State → State := runCmd 0x0113 r (fun s _ =>
  let pt := argN r 0
  withPart s pt (fun p =>
    if p.plan ≠ 1 then .bad stState 0
    else
      let s := p.named.foldl (fun s q => modCore q.1 (fun k => { k with words := 0 }) s) s
      .ok (setPart s pt { p with plan := 0, named := [], runs := none }) []))

/-! ## The plan boundary (R50, R79, R80) -/

/-- A planned retirement carried out (R80): context, scratch and slice go to the spare with the position, which keeps its name.
`f` is what the test of the spare's channel finds. CORE_ID of a loaded plan follows the core that holds the position (R78). -/
def retireNow (c t : Nat) (f : LaneFind) (s : State) : State :=
  let sp := spareOf c
  let s := if s.cores.absent.contains c then s else testSpare f sp s
  if isFenced s sp || spareUsed s sp || s.cores.absent.contains c then finishTicket t stRefused 0 [] s
  else
    let s := { s with cores := { s.cores with phys := mset s.cores.phys c sp } }
    let s := modCore c (fun k => { k with coreId := if k.words = 0 then k.coreId else coreIdOf s c })
      { s with mem := { s.mem with lastBad := mdel s.mem.lastBad c } }
    finishTicket t stOK 0 [BitVec.ofNat 32 (coreK sp)] (emit (coreSite c) Ev.coreSpared [wordOfCore c, wordOfCore sp] s)

/-- Every token of the named cores has left PENDING (R50), and every remote post of theirs is delivered (spec/08 R248). A descriptor that a
plan has posted holds its token until it completes. -/
def tokensSettled (s : State) (p : Part) : Bool :=
  p.named.all (fun q => (coreAt s q.1).tokens.all (fun t => t.2 != .pending) && !s.sync.posts.any (fun x => x.src == q.1))

/-- PLAN_BOUNDARY: a partition in ENDING or ABORTING enters LOADED (R50). `spares` holds what the tests of spares' channels
find (spec/04 R122). -/
def planBoundaryEff (pt : Nat) (spares : List (Nat × LaneFind)) (s : State) : State :=
  match part s pt with
  | none => s
  | some p =>
    if p.plan < 3 ∨ !tokensSettled s p then s
    else
      let more : Option (Option Nat) := if p.plan = 4 then none else match p.runs with
        | none => some none
        | some n => if 1 < n then some (some (n - 1)) else none
      let s := p.named.foldl (fun s q => landAll q.1 (modCore q.1 (fun k => { k with tokens := [], cond := .idle, wait := .none }) s)) s
      let s := setPart s pt { p with plan := if p.left then 0 else 1, named := if p.left then [] else p.named, runs := none, retire := [] }
      let s := (s.cores.toSpare.filter (fun c => coreParts s c == some pt)).foldl (fun s c => substitute (mget spares {} (spareOf c)) c s) s
      let s := p.retire.foldl (fun s q => retireNow q.1 q.2 (mget spares {} (spareOf q.1)) s) s
      match more, part s pt with
      | some rs, some q => if q.plan = 1 then startRun pt rs s else s
      | _, _ => s

end Sys2Proof.Machine
end

