-- ==== Sys2Proof/Machine/SyncRows.lean ====
section
/-! DEFINITION. SyncRows.lean: semaphore and barrier instructions, remote posts and the stalemate detector (spec/08 R244 to R252, R260
to R263). -/
namespace Sys2Proof.Machine

/-! ## Semaphores (R244 to R248) -/

def sinitEff (c : Nat) (w : BitVec 64) (s : State) : State :=
  issue c w (fun o => match o with
    | .sinit sem n => some (fun _ s => .next (setSem c sem n s))
    | _ => none) s

def spostEff (c : Nat) (w : BitVec 64) (s : State) : State :=
  issue c w (fun o => match o with
    | .spost sem n => some (fun _ s => .next (addSem c sem n s))
    | _ => none) s

def swaitEff (c : Nat) (w : BitVec 64) (s : State) : State :=
  issue c w (fun o => match o with
    | .swait sem n => some (fun _ s =>
        if n ≤ getSem s c sem then .next (setSem c sem (getSem s c sem - n) s) else .wait (.swait sem n) s)
    | _ => none) s

/-- SWAIT_RESUME: the count is at least N. -/
def swaitResumeEff (c : Nat) (s : State) : State :=
  match (coreAt s c).wait with
  | .swait sem n =>
    if n ≤ getSem s c sem then resume c (traceSync c sem (setSem c sem (getSem s c sem - n) s)) else s
  | _ => s

def stryEff (c : Nat) (w : BitVec 64) (s : State) : State :=
  issue c w (fun o => match o with
    | .stry d sem n => some (fun _ s =>
        if n ≤ getSem s c sem then .next (setG c d 1 (setSem c sem (getSem s c sem - n) s)) else .next (setG c d 0 s))
    | _ => none) s

def sreadEff (c : Nat) (w : BitVec 64) (s : State) : State :=
  issue c w (fun o => match o with
    | .sread d sem => some (fun _ s => .next (setG c d (BitVec.ofNat 64 (getSem s c sem)) s))
    | _ => none) s

/-- Remote posts of a core that are outstanding (R247). -/
def postsOf (s : State) (c : Nat) : Nat := (s.sync.posts.filter (fun p => p.src == c)).length

/-- A remote post sent; to a core of another die it leaves in a BARRIER packet on VC0 (R247, R258). -/
def sendPost (c target sem n : Nat) (s : State) : State :=
  let s := if coreStack c = coreStack target then s
    else match coreParts s c with
      | none => s
      | some pt => match part s pt with
        | none => s
        | some p =>
          send (.packet 6 (coreStack c) (coreStack target) 0 [0, pt] (barrierBytes 3 sem false false p.run (fieldOfCore p target) n none 0)) s
  crossCl (coreCluster c) true
    { s with sync := { s.sync with posts := s.sync.posts ++ [{ src := c, target := target, sem := sem, n := n, seq := s.cores.seq }] }
             cores := { s.cores with seq := s.cores.seq + 1 } }

def spostrEff (c : Nat) (w : BitVec 64) (s : State) : State :=
  issue c w (fun o => match o with
    | .spostr a sem n => some (fun _ s =>
        let g := (getG s c a).toNat
        -- bits outside the layout, and its reserved bits (R57)
        if 4095 < g ∨ bitN g 4 then .fault 1 s
        else match (coreParts s c).bind (part s) with
          | none => .fault 2 s
          | some p => match coreOfField p g with
            | none => .fault 2 s
            | some t =>
              if (mfind p.named t).isNone then .fault 2 s
              else if 8 ≤ postsOf s c then .wait (.spostr t sem n) s
              else .next (sendPost c t sem n s))
    | _ => none) s

/-- SPOSTR_RESUME: fewer than 8 posts are outstanding. -/
def spostrResumeEff (c : Nat) (s : State) : State :=
  match (coreAt s c).wait with
  | .spostr t sem n => if postsOf s c < 8 then resume c (sendPost c t sem n s) else s
  | _ => s

/-- POST: the oldest post of a core to a target is delivered, its earlier stores having committed (R247). -/
def postEff (src target : Nat) (s : State) : State :=
  match s.sync.posts.find? (fun p => p.src == src && p.target == target) with
  | none => s
  | some p =>
    let act (s : State) : State :=
      let s := crossCl (coreCluster target) false (flushStores src p.seq s)
      addSem target p.sem p.n { s with sync := { s.sync with posts := s.sync.posts.erase p } }
    -- from another die it comes in its BARRIER packet, in that packet's turn (R258)
    if coreStack src = coreStack target then act s
    else match (coreParts s src).bind (part s) with
      | none => act s
      | some q => asBarrier (coreStack src) (coreStack target) 3 p.sem false (fieldOfCore q target) p.n act s

/-! ## Barrier instructions (R251) -/

/-- What BCFG refuses as ILLEGAL_OP. -/
def bcfgBad (p : Part) (c : Nat) (v : BitVec 64) : Bool :=
  fld v 0 14 != 0
    || !bitN (slCmask v) (coreK c)
    || (decide (1 ≤ slScope v) && !bitN (slKmask v) (coreCluster c % 8))
    || (decide (2 ≤ slScope v) && !bitN (slDmask v) (relStack p (coreStack c)))
    || (decide (2 ≤ slScope v) && slDmask v / 2 ^ (partStacks p).length != 0)

def bcfgEff (c : Nat) (w : BitVec 64) (s : State) : State :=
  issue c w (fun o => match o with
    | .bcfg a slot => some (fun _ s =>
        let v := getG s c a
        match (coreParts s c).bind (part s) with
        | none => .fault 1 s
        | some p =>
          if bcfgBad p c v then .fault 1 s
          else
            let old := getSlot s c slot
            if slOut old = 0 then .next (setSlot c slot (putField old 14 50 (v.toNat / 2 ^ 14)) s) else .wait (.bcfg slot v) s)
    | _ => none) s

def barrEff (c : Nat) (w : BitVec 64) (s : State) : State :=
  issue c w (fun o => match o with
    | .barr slot => some (fun _ s =>
        let x := getSlot s c slot
        if slCmask x = 0 then .fault 1 s
        else if slOut x = 2 then .wait (.barr slot false) s
        else .next (coreArrive c slot s))
    | _ => none) s

def bwaitEff (c : Nat) (w : BitVec 64) (s : State) : State :=
  issue c w (fun o => match o with
    | .bwait slot => some (fun _ s => if slOut (getSlot s c slot) = 0 then .next s else .wait (.bwait slot) s)
    | _ => none) s

def barEff (c : Nat) (w : BitVec 64) (s : State) : State :=
  issue c w (fun o => match o with
    | .bar slot => some (fun _ s =>
        let x := getSlot s c slot
        if slCmask x = 0 then .fault 1 s
        else if slOut x = 2 then .wait (.barr slot true) s
        else .wait (.bar slot) (coreArrive c slot s))
    | _ => none) s

def bstatEff (c : Nat) (w : BitVec 64) (s : State) : State :=
  issue c w (fun o => match o with
    | .bstat d slot => some (fun _ s => .next (setG c d (getSlot s c slot) s))
    | _ => none) s

/-! ## The stalemate detector (R260 to R263) -/

/-- The named cores of a partition on a die, with their wait classes. -/
def dieClasses (s : State) (p : Part) (st : Nat) : List (Nat × Nat) :=
  (p.named.filter (fun q => q.1 / 128 == st)).map (fun q => (q.1, waitClass (coreAt s q.1)))

/-- The object that a core waits on, with its PLY or count (R263). -/
def waitObject (s : State) (c : Nat) : Nat × Nat :=
  match (coreAt s c).wait with
  | .swait n _ => (n, getSem s c n)
  | .bwait n | .bar n | .barr n _ | .bcfg n _ => (n, slPly (getSlot s c n))
  | .spostr t n _ => (n, getSem s t n)
  | _ => (absentArg, 0)

/-- The detector watches the partition, and its cores on a die all wait or have ended, one of them for another core (R261). -/
def staleHolds (s : State) (pt : Nat) (p : Part) (st : Nat) : Bool :=
  let cl := dieClasses s p st
  p.plan == 2 && bitN (cfgEff s 8 pt) 14 && !safeState s 5 pt && !p.named.any (fun q => waitClass (coreAt s q.1) == 9)
    && cl.all (fun q => decide (1 ≤ q.2 ∧ q.2 ≤ 8)) && cl.any (fun q => decide (1 ≤ q.2 ∧ q.2 ≤ 5))

/-- What changes where the cores of a partition on a die make progress (R261): the tokens, semaphores and slots of each, the heads of the die's
descriptor queues, and the count of what has reached its cores. -/
def staleMarks (s : State) (p : Part) (st : Nat) :
    List (Map Token × Map (BitVec 16) × Map (BitVec 64)) × Map (List QDesc) × Map (Nat × Nat) × List Nat × Nat :=
  let e := mget s.fab.dies {} st
  (((p.named.filter (fun q => q.1 / 128 == st)).map (fun q => let k := coreAt s q.1; (k.tokens, k.ctx.sems, k.ctx.slots))), e.queues, e.cur,
    (s.fab.descs.filter (fun q => q.2.src == st)).map (fun q => q.2.done), mget s.sync.moved 0 st)

/-- The time from which the conditions of a stalemate have held without a break, between the state before a command and the state after it. -/
def staleWatch (a s : State) : State :=
  let quiet := s.parts.foldl (fun m q => (partStacks q.2).foldl (fun m st =>
    let k := q.1 * 16 + st
    if staleHolds s q.1 q.2 st = false then mdel m k
    else
      let same := match part a q.1 with
        | none => false
        | some p => staleMarks a p st == staleMarks s q.2 st
      if (mfind m k).isSome && same then m else mset m k (gtcOf s (siteKC st)).toNat) m) s.sync.quiet
  { s with sync := { s.sync with quiet := quiet } }

/-- STALEMATE: the window of a partition on a die has passed without progress, by the die's GTC (R261). A die that has reported and whose cores have
not left their classes reports nothing. -/
def stalemateEff (pt st : Nat) (s : State) : State :=
  match part s pt, mfind s.sync.quiet (pt * 16 + st) with
  | some p, some g =>
    let cfg := cfgEff s 8 pt
    let cl := dieClasses s p st
    if staleHolds s pt p st = false ∨ (gtcOf s (siteKC st)).toNat < g + cfg % 2 ^ 14 * 16000000 ∨ (mfind s.sync.stale (pt * 16 + st)).isSome = true then s
    else
      let low := (cl.find? (fun q => decide (1 ≤ q.2 ∧ q.2 ≤ 5))).getD (0, 0)
      let ob := waitObject s low.1
      let counts := (List.range 8).map (fun i => (cl.filter (fun q => q.2 == i + 1)).length)
      emit (siteKC st) Ev.stalemate [pt, siteKC st, cfg % 2 ^ 14, listArg counts, wordOfCore low.1, low.2, pairArg ob.1 ob.2]
        { s with sync := { s.sync with stale := mset s.sync.stale (pt * 16 + st) { classes := cl } } }
  | _, _ => s

/-- Some named core of a reported die has left its class: STALEMATE_END at that moment (R261). -/
def staleEnd (s : State) : State :=
  s.sync.stale.foldl (fun s q =>
    let left := q.2.classes.find? (fun x => waitClass (coreAt s x.1) != x.2)
    match left with
    | none => s
    | some x => emit (siteKC (q.1 % 16)) Ev.stalemateEnd [q.1 / 16, siteKC (q.1 % 16), wordOfCore x.1]
        { s with sync := { s.sync with stale := mdel s.sync.stale q.1 } }) s

end Sys2Proof.Machine
end

