-- ==== Sys2Proof/Machine/CtxCmd.lean ====
section
/-! DEFINITION. CtxCmd.lean: contexts, retirement, synchronisation objects, debuggers, pips and hub queues by command (spec/02 R75, R76, R80;
spec/08 R259; spec/11 R341 to R343; spec/12 R368, R486; spec/16 R449). -/
namespace Sys2Proof.Machine

/-! ## Naming a core (R368) -/

/-- A CORE word names no core 0 to 11 of a stack 0 to 11. -/
def coreBad (w : Nat) : Bool := decide (11 < cwCore w) || decide (12 ≤ cwStack w)

/-- A core named by a CORE word: core 0 to 11 and a stack of the part, else BAD_ARG; a position that is not in service is ABSENT. -/
def withCore (s : State) (i w : Nat) (f : Nat → CmdOut) : CmdOut :=
  if coreBad w then .bad stBadArg i
  else if stacksOf s.pkg.part ≤ cwStack w || !stackUp s (cwStack w) || s.cores.absent.contains (cwNum w) then .bad stAbsent 0
  else f (cwNum w)

/-- The same, of a command whose later arguments are checked first: `bad` is the first of them out of range (R359). -/
def withCoreArgs (s : State) (i w : Nat) (bad : Option Nat) (f : Nat → CmdOut) : CmdOut :=
  match bad with
  | some j => .bad stBadArg (if coreBad w then i else j)
  | none => withCore s i w f

/-- The partition of a core's stack, if any, is NONE or LOADED (R75). -/
def coreIdle (s : State) (c : Nat) : Bool :=
  match (coreParts s c).bind (part s) with
  | none => true
  | some p => planIdle p

/-! ## The context (R75, R76) -/

/-- Bytes of a number of any width. -/
def ctxGs (x : Ctx) : List Byte := (List.range 32).flatMap (fun i => leBytes 8 (mget x.g 0 i).toNat)
def tileBytes (t : Tile) : List Byte := (List.range 128).flatMap (fun i => leBytes 16 (t.els.getD i 0).toNat)

/-- The context of a core in the layout of R75. -/
def ctxBytes (s : State) (c : Nat) : List Byte :=
  let k := coreAt s c
  let x := k.ctx
  leBytes 2 1 ++ leBytes 6 0 ++ leBytes 8 k.coreId.toNat ++ leBytes 8 (gtcOf s (coreSite c)).toNat ++ leBytes 8 (coreRood s c).cyc.toNat
    ++ leBytes 32 0 ++ ctxGs x ++ leBytes 8 x.pc.toNat ++ leBytes 8 x.flags.toNat ++ leBytes 8 x.seed.toNat ++ leBytes 16 x.ctr.toNat
    ++ leBytes 8 (maskOf ((List.range 8).filter (fun i => (mget x.tiles {} i).int))) ++ leBytes 16 0
    ++ (List.range 32).flatMap (fun i => leBytes 2 (mget x.sems 0 i).toNat)
    ++ (List.range 16).flatMap (fun i => leBytes 8 (mget x.slots 0 i).toNat) ++ leBytes 448 0
    ++ (List.range 32).flatMap (fun i => leBytes 256 (mget x.v 0 i).toNat)
    ++ (List.range 8).flatMap (fun i => tileBytes (mget x.tiles {} i))

/-- The entries of a list of values that differ from what an absent entry holds. -/
def nonDefault {α : Type} [DecidableEq α] (d : α) (l : List α) : Map α :=
  (l.zipIdx).filterMap (fun p => if p.1 = d then none else some (p.2, p.1))

/-- A tile read from a context: the reserved bytes of an element read as 0 (spec/03 R103; spec/00 R15). -/
def tileOf (int : Bool) (bs : List Byte) : Tile :=
  let l := (List.range 128).map (fun i => BitVec.ofNat 128 (fieldAt bs (16 * i) (if int then 8 else 12)))
  { int := int, els := if l.all (· == 0) then [] else l }

/-- The context that bytes in the layout of R75 spell, or nothing where the version or a reserved header byte is wrong (R76). -/
def ctxParse (bs : List Byte) : Option Ctx :=
  if fieldAt bs 0 2 ≠ 1 ∨ fieldAt bs 2 6 ≠ 0 ∨ fieldAt bs 0x20 32 ≠ 0 then none
  else
    let modes := fieldAt bs 0x168 8
    some {
      g := nonDefault 0 ((List.range 32).map (fun i => BitVec.ofNat 64 (fieldAt bs (0x40 + 8 * i) 8)))
      v := nonDefault 0 ((List.range 32).map (fun i => BitVec.ofNat 2048 (fieldAt bs (0x400 + 256 * i) 256)))
      tiles := nonDefault {} ((List.range 8).map (fun i => tileOf (bitN modes i) ((bs.drop (0x2400 + 2048 * i)).take 2048)))
      pc := BitVec.ofNat 64 (fieldAt bs 0x140 8)
      flags := BitVec.ofNat 64 (fieldAt bs 0x148 8 % 128)
      seed := BitVec.ofNat 64 (fieldAt bs 0x150 8)
      ctr := BitVec.ofNat 128 (fieldAt bs 0x158 16)
      sems := nonDefault 0 ((List.range 32).map (fun i => BitVec.ofNat 16 (fieldAt bs (0x180 + 2 * i) 2)))
      slots := nonDefault 0 ((List.range 16).map (fun i => BitVec.ofNat 64 (fieldAt bs (0x1C0 + 8 * i) 8) &&& ~~~ 0x400#64)) }

/-! ## CTX_SAVE and CTX_RESTORE (R368, R486) -/

/-- A memory of a core saved line by line, its uncorrectable words travelling as poison (spec/04 R116). -/
def saveArray (base n a : Nat) (e : Ecc) (s : State) : Option Nat × State :=
  let bads := badWords s.mem.m base n e.bad
  let s := reportBad 4 bads (reportCorr base e.corr s)
  (List.range (n / 64)).foldl (fun (x : Option Nat × State) i =>
    match x.1 with
    | some d => (some d, x.2)
    | none =>
      let o := base + 64 * i
      let (ok, s) := hubWrite (a + 64 * i) (getBs x.2.mem.m o 64) (bads.any (fun u => decide (o ≤ u ∧ u < o + 64))) x.2
      (if ok then none else some 0xF1, s)) (none, s)

/-- The three areas of a save: whether each is asked for, its argument word and its length. -/
def ctxAreas (r : Req) : List (Nat × Nat) :=
  [(2, 25600)] ++ (if bitN (argN r 1) 0 then [(4, 524288)] else []) ++ (if bitN (argN r 1) 1 then [(6, 2097152)] else [])

/-- The first area that is not 64-byte aligned in HBM4. -/
def badArea (s : State) (r : Req) : Option Nat :=
  ((ctxAreas r).find? (fun q => addrArg r q.1 % 64 != 0 || !inHbm s.pkg.part (addrArg r q.1) q.2)).map (·.1)

/-- CTX_SAVE (R75). `es` and `el` are what the code finds in the scratch and the slice. -/
def ctxSaveEff (r : Req) (es el : Ecc) : State → State := runCmd 0x0200 r (fun s _ =>
  withCoreArgs s 0 (argN r 0) (badArea s r) (fun c =>
      if !coreIdle s c then .bad stState 0
      else
        let andThen (x : Option Nat × State) (f : State → Option Nat × State) : Option Nat × State := match x.1 with
          | some d => (some d, x.2)
          | none => f x.2
        let x := bufWrite (addrArg r 2) (ctxBytes s c) s
        let x := if bitN (argN r 1) 0 then andThen x (saveArray (scrBase c) 524288 (addrArg r 4) es) else x
        let x := if bitN (argN r 1) 1 then andThen x (saveArray (slBase c) 2097152 (addrArg r 6) el) else x
        match x with
        | (some d, s) => .fail s stFailed d
        | (none, s) => .ok s []))

/-- The areas of a restore, each by its argument word, read until one cannot be. -/
def ctxGather (r : Req) (fs : List LineFind) (s : State) : (Option Nat × List (Nat × List Byte)) × State :=
  (ctxAreas r).foldl (fun (x : (Option Nat × List (Nat × List Byte)) × State) q =>
    match x.1.1 with
    | some _ => x
    | none => match bufRead (addrArg r q.1) q.2 fs x.2 with
      | (.data bs, s) => ((none, x.1.2 ++ [(q.1, bs)]), s)
      | (.bad d, s) => ((some d, []), s)) ((none, []), s)

/-- CTX_RESTORE (R76, R486): every area is read before anything changes. -/
def ctxRestoreEff (r : Req) (fs : List LineFind) : State → State := runCmd 0x0201 r (fun s _ =>
  withCoreArgs s 0 (argN r 0) (badArea s r) (fun c =>
      if !coreIdle s c then .bad stState 0
      else
        let x := ctxGather r fs s
        match x.1.1 with
        | some d => .fail x.2 stFailed d
        | none =>
          match ctxParse (mget x.1.2 [] 2) with
          | none => .fail x.2 stRefused 0
          | some k =>
            let put (i base : Nat) (s : State) : State := match mfind x.1.2 i with
              | none => s
              | some bs => setMem s (writeBs s.mem.m base bs)
            .ok (put 6 (slBase c) (put 4 (scrBase c) (modCtx c (fun _ => k) x.2))) []))

/-- CTX_RESET (R76). -/
def ctxResetEff (r : Req) : State → State := runCmd 0x0202 r (fun s _ =>
  withCore s 0 (argN r 0) (fun c => if !coreIdle s c then .bad stState 0 else .ok (modCtx c (fun _ => {}) s) []))

/-- CORE_RETIRE (R80): at once where the partition is at a plan boundary, else at the boundary that follows ENDING or ABORTING. Where the spare
is used or fenced and the partition is RUNNING too, the answer is REFUSED (DESIGN CHOICE, log 45). -/
def coreRetireEff (r : Req) (spare : LaneFind) : State → State := runCmd 0x0203 r (fun s t =>
  withCore s 0 (argN r 0) (fun c =>
    if isFenced s (spareOf c) || spareUsed s (spareOf c) then .bad stRefused 0
    else match coreParts s c with
      | none => .later (retireNow c t spare s)
      | some pt => match part s pt with
        | none => .later (retireNow c t spare s)
        | some p =>
          if p.plan = 2 then .bad stState 0
          else if planIdle p then .later (retireNow c t spare s)
          else .later (setPart s pt { p with retire := p.retire ++ [(c, t)] })))

/-! ## Synchronisation objects (spec/08 R259) -/

/-- The object that SYNC_READ and SYNC_WRITE name: a core's semaphore or slot, or a combiner. -/
inductive SyncObj where
  | sem (c n : Nat)
  | slot (c n : Nat)
  | comb (pt : Nat) (l : Level) (unit slot : Nat) (sense : Bool)
  deriving DecidableEq, Repr

def withSync (s : State) (r : Req) (bad : Option Nat) (f : SyncObj → CmdOut) : CmdOut :=
  let kind := argN r 0
  let a1 := argN r 1
  let n := bitsN (argN r 2) 0 5
  let se := bitN (argN r 2) 8
  if 5 < kind then .bad stBadArg 0
  else if kind ≤ 1 then
    withCoreArgs s 1 a1 (if kind = 1 ∧ 15 < n then some 2 else bad) (fun c => f (if kind = 0 then .sem c n else .slot c n))
  else
    let pt := bitsN a1 0 4
    let st := bitsN a1 8 4
    let cl := bitsN a1 5 3
    if stacksOf s.pkg.part ≤ pt ∨ (3 ≤ kind ∧ cl ≠ 0) ∨ (4 ≤ kind ∧ st ≠ 0) ∨ (kind ≤ 3 ∧ 12 ≤ st) then .bad stBadArg 1
    else if 15 < n then .bad stBadArg 2
    else if let some i := bad then .bad stBadArg i
    else if kind ≤ 3 ∧ stacksOf s.pkg.part ≤ st then .bad stAbsent 0
    else match part s pt with
      | none => .bad stNotFound 0
      | some p =>
        if kind ≤ 3 ∧ !bitN p.stackSet st then .bad stBadArg 1
        else f (match kind with
          | 2 => .comb pt .cluster (st * 8 + cl) n se
          | 3 => .comb pt .die st n se
          | 4 => .comb pt .package 0 n se
          | _ => .comb pt .fabric 0 n se)

/-- The value of an object; of a combiner, its count of arrivals (R253). -/
def syncVal (s : State) (o : SyncObj) : Nat :=
  match o with
  | .sem c n => getSem s c n
  | .slot c n => (getSlot s c n).toNat
  | .comb pt l u sl se => (combOf s (combKey pt l u sl se)).arrived.length

/-- SYNC_READ (R368). -/
def syncReadEff (r : Req) : State → State := runCmd 0x0210 r (fun s _ =>
  withSync s r none (fun o => .ok s (wordsOf 2 (syncVal s o))))

/-- Releases of a slot's oldest outstanding plies, one for each unit by which OUT is lowered (R259). -/
def lowerOut (n c slot : Nat) (s : State) : State :=
  match n with
  | 0 => s
  | k + 1 => lowerOut k c slot (coreRelease c slot (oldestSense (getSlot s c slot)) s)

/-- A combiner's sense forced complete (R259): the release goes down, and each child that had not arrived loses its next arrival. -/
def forceComb (pt : Nat) (l : Level) (u sl : Nat) (se : Bool) (s : State) : State :=
  match part s pt with
  | none => s
  | some p =>
    let k := combKey pt l u sl se
    let c := combOf s k
    match c.cfg with
    | none => s
    | some w =>
      let miss := (expected s pt p l u w).filter (fun x => !c.arrived.contains x)
      let s := setComb k { c with sent := true, skip := miss.foldl addOnce c.skip } s
      retrySlot pt sl (combRelease { pt := pt, run := p.run.toNat, level := l, unit := u, slot := sl, sense := se } s)

/-- The slot with the fields of an action replaced. -/
def slotWrite (act v : Nat) (w : BitVec 64) : BitVec 64 :=
  if act = 2 then putField w 13 1 v else if act = 3 then putField w 0 10 v else putField w 14 50 (v / 2 ^ 14)

/-- The action or the value that SYNC_WRITE refuses for a kind of object (R259). -/
def syncBad (kind act v : Nat) : Option Nat :=
  if kind = 0 then (if act ≠ 0 then some 3 else if 65535 < v then some 4 else none)
  else if kind = 1 then
    if act < 1 ∨ 4 < act then some 3
    else if (act = 1 ∧ 3 < v) ∨ (act = 2 ∧ 1 < v) ∨ (act = 3 ∧ 1023 < v) ∨ (act = 4 ∧ v % 2 ^ 14 ≠ 0) then some 4
    else none
  else if act ≠ 5 then some 3
  else none

/-- Where a forced combiner is reported (R263): a die controller, which for the hub's combiners is that of the partition's lowest stack (DESIGN CHOICE,
log 49), with the rood that stamps it. -/
def forcedAt (s : State) (pt : Nat) (l : Level) (u : Nat) : Nat × Nat :=
  match l with
  | .cluster => (siteKC (u / 8), u % 8)
  | .die => (siteKC u, 8)
  | _ => (siteKC (((part s pt).bind (fun p => (partStacks p).head?)).getD 0), 8)

/-- SYNC_WRITE (R259, R368). -/
def syncWriteEff (r : Req) : State → State := runCmd 0x0211 r (fun s _ =>
  let act := argN r 3
  let v := argN r 4 + 2 ^ 32 * argN r 5
  withSync s r (syncBad (argN r 0) act v) (fun o =>
    let old := syncVal s o
    match o with
    | .sem c n =>
      .ok (emitCore c Ev.syncForced [wordOfCore c, n, old, v] (setSem c n v s)) (wordsOf 2 old)
    | .slot c n =>
      let w := getSlot s c n
      if act = 1 ∧ slOut w < v then .bad stBadArg 4
      else
        let s := if act = 1 then lowerOut (slOut w - v) c n s else setSlot c n (slotWrite act v w) s
        .ok (emitCore c Ev.syncForced [wordOfCore c, n, old, (getSlot s c n).toNat] s) (wordsOf 2 old)
    | .comb pt l u sl se =>
      if old = 0 then .bad stState 0
      else
        let s := forceComb pt l u sl se s
        let a := forcedAt s pt l u
        .ok (emitRood a.1 a.2 Ev.syncForced [argN r 1, argN r 2, old, syncVal s o] s) (wordsOf 2 old)))

/-! ## Debuggers (spec/16 R449) -/

/-- DEBUG_CTL (R368, R449). -/
def debugCtlEff (r : Req) : State → State := runCmd 0x0212 r (fun s _ =>
  withCoreArgs s 0 (argN r 0) (if 2 < argN r 1 then some 1 else none) (fun c =>
    match (coreParts s c).bind (part s) with
    | none => .bad stRefused 0
    | some p =>
      if p.mode ≠ 4 then .bad stRefused 0
      else if argN r 1 = 0 then
        if (coreAt s c).debugger then .ok s []
        else .ok (emitCore c Ev.dbgAttach [wordOfCore c, chanCode r.chan] (modCore c (fun k => { k with debugger := true }) s)) []
      else if argN r 1 = 1 then .ok (detachCore (chanCode r.chan) c s) []
      else .ok (resumeBrk c s) []))

/-! ## Pips and hub queues (spec/11 R341 to R343; spec/12 R368) -/

/-- Every bound pending pip posts 1 to its semaphore, which clears its PENDING bit (R341). Pip 31 is the request engine's. -/
def takePips (s : State) : State :=
  s.hp.pipIn.foldl (fun s q =>
    if s.hp.h2dPending.getLsbD q.1 && !safeState s 0 0 then
      addSem q.2.1 q.2.2 1 { s with hp := { s.hp with h2dPending := s.hp.h2dPending &&& ~~~ (1#32 <<< q.1) } }
    else s) s

/-- PIP_IN_BIND (R341, R368). -/
def pipInBindEff (r : Req) : State → State := runCmd 0x0500 r (fun s _ =>
  let k := bitsN (argN r 0) 0 5
  if k = 31 then .bad stBadArg 0
  else if bitN (argN r 0) 8 then .ok { s with hp := { s.hp with pipIn := mdel s.hp.pipIn k } } []
  else withCore s 1 (argN r 1) (fun c =>
    if (coreParts s c).isNone then .bad stNotFound 0
    else .ok (takePips { s with hp := { s.hp with pipIn := mset s.hp.pipIn k (c, argN r 2) } }) []))

/-- PIP_OUT_BIND (R342, R368). -/
def pipOutBindEff (r : Req) : State → State := runCmd 0x0501 r (fun s _ =>
  let k := bitsN (argN r 0) 0 5
  let a := addrArg r 1
  if k = 31 then .bad stBadArg 0
  else if bitN (argN r 0) 8 then .ok { s with hp := { s.hp with pipOut := mdel s.hp.pipOut k } } []
  else if a % 8 ≠ 0 || !inHbm s.pkg.part a 8 then .bad stBadArg 1
  else if s.hp.pipOut.any (fun q => q.1 != k && q.2 == a) then .bad stState 0
  else .ok { s with hp := { s.hp with pipOut := mset s.hp.pipOut k a } } [])

/-- The credits of a hub queue given to the dies of a partition: an equal share of its 64 places (spec/02 R66). -/
def shareCredits (q : Nat) (p : Option Part) (s : State) : State :=
  let ds := (p.map partStacks).getD []
  (List.range 12).foldl (fun s d =>
    let e := dieEng s d
    let n := if ds.contains d then 64 / ds.length else 0
    if mget e.credits 0 q = n then s else setEng d { e with credits := mset e.credits q n } s) s

/-- HQ_ASSIGN (spec/02 R66; R368, R371): only while no partition concerned holds a job. -/
def hqAssignEff (r : Req) : State → State := runCmd 0x0502 r (fun s _ =>
  let q := bitsN (argN r 0) 0 5
  let pt := bitsN (argN r 0) 8 4
  let eng := bitN (argN r 0) 12
  let un := bitN (argN r 0) 13
  let x := mget s.fab.hqs {} q
  let held (o : Option Nat) : Bool := match o with
    | none => false
    | some k => holdsJob s (if k = 12 then enginePart s else k)
  let owner : Option Nat := if un then none else if eng then some 12 else some pt
  if (un && eng) || ((un || eng) && pt != 0) || (!un && !eng && decide (stacksOf s.pkg.part ≤ pt)) then .bad stBadArg 0
  else if !un && !eng && (part s pt).isNone then .bad stNotFound 0
  else if x.open_ ≠ 0 || !x.descs.isEmpty || held x.owner || held owner then .bad stState 0
  else
    let s := setFab { s.fab with hqs := mset s.fab.hqs q { owner := owner } } s
    .ok (shareCredits q (if un || eng then none else part s pt) s) [])

/-- H2D_RING (R340, R341, R343). -/
def h2dRingEff (v : Word32) (s : State) : State :=
  if !bar0Up s || s.pkg.recovery then s
  else
    let s := (onesOf 32 v.toNat).foldl (fun s k => bump 0x8001 k 1 s) s
    takePips { s with hp := { s.hp with h2dPending := s.hp.h2dPending ||| v } }

end Sys2Proof.Machine
end

