-- ==== Sys2Proof/Machine/Eng.lean ====
section
/-! DEFINITION. Eng.lean: the request engine: its area, states, sessions, directory, replies and batches (spec/10 R307 to R327). -/
namespace Sys2Proof.Machine

def setEngine (e : Eng) (s : State) : State := { s with eng := e }

/-! ## The area (R308, R309) -/

def engBase (s : State) : Nat := bitsN (cfgEff s 7 0) 21 27 * 2 ^ 21
def engLen : Nat := 640 * 2 ^ 20
def sessAddr (s : State) (n : Nat) : Nat := engBase s + 64 * n
def bucketAddr (s : State) (b : Nat) : Nat := engBase s + 0x04000000 + 128 * b
def slotAddr (s : State) (n : Nat) : Nat := engBase s + 0x24000000 + n * 2 ^ 20
def ringCtl (s : State) (i : Nat) : Nat := engBase s + 0x24801000 + 8 * i
def reqEntry (s : State) (i : Nat) : Nat := engBase s + 0x24801040 + 128 * (i % 32768)
def rplEntry (s : State) (i : Nat) : Nat := engBase s + 0x24881040 + 128 * (i % 32768)
/-- The area lies in HBM4. -/
def areaOk (s : State) : Bool := inHbm s.pkg.part (engBase s) engLen

/-- Bytes of the area written, line by line; a line that is fenced or that the hub does not reach stops it. -/
def areaWrite (a : Nat) (bs : List Byte) (s : State) : State :=
  ((pieces a bs 0).foldl (fun (x : Bool × State) q => if x.1 && !lineCut x.2 12 q.1 then hbmWrite q.1 q.2.1 false x.2 else (false, x.2)) (true, s)).2

def engEnable (s : State) : Bool := bitN (cfgEff s 6 0) 0
def hostEn (s : State) : Bool := bitN (cfgEff s 6 0) 1
/-- A number of microseconds in grains of the GTC (spec/07 R223). -/
def usGrains (n : Nat) : Nat := 16000 * n
def spanUs (s : State) : Nat := bitsN (cfgEff s 6 0) 42 6
def batchMax (s : State) : Nat := 16 * bitsN (cfgEff s 6 0) 29 9
def inflight (s : State) : Nat := bitsN (cfgEff s 6 0) 26 3 + 1
def estUs (s : State) : Nat := bitsN (cfgEff s 6 0) 12 14
def engNow (s : State) : Nat := (hubGtc s).toNat

/-! ## States (R307, R309, R310) -/

/-- The dispatch counter (R325). -/
def dispatchAddr (p : Part) : Nat := cmBase ((partStacks p).headD 0 * 8) + 0xFFFFC0

/-- Where the area holds the eight zero bytes that clear it: reserved bytes, which no rule uses (DESIGN CHOICE, log 15). -/
def zeroSrc (s : State) : Nat := engBase s + 0x24901040
/-- The PUT of 8 bytes to rank 1 that clears the dispatch counter (R325), as a descriptor of R268. -/
def clearDesc (s : State) (p : Part) : List Byte :=
  [1, 0, 0, 0] ++ leBytes 4 1 ++ leBytes 8 (zeroSrc s) ++ leBytes 8 (dispatchAddr p) ++ leBytes 4 8 ++ leBytes 4 0 ++ leBytes 8 0 ++ leBytes 8 0
    ++ leBytes 16 0
/-- A clearing of the dispatch counter stands in a hub queue or in the hub. -/
def clearOut (s : State) : Bool :=
  (hubDesc s (hubKey 12 clearTag)).isSome || s.fab.hqs.any (fun q => q.2.descs.any (fun d => d.1 == 12 && d.2.1 == clearTag))
/-- The clearing posted to a hub queue that has room, as NO_JOB is left (R325). -/
def postClear (s : State) : State :=
  match part s (enginePart s), engineQueue s with
  | some p, some q =>
    if clearOut s then s
    else enginePost q clearTag (clearDesc s p) (setEngine { s.eng with clearing := true } (areaWrite (zeroSrc s) (leBytes 8 0) s))
  | _, _ => s

/-- The engine's job is met (R307, R309). -/
def jobMet (s : State) : Bool :=
  let pt := enginePart s
  match part s pt, activeJob s pt with
  | some p, some j =>
    p.mode == 3 && translate s j 0 == some (ownPkg s, 12) && translate s j 1 == some (ownPkg s, (partStacks p).headD 12)
      && s.fab.hqs.any (fun q => q.2.owner == some 12)
      && areaOk s
      && p.windows.any (fun w => w.2.rd && w.2.wr && decide (w.2.base ≤ engBase s ∧ engBase s + engLen ≤ w.2.base + w.2.len))
  | _, _ => false

/-- The state that the engine's conditions give (R310). -/
def engStateOf (s : State) : Nat :=
  if !engEnable s then 0
  else if !jobMet s then 1
  else if (part s (enginePart s)).any (fun p => p.plan == 2) && s.eng.started then 3
  else 2

/-! ## Sessions (R316, R317, R327) -/

/-- A fault of the engine's memory reported once for its line (R327): the line's key, the event, what it names, 0 poison or 1
fence. -/
def engFault (key code name cause : Nat) (s : State) : State :=
  if s.eng.badBuckets.contains key then s
  else emit 0x64 code [name, cause] (setEngine { s.eng with badBuckets := key :: s.eng.badBuckets } s)
/-- A line has been rewritten. -/
def engMended (key : Nat) (s : State) : State := setEngine { s.eng with badBuckets := dropEl s.eng.badBuckets key } s

/-- The entry of a session that the cache holds, of 64 bytes. -/
def cached (s : State) (n : Nat) : Option SessEnt :=
  (s.eng.cache.find? (fun e => e.n == n)).map (fun e => { e with bytes := fitBytes 64 e.bytes })

/-- An entry written back to HBM4. -/
def writeBack (base : Nat) (e : SessEnt) (s : State) : State := if e.dirty then (hubWrite (base + 64 * (e.n % 2 ^ 20)) (fitBytes 64 e.bytes) false s).2 else s

/-- An entry put first in the cache, which holds 65,536: the one used longest ago is evicted, and written back where it has been changed (R318). -/
def cachePut (e : SessEnt) (s : State) : State :=
  let l := e :: s.eng.cache.filter (fun x => x.n != e.n)
  let s := setEngine { s.eng with cache := l.take 65536 } s
  (l.drop 65536).foldl (fun s x => writeBack (engBase s) x s) s

/-- Every entry written back to the table at a base, and the cache left empty. -/
def cacheFlush (base : Nat) (s : State) : State :=
  setEngine { s.eng with cache := [] } (s.eng.cache.foldl (fun s x => writeBack base x s) s)

/-- A session's line that reads poisoned (cause 0) or fenced (1): the session is lost, and its line is written FREE (R316, R327). -/
def sessLost (n cause : Nat) (s : State) : Option (List Byte) × State :=
  let r := hubWrite (sessAddr s n) (List.replicate 64 0) false (engFault (2 ^ 23 + n) Ev.engSessionLost n cause s)
  (none, if r.1 then engMended (2 ^ 23 + n) r.2 else r.2)
/-- A session's entry, from the cache or read into it: none where its line is poisoned, fenced or reserved; it is then rewritten FREE (R327). -/
def readSession (n : Nat) (fs : List LineFind) (s : State) : Option (List Byte) × State :=
  match cached s n with
  | some e => (some e.bytes, cachePut e s)
  | none => match hubRead (sessAddr s n) fs s with
    | (.data bs, s) => if 2 < fieldAt bs 0 1 then sessLost n 0 s else (some bs, cachePut { n := n, bytes := bs, dirty := false } s)
    | (.poison _, s) => sessLost n 0 s
    | (.fenced, s) => sessLost n 1 s
/-- Bytes of a session's entry replaced. -/
def putSession (n off : Nat) (bs : List Byte) (s : State) : State :=
  match readSession n [] s with
  | (none, s) => s
  | (some e, s) => cachePut { n := n, bytes := e.take off ++ bs ++ e.drop (off + bs.length), dirty := true } s
/-- A session's entry as the engine has it: in its cache, or else in memory. -/
def sessBytes (s : State) (n : Nat) : List Byte := match cached s n with
  | some e => e.bytes
  | none => getBs s.mem.m (sessAddr s n) 64
/-- A number of a session's entry. -/
def sessField (s : State) (n off len : Nat) : Nat := fieldAt (sessBytes s n) off len

/-! ## Replies (R311 to R315) -/

/-- Where a reply goes: the frame's session and nonce, the path and the peer. -/
structure Peer10 where
  session : Nat
  nonce : Nat
  host : Bool
  ip : Nat
  port : Nat
  deriving DecidableEq, Repr

def peerOfReq (q : EReq) : Peer10 := ⟨q.session, q.nonce, q.host, q.peerIp, q.peerPort⟩

/-- The port by which a reply leaves: a hash of the peer's address over the ports that are up (R311). -/
def replyPort (s : State) (ip : Nat) : Option Nat :=
  let l := (List.range 16).filter (portUp s)
  l[Config.flowHash ip 4 % l.length]?

/-- A reply counted, and the first BUSY of a second reported (R323; spec/16 R447). -/
def countReply (st : Nat) (s : State) : State :=
  let s := bump 0x7002 st 1 s
  let g := engNow s
  if st = 3 then
    let l := inLastSecond g s.eng.busyLog
    let s1 := setEngine { s.eng with busyLog := l, busySec := some (secondOf (hubGtc s)) } s
    if s.eng.busySec = some (secondOf (hubGtc s)) then s1 else emit 0x64 Ev.engBusy [l.length] s1
  else if st = 9 then setEngine { s.eng with errLog := inLastSecond g s.eng.errLog } s
  else s

/-- A reply record: the request's with STATUS and RESULT (R313). -/
def replyRec (rec : List Byte) (st : Nat) (res : List Byte) : List Byte :=
  rec.take 1 ++ [BitVec.ofNat 8 st] ++ (rec.drop 2).take 14 ++ (res ++ List.replicate 48 0).take 48

/-- A reply frame of one record (R312). -/
def replyFrame (p : Peer10) (rec : List Byte) : List Byte :=
  [1, 2, 1, 0] ++ leBytes 4 p.session ++ leBytes 4 p.nonce ++ leBytes 4 0 ++ rec

/-- An IP address of 16 bytes is not an IPv4 one in mapped form. -/
def isV6 (dst : List Byte) : Bool := dst.take 12 != List.replicate 10 0 ++ [255, 255]
/-- The frame of a reply put on a port (R311): 802.1Q priority 4 and DSCP 34, from REQ_PORT to the peer's address and port. -/
def replyOut (k : Nat) (p : Peer10) (f : List Byte) (s : State) : State :=
  let dst := beBytes 16 p.ip
  let v6 := isV6 dst
  let x := etherOf s k 4 v6 (ipOf v6 34 (ipAddr s (ownPkg s)) dst (udpOf v6 (ipAddr s (ownPkg s)) dst (reqPort s) p.port f))
  etherOut k x (bump 0x6001 k (ceilDiv x.length 64) (modTel k (fun t => { t with tx := t.tx + x.length }) s))

/-- A reply sent by UDP, or put in the host's reply ring (R311, R315). While no port is up a UDP reply is lost. -/
def sendReply (p : Peer10) (rec : List Byte) (st : Nat) (res : List Byte) (s : State) : State :=
  let s := countReply st s
  let f := replyFrame p (replyRec rec st res)
  if !p.host then
    match replyPort s p.ip with
    | some k => send (.reply p.session [0, p.ip, p.port, reqPort s, k] f) (replyOut k p f s)
    | none => s
  else
    let i := getNum s.mem.m (ringCtl s 2) 8
    let e := f ++ List.replicate 48 0
    let s := areaWrite (ringCtl s 2) (leBytes 8 ((i + 1) % 2 ^ 64)) (areaWrite (rplEntry s i) e s)
    ringOut 31 (send (.reply p.session [1] f) (setEngine { s.eng with hostOut := s.eng.hostOut - 1 } s))

/-- A reply of the engine's own: a RESULT that the spec does not state is free (log 8). -/
def ownReply (p : Peer10) (rec : List Byte) (st : Nat) (s : State) : State :=
  let (res, s) := drawBytes 48 s
  sendReply p rec st res s

/-- Every request that the engine holds. -/
def heldReqs (e : Eng) : List EReq :=
  e.openB ++ (match e.closedB with
    | none => []
    | some b => b.reqs) ++ e.slots.flatMap (fun q => q.2.reqs)
/-- The requests of a list that a test names, marked as answered. -/
def markAll (p : EReq → Bool) (l : List EReq) : List EReq := l.map (fun q => if p q then { q with answered := true } else q)
/-- The requests that a test names, marked as answered wherever they stand. -/
def markHeld (p : EReq → Bool) (e : Eng) : Eng :=
  { e with
    openB := markAll p e.openB
    closedB := e.closedB.map (fun b => { b with reqs := markAll p b.reqs })
    slots := mmap e.slots (fun _ b => { b with reqs := markAll p b.reqs }) }
/-- A request that the engine holds has been answered; one that it holds no longer counts as it stands. -/
def hasReply (s : State) (q : EReq) : Bool := q.answered || (heldReqs s.eng).any (fun x => x.adm == q.adm && x.answered)

/-- Requests of a session that has been lost, answered NO_SESSION (R327): its entry is FREE already. -/
def loseSession (n : Nat) (s : State) : State :=
  let l := (heldReqs s.eng).filter (fun q => q.session == n && !q.answered)
  let s := l.foldl (fun s q => ownReply (peerOfReq q) q.recd 4 s) s
  setEngine (markHeld (fun q => q.session == n) s.eng) s

/-- A request of a session has been answered: OUTSTANDING falls, and a CLOSING session with none becomes FREE (R317). Where its entry cannot be read the
session is lost, with its other requests (R327). -/
def sessionAnswered (q : EReq) (s : State) : State :=
  let n := q.session
  match readSession n [] s with
  | (none, s) => loseSession n (setEngine (markHeld (fun x => x.adm == q.adm) s.eng) s)
  | (some e, s) =>
    let o := fieldAt e 0x30 4 - 1
    let e := if o = 0 ∧ fieldAt e 0 1 = 2 then (0 : Byte) :: e.drop 1 else e
    cachePut { n := n, bytes := e.take 0x30 ++ leBytes 4 o ++ e.drop 0x34, dirty := true } s

/-- An admitted request answered by the engine. -/
def answerReq (q : EReq) (st : Nat) (s : State) : State :=
  if hasReply s q then s else sessionAnswered q (ownReply (peerOfReq q) q.recd st s)

/-! ## The directory (R319, R320, R327) -/

/-- The bucket of a key. -/
def bucketOf (k : Nat) : Nat := k * 0x9E3779B97F4A7C15 % 2 ^ 64 / 2 ^ 42

/-- A bucket put first in the cache, which holds 32,768: the one used longest ago is evicted (R321). -/
def bucketPut (a : Nat) (bs : List Byte) (s : State) : State :=
  setEngine { s.eng with buckets := ((a, bs) :: s.eng.buckets.filter (fun x => x.1 != a)).take 32768 } s

/-- A bucket that the cache holds, of 128 bytes. -/
def heldBucket (s : State) (b : Nat) : Option (List Byte) :=
  (s.eng.buckets.find? (fun x => x.1 == bucketAddr s b)).map (fun x => fitBytes 128 x.2)
/-- A bucket as the engine has it: in its cache, or else in memory. -/
def bucketBytes (s : State) (b : Nat) : List Byte := (heldBucket s b).getD (getBs s.mem.m (bucketAddr s b) 128)

/-- The two lines of a bucket read from HBM4. -/
def fetchBucket (b : Nat) (fs : List LineFind) (s : State) : (List Byte ⊕ Nat) × State :=
  [0, 1].foldl (fun (x : (List Byte ⊕ Nat) × State) i =>
    match x.1 with
    | .inr c => (.inr c, x.2)
    | .inl l => match hubRead (bucketAddr x.2 b + 64 * i) fs x.2 with
      | (.data bs, s) => (.inl (l ++ bs), s)
      | (.poison _, s) => (.inr 0, engFault (2 * b + i) Ev.engDirFault b 0 s)
      | (.fenced, s) => (.inr 1, engFault (2 * b + i) Ev.engDirFault b 1 s)) (.inl [], s)

/-- A bucket from the cache or read into it: its bytes, or the cause for which it cannot be read (R321, R327). -/
def readBucket (b : Nat) (fs : List LineFind) (s : State) : (List Byte ⊕ Nat) × State :=
  match heldBucket s b with
  | some bs => (.inl bs, bucketPut (bucketAddr s b) bs s)
  | none =>
    match fetchBucket b fs s with
    | (.inl bs, s) => (.inl bs, bucketPut (bucketAddr s b) bs s)
    | r => r

/-- Bytes of a bucket replaced in the cache, together with those in HBM4 (R321). -/
def bucketPatch (b off : Nat) (bs : List Byte) (s : State) : State :=
  setEngine { s.eng with buckets := s.eng.buckets.map (fun x =>
    if x.1 = bucketAddr s b then (x.1, x.2.take off ++ bs ++ x.2.drop (off + bs.length)) else x) } s

/-- The way of a bucket that is VALID with a key; the lowest way that is not VALID. -/
def wayOf (bs : List Byte) (k : Nat) : Option Nat :=
  (List.range 4).find? (fun i => bitN (fieldAt bs (32 * i + 0x14) 2) 0 && fieldAt bs (32 * i) 8 == k)
def freeWay (bs : List Byte) : Option Nat := (List.range 4).find? (fun i => !bitN (fieldAt bs (32 * i + 0x14) 2) 0)

/-! ## Batches (R323 to R326) -/

/-- The open batch closes. -/
def closeBatch (s : State) : State :=
  if s.eng.openB.isEmpty || s.eng.closedB.isSome then s
  else setEngine { s.eng with openB := [], closedB := some { reqs := s.eng.openB, closedAt := engNow s } } s

/-- The open batch closes because it is full. -/
def closeFull (s : State) : State := if batchMax s ≤ s.eng.openB.length then closeBatch s else s

/-- Directory commands end once no batch holds a request admitted before them (R320). -/
def dirsEnd (s : State) : State :=
  let held := heldReqs s.eng
  s.eng.dirs.foldl (fun s d =>
    if held.any (fun q => decide (q.adm < d.2.1)) then s
    else finishTicket d.1 stOK 0 d.2.2 (setEngine { s.eng with dirs := s.eng.dirs.filter (fun x => x.1 != d.1) } s)) s

/-! ## Changes of state (R310, R325) -/

/-- The engine leaves SERVING: every request of the open and the closed batch is answered ENGINE_DOWN; so are those in flight, and
their slots freed, unless `flight` is false: in OFF the batches in flight complete (R310). -/
def engDown (flight : Bool) (s : State) : State :=
  let rest := if flight then [] else s.eng.slots
  let s := setEngine { s.eng with slots := if flight then s.eng.slots else [] } s
  let s := (heldReqs s.eng).foldl (fun s q => answerReq q 8 s) s
  setEngine { s.eng with openB := [], closedB := none, slots := rest, returned := if flight then [] else s.eng.returned } s

/-- Nothing on which the engine's state depends differs between two states. -/
def engSame (a s : State) : Bool :=
  decide (a.eng = s.eng) && decide (a.parts = s.parts) && decide (a.jobs = s.jobs) && decide (a.cfg = s.cfg) && decide (a.fab = s.fab)
    && decide (a.pod = s.pod) && decide (a.pkg = s.pkg) && decide (a.rel = s.rel)

/-- What the numbering of batches stands on: the engine's partition, its job, and the number of slots (R310, R323). -/
def engJob (s : State) : Nat × Option Nat × Nat := (enginePart s, (activeJob s (enginePart s)).map (·.id), inflight s)

/-- Something done while the configuration, and with it the engine's area, is still that of a state. -/
def atArea (a : State) (f : State → State) (s : State) : State := { (f { s with cfg := a.cfg }) with cfg := s.cfg }

/-- The engine enters a state, with the area of `a` (R310): the change is reported, the requests that it held in SERVING are answered, and what the cache
holds goes back to an area that may not be valid from here on. -/
def engEnter (a : State) (new : Nat) (met : Bool) (s : State) : State :=
  let old := s.eng.state
  let s := if new = old then s
    else
      let (c, s) := drawWord s
      emit 0x64 Ev.engState [old, new, c.toNat] (setEngine { s.eng with state := new } s)
  let s := if old = 3 ∧ new ≠ 3 then atArea a (engDown (new != 0 || !met)) s
    else if !met ∧ !s.eng.slots.isEmpty then atArea a (engDown true) s
    else s
  if new ≤ 1 ∧ !s.eng.cache.isEmpty then cacheFlush (engBase a) s else s

/-- The job is lost: the numbering restarts when it is met again (R323, R325). -/
def engLost (s : State) : State := setEngine { s.eng with clearing := false, cleared := false, started := false, next := 0 } s

/-- The engine's state follows its conditions, after a command that changed them (R310; log 15). A boundary that brings another job, partition or
number of slots passes through NO_JOB. As NO_JOB is left, the dispatch counter is cleared. -/
def engSettle (a s : State) : State :=
  if engSame a s then s else
  let met := jobMet s
  let s := if engJob a ≠ engJob s then engEnter a (if 2 ≤ s.eng.state then 1 else s.eng.state) false (engLost s)
    else if !met then engLost s else s
  let s := if met ∧ engEnable s = true ∧ s.eng.cleared = false ∧ s.eng.clearing = false then postClear s else s
  dirsEnd (engEnter a (engStateOf s) met s)

end Sys2Proof.Machine
end

