-- ==== Sys2Proof/Machine/EngRows.lean ====
section
/-! DEFINITION. EngRows.lean: the request engine's rows: frames and records, the host ring, batches, deadlines, sessions, and the directory and
session commands (spec/10 R312 to R327; spec/12 R368). -/
namespace Sys2Proof.Machine

/-! ## Admission (R322 to R324) -/

/-- A record holds a reserved value, or OPEN arguments out of range (R313, R314). -/
def badRecord (rec : List Byte) : Bool :=
  let op := fieldAt rec 0 1
  rec.length != 64 || decide (op < 1 ∨ 5 < op) || fieldAt rec 1 1 != 0
    || (op == 3 && (decide (fieldAt rec 0x10 4 < 5 ∨ 10000 < fieldAt rec 0x10 4) || fieldAt rec 0x18 40 != 0))

/-- The lowest-numbered session from `n` on whose entry is FREE, or becomes so when the engine reads it (R317, R327). -/
def freeSession (fuel n : Nat) (s : State) : Option Nat :=
  match fuel with
  | 0 => none
  | f + 1 =>
    let a := sessAddr s n
    let st := sessField s n 0 1
    if (cached s n).isSome && st = 0 || (cached s n).isNone && (st = 0 || decide (2 < st) || isPoison s.mem.m a) && !lineFenced s (placeOf s a) then some n else freeSession f (n + 1) s

/-- The entry of a session as OPEN writes it (R316, R317). -/
def newSession (p : Peer10) (nonce : Nat) (rec : List Byte) (g : Nat) : List Byte :=
  [1, BitVec.ofNat 8 (b2n p.host), 0, 0] ++ leBytes 4 nonce ++ leBytes 4 (fieldAt rec 0x10 4) ++ leBytes 4 (fieldAt rec 0x14 4)
    ++ leBytes 16 p.ip ++ leBytes 2 p.port ++ leBytes 6 0 ++ leBytes 8 g ++ leBytes 4 0 ++ leBytes 12 0

/-- OPEN (R317). -/
def admitOpen (p : Peer10) (rec : List Byte) (fs : List LineFind) (s : State) : State :=
  match freeSession 1048576 0 s with
  | none => ownReply p rec 6 s
  | some n =>
    let (x, s) := readSession n fs s
    let s := if x.isNone then loseSession n s else s
    let old := sessField s n 4 4
    let (w, s) := drawWord s
    let d := w.toNat % 2 ^ 32
    let nonce := if d = old then (d + 1) % 2 ^ 32 else d
    let s := cachePut { n := n, bytes := newSession p nonce rec (engNow s), dirty := true } s
    let (rest, s) := drawBytes 40 s
    sendReply { p with session := n, nonce := nonce } rec 0 (leBytes 4 n ++ leBytes 4 nonce ++ rest) s

/-- The session check (R314): OPEN, with the frame's nonce, from its own peer and path. -/
def sessionOk (p : Peer10) (e : List Byte) : Bool :=
  fieldAt e 0 1 == 1 && fieldAt e 4 4 == p.nonce && fieldAt e 1 1 == b2n p.host
    && (p.host || (fieldAt e 0x10 16 == p.ip && fieldAt e 0x20 2 == p.port))

/-- A session moves to CLOSING, or to FREE where nothing is outstanding (R317). -/
def closeSession (n : Nat) (s : State) : State := putSession n 0 [if sessField s n 0x30 4 = 0 then 0 else 2] s

/-- INFER and UPDATE from step 6 on (R322 to R324). -/
def admitKey (p : Peer10) (e rec : List Byte) (arrival : Nat) (fs : List LineFind) (s : State) : State :=
  if s.eng.state ≠ 3 then ownReply p rec 8 s
  else
    let key := fieldAt rec 8 8
    let b := bucketOf key
    match readBucket b fs s with
    | (.inr _, s) => ownReply p rec 7 s
    | (.inl bk, s) =>
      match wayOf bk key with
      | none => ownReply p rec 2 s
      | some w =>
        let dl := arrival + usGrains (fieldAt e 8 4)
        let room := s.eng.openB.length < batchMax s
        if estUs s ≠ 0 ∧ dl < arrival + usGrains (estUs s + 3) then ownReply p rec 1 s
        else if safeState s 3 0 = true ∨ !room then ownReply p rec 3 s
        else
          let q : EReq := { recd := rec, session := p.session, nonce := p.nonce, host := p.host, peerIp := p.ip, peerPort := p.port
                            arrival := arrival, deadline := dl, block := fieldAt bk (32 * w + 8) 8, blen := fieldAt bk (32 * w + 0x10) 4
                            tag := fieldAt bk (32 * w + 0x16) 2, version := fieldAt bk (32 * w + 0x18) 8, bucket := b, adm := s.eng.adm }
          let s := bump 0x7001 0 1 s
          let s := putSession p.session 0x30 (leBytes 4 (sessField s p.session 0x30 4 + 1)) s
          closeFull (setEngine { s.eng with openB := s.eng.openB ++ [q], adm := s.eng.adm + 1
                                            openAt := if s.eng.openB.isEmpty then engNow s else s.eng.openAt } s)

/-- One record admitted or answered, by the first case of R322 that applies. -/
def admitRec (p : Peer10) (rec : List Byte) (arrival : Nat) (fs : List LineFind) (s : State) : State :=
  if s.eng.state ≤ 1 then ownReply p rec 8 s
  else if badRecord rec then ownReply p rec 5 s
  else if fieldAt rec 0 1 = 3 then admitOpen p rec fs s
  else
    match readSession p.session fs s with
    | (none, s) => ownReply p rec 4 (loseSession p.session s)
    | (some e, s) =>
      if !sessionOk p e then ownReply p rec 4 s
      else
        let s := putSession p.session 0x28 (leBytes 8 (engNow s)) s
        if fieldAt rec 0 1 = 5 then ownReply p rec 0 s
        else if fieldAt rec 0 1 = 4 then ownReply p rec 0 (closeSession p.session s)
        else admitKey p e rec arrival fs s

/-! ## Frames (R312) -/

/-- A frame that is not a request. -/
def badFrame (bs : List Byte) : Bool :=
  let n := fieldAt bs 2 1
  let recs := chunks 128 64 (bs.drop 16)
  let opens := recs.all (fun r => fieldAt r 0 1 == 3)
  decide (bs.length < 16) || fieldAt bs 0 1 != 1 || fieldAt bs 1 1 != 1 || decide (n < 1 ∨ 128 < n) || fieldAt bs 3 1 != 0
    || fieldAt bs 12 4 != 0 || bs.length != 16 + 64 * n || (!opens && decide (2 ^ 20 ≤ fieldAt bs 4 4))

/-- The records of a frame admitted in order; a frame that is not a request is discarded and counted. -/
def takeFrame (host : Bool) (ip port : Nat) (bs : List Byte) (fs : List LineFind) (s : State) : State :=
  if badFrame bs then bump 0x7003 0 1 (if host then setEngine { s.eng with hostOut := s.eng.hostOut - 1 } s else s)
  else
    let p : Peer10 := ⟨fieldAt bs 4 4 % 2 ^ 20, fieldAt bs 8 4, host, ip, port⟩
    let arrival := engNow s
    (chunks 128 64 (bs.drop 16)).foldl (fun s rec => admitRec p rec arrival fs s) s

/-- The engine's hub runs. -/
def engRuns (s : State) : Bool := running s

/-- The bytes of an Ethernet frame that carries a datagram from a peer. -/
def requestBytes (s : State) (ip n : Nat) : Nat :=
  14 + 4 + (if bitN (cfgEff s 5 0) 19 then 4 else 0) + (if isV6 (beBytes 16 ip) then 40 else 20) + 8 + n

/-- REQUEST_FRAME (R311, R312): a datagram at REQ_PORT by an Ethernet port with its link, be it draining. -/
def requestFrameEff (port ip peerPort : Nat) (bs : List Byte) (fs : List LineFind) (s : State) : State :=
  if !engRuns s || decide (16 ≤ port) || (portOf s port).mode == 0 || !(portOf s port).link then s
  else
    let n := requestBytes s ip bs.length
    takeFrame false ip peerPort bs fs (bump 0x6002 port (ceilDiv n 64) (modTel port (fun t => { t with rx := t.rx + n }) s))

/-- The reply ring has room for a reply to each host request taken and not answered, and to one more (R315). -/
def ringRoom (s : State) : Bool :=
  let idx (i : Nat) : Nat := getNum s.mem.m (ringCtl s i) 8
  decide ((idx 2 + 2 ^ 64 - idx 3) % 2 ^ 64 + s.eng.hostOut < 32768)

/-- One record whose OP the row names; by the host ring only while HOST_EN is 1 and the reply ring has room (R315). -/
def recordRow (op : Nat) (host : Bool) (ip port session nonce : Nat) (rec : List Byte) (fs : List LineFind) (s : State) : State :=
  if !engRuns s || fieldAt rec 0 1 != op || (host && !(hostEn s && ringRoom s)) then s
  else admitRec ⟨session % 2 ^ 20, nonce % 2 ^ 32, host, ip, port⟩ rec (engNow s) fs
    (if host then setEngine { s.eng with hostOut := s.eng.hostOut + 1 } s else s)

def openEff (host : Bool) (ip port session nonce : Nat) (rec : List Byte) (fs : List LineFind) (s : State) : State :=
  recordRow 3 host ip port session nonce rec fs s
def closeEff (host : Bool) (ip port session nonce : Nat) (rec : List Byte) (fs : List LineFind) (s : State) : State :=
  recordRow 4 host ip port session nonce rec fs s
def pingEff (host : Bool) (ip port session nonce : Nat) (rec : List Byte) (fs : List LineFind) (s : State) : State :=
  recordRow 5 host ip port session nonce rec fs s
def inferEff (host : Bool) (ip port session nonce : Nat) (rec : List Byte) (fs : List LineFind) (s : State) : State :=
  recordRow 1 host ip port session nonce rec fs s
def updateEff (host : Bool) (ip port session nonce : Nat) (rec : List Byte) (fs : List LineFind) (s : State) : State :=
  recordRow 2 host ip port session nonce rec fs s

/-! ## The host ring (R315) -/

/-- Entries of the request ring taken, at most `fuel`, while the reply ring has room for a reply to each request not yet answered. -/
def takeRing (fuel : Nat) (fs : List LineFind) (s : State) : State :=
  match fuel with
  | 0 => s
  | f + 1 =>
    let idx (i : Nat) : Nat := getNum s.mem.m (ringCtl s i) 8
    let cons := idx 1
    if idx 0 = cons ∨ ringRoom s = false then s
    else
      let (x, s) := bufRead (reqEntry s cons) 80 fs s
      let s := areaWrite (ringCtl s 1) (leBytes 8 ((cons + 1) % 2 ^ 64)) s
      let s := match x with
        | .data bs => takeFrame true 0 0 bs fs (setEngine { s.eng with hostOut := s.eng.hostOut + 1 } s)
        | .bad _ => bump 0x7003 0 1 s
      takeRing f fs s

/-- HOST_RING_PIP: the engine takes pip 31 and serves the ring while HOST_EN is 1. -/
def hostRingPipEff (fs : List LineFind) (s : State) : State :=
  if !engRuns s || !hostEn s || !s.hp.h2dPending.getLsbD 31 || !areaOk s then s
  else takeRing 32768 fs { s with hp := { s.hp with h2dPending := s.hp.h2dPending &&& 0x7FFFFFFF#32 } }

/-! ## Batches (R323 to R326) -/

/-- The open batch is to close now (R323): its span has passed, it is full, or EST is not 0 and its earliest deadline less EST less 3 µs is reached. -/
def closesNow (s : State) : Bool :=
  let g := engNow s
  decide (s.eng.openAt + usGrains (spanUs s) ≤ g) || decide (batchMax s ≤ s.eng.openB.length)
    || (estUs s != 0 && s.eng.openB.any (fun q => decide (q.deadline ≤ g + usGrains (estUs s + 3))))

/-- BATCH_CLOSE (R323). -/
def batchCloseEff (s : State) : State := if closesNow s then closeBatch s else s

/-- The header, the entries and the replies of a batch written into its slot (R325). -/
def writeSlot (n k : Nat) (b : EBatch) (s : State) : State :=
  let a := slotAddr s k
  let early := (b.reqs.map (·.deadline)).foldl min ((b.reqs.map (·.deadline)).headD 0)
  let hdr := leBytes 8 n ++ leBytes 4 b.reqs.length ++ leBytes 4 0 ++ leBytes 8 b.closedAt ++ leBytes 8 early ++ leBytes 32 0
  let ent (q : EReq) : List Byte := q.recd ++ leBytes 8 q.block ++ leBytes 4 q.blen ++ leBytes 2 q.tag ++ leBytes 2 0 ++ leBytes 8 q.version
    ++ leBytes 8 q.deadline ++ leBytes 4 q.session ++ leBytes 28 0
  let s := (bufWrite a hdr s).2
  let s := (b.reqs.zipIdx).foldl (fun s q => (bufWrite (a + 0x1000 + 128 * q.2) (ent q.1) s).2) s
  (b.reqs.zipIdx).foldl (fun s q => (bufWrite (a + 0x81000 + 64 * q.2 + 1) [9] s).2) s

/-- The PUT_SIGNAL that tells the plan of a batch (R325), as a descriptor of R268. -/
def dispatchDesc (p : Part) : List Byte :=
  [3, 0, 0, 0] ++ leBytes 4 1 ++ leBytes 8 0 ++ leBytes 8 0 ++ leBytes 4 0 ++ leBytes 4 0 ++ leBytes 8 (dispatchAddr p) ++ leBytes 8 1
    ++ leBytes 16 0

/-- BATCH_DISPATCH (R323 to R325): the waiting batch goes to its slot. -/
def batchDispatchEff (s : State) : State :=
  let pt := enginePart s
  let k := s.eng.next % inflight s
  match s.eng.closedB, part s pt, engineQueue s with
  | some b, some p, some hq =>
    let keys (l : List EReq) : List Nat := l.map (fun q => fieldAt q.recd 8 8)
    let busy := s.eng.slots.any (fun x => (keys x.2.reqs).any (fun i => (keys b.reqs).contains i))
    if s.eng.state ≠ 3 ∨ (mfind s.eng.slots k).isSome ∨ busy = true then s
    else
      let late (q : EReq) : Bool := estUs s != 0 && decide (q.deadline < engNow s + usGrains (estUs s))
      let s := (b.reqs.filter late).foldl (fun s q => answerReq q 1 s) s
      let rest := b.reqs.filter (fun q => !late q)
      if rest.isEmpty then closeFull (setEngine { s.eng with closedB := none } s)
      else
        let b := { b with reqs := rest, n := s.eng.next }
        let s := writeSlot s.eng.next k b s
        let s := setEngine { s.eng with closedB := none, slots := mset s.eng.slots k b, next := s.eng.next + 1 } s
        closeFull (enginePost hq (s.eng.next % clearTag) (dispatchDesc p) s)
  | _, _, _ => s

/-- The reply of one record of a returned batch (R326, R327): STATUS and RESULT. -/
def slotReply (k i : Nat) (fs : List LineFind) (s : State) : (Nat × List Byte) × State :=
  let a := slotAddr s k + 0x81000 + 64 * i
  let fault (c : Nat) (s : State) : (Nat × List Byte) × State := ((7, []), emit 0x64 Ev.engDirFault [k, c] s)
  match hubRead a fs s with
  | (.poison _, s) => fault 0 s
  | (.fenced, s) => fault 1 s
  | (.data bs, s) => ((fieldAt bs 1 1, bs.drop 16), s)

/-- The first PLAN_ERROR that replaces a reserved STATUS in a second is reported (R326). -/
def planErrorEvent (n : Nat) (s : State) : State :=
  if s.eng.errSec = some (secondOf (hubGtc s)) then s
  else emit 0x64 Ev.engPlanError [n, s.eng.errLog.length] (setEngine { s.eng with errSec := some (secondOf (hubGtc s)) } s)

/-- One record of a returned batch answered; a result for a request already answered is discarded and counted (R324). -/
def returnOne (k n : Nat) (fs : List LineFind) (s : State) (q : EReq × Nat) : State :=
  if hasReply s q.1 then bump 0x7004 0 1 s
  else
    let ((st, res), s) := slotReply k q.2 fs s
    let bad := decide (0x0A ≤ st ∧ st < 0x80)
    let s := if st = 7 ∧ res = [] then answerReq q.1 7 s
      else sessionAnswered q.1 (sendReply (peerOfReq q.1) q.1.recd (if bad then 9 else st) res s)
    if bad then planErrorEvent n s else s

/-- BATCH_RETURN (R326): a batch that has been signalled is read, answered and its slot freed. -/
def batchReturnEff (fs : List LineFind) (s : State) : State :=
  match s.eng.returned with
  | [] => s
  | k :: rest =>
    match mfind s.eng.slots k with
    | none => setEngine { s.eng with returned := rest } s
    | some b =>
      let s := (b.reqs.zipIdx).foldl (returnOne k b.n fs) s
      setEngine { s.eng with returned := rest, slots := mdel s.eng.slots k } s

/-- DEADLINE_MISS (R324): every request whose deadline has passed without a reply is answered. -/
def deadlineMissEff (s : State) : State :=
  let g := engNow s
  let due (q : EReq) : Bool := decide (q.deadline ≤ g) && !q.answered
  let s := ((heldReqs s.eng).filter due).foldl (fun s q => answerReq q 1 s) s
  setEngine (markHeld (fun q => decide (q.deadline ≤ g)) s.eng) s

/-- SESSION_IDLE_TIMEOUT (R317): the closure is counted. -/
def sessionIdleTimeoutEff (n : Nat) (fs : List LineFind) (s : State) : State :=
  if s.eng.state ≤ 1 ∨ 2 ^ 20 ≤ n then s
  else match readSession n fs s with
    | (none, s) => loseSession n s
    | (some e, s) =>
      if fieldAt e 0 1 = 1 ∧ fieldAt e 0xC 4 ≠ 0 ∧ fieldAt e 0x30 4 = 0 ∧ fieldAt e 0x28 8 + 16000000 * fieldAt e 0xC 4 ≤ engNow s then
        putSession n 0 [0] (setEngine { s.eng with idleClosed := s.eng.idleClosed + 1 } s)
      else s

/-! ## Commands (spec/12 R368) -/

/-- KEY of a command's first two words. -/
def keyArg (r : Req) (i : Nat) : Nat := argN r i + 2 ^ 32 * argN r (i + 1)
/-- The DETAIL of FAILED for a cause of R327. -/
def causeDetail (c : Nat) : Nat := if c = 0 then 0xF0 else 0xF1

/-- A bucket written at the moment M; the ticket waits for the requests admitted before it (R320). -/
def dirWrite (t b off : Nat) (bs : List Byte) (ws : List Word32) (s : State) : CmdOut :=
  match bufWrite (bucketAddr s b + off) bs s with
  | (some d, s) => .fail s stFailed d
  | (none, s) =>
    let s := bucketPatch b off bs s
    let s := if bs.length = 128 then engMended (2 * b) (engMended (2 * b + 1) s) else s
    .later (setEngine { s.eng with adm := s.eng.adm + 1, dirs := s.eng.dirs ++ [(t, s.eng.adm, ws)] } s)

/-- ENG_DIR_PUT (R319, R320). -/
def engDirPutEff (r : Req) (fs : List LineFind) : State → State := runCmd 0x0600 r (fun s t =>
  let key := keyArg r 0
  let block := keyArg r 2
  let blen := argN r 4
  if block % 64 ≠ 0 || !inHbm s.pkg.part block blen then .bad stBadArg 2
  else if blen % 64 ≠ 0 ∨ blen < 64 ∨ 16777216 < blen then .bad stBadArg 4
  else if !areaOk s then .bad stState 0
  else
    let b := bucketOf key
    match readBucket b fs s with
    | (.inr c, s) => .fail s stFailed (causeDetail c)
    | (.inl bk, s) =>
      match (wayOf bk key).or (freeWay bk) with
      | none => .fail s stNoSpace 0
      | some w =>
        let v := (fieldAt bk (32 * w + 0x18) 8 + 1) % 2 ^ 64
        dirWrite t b (32 * w) (leBytes 8 key ++ leBytes 8 block ++ leBytes 4 blen ++ leBytes 2 1 ++ leBytes 2 (argN r 5) ++ leBytes 8 v)
          (wordsOf 2 v) s)

/-- ENG_DIR_DELETE (R319, R320). -/
def engDirDeleteEff (r : Req) (fs : List LineFind) : State → State := runCmd 0x0601 r (fun s t =>
  let key := keyArg r 0
  if !areaOk s then .bad stState 0
  else
    let b := bucketOf key
    match readBucket b fs s with
    | (.inr c, s) => .fail s stFailed (causeDetail c)
    | (.inl bk, s) =>
      match wayOf bk key with
      | none => .fail s stNotFound 0
      | some w =>
        let e := (bk.drop (32 * w)).take 32
        let v := (fieldAt e 0x18 8 + 1) % 2 ^ 64
        dirWrite t b (32 * w) (e.take 0x14 ++ leBytes 2 0 ++ (e.drop 0x16).take 2 ++ leBytes 8 v) [] s)

/-- ENG_DIR_GET (R319). -/
def engDirGetEff (r : Req) (fs : List LineFind) : State → State := runCmd 0x0602 r (fun s _ =>
  let key := keyArg r 0
  if !areaOk s then .bad stState 0
  else match readBucket (bucketOf key) fs s with
    | (.inr c, s) => .fail s stFailed (causeDetail c)
    | (.inl bk, s) =>
      match wayOf bk key with
      | none => .fail s stNotFound 0
      | some w => .ok s ((List.range 8).map (fun i => BitVec.ofNat 32 (fieldAt bk (32 * w + 4 * i) 4))))

/-- The VERSIONs of a bucket, where it can be read. -/
def versions (b : Nat) (s : State) : Option (List Nat) :=
  let a := bucketAddr s b
  if (heldBucket s b).isNone && (isPoison s.mem.m a || isPoison s.mem.m (a + 64)) then none
  else some ((List.range 4).map (fun i => fieldAt (bucketBytes s b) (32 * i + 0x18) 8))

/-- ENG_BUCKET_CLEAR: the bucket written whole with four ways that are not VALID, each VERSION incremented where it can be read (R319); the rest of each
way is free (log 8). -/
def engBucketClearEff (r : Req) : State → State := runCmd 0x0603 r (fun s t =>
  if !areaOk s then .bad stState 0
  else
    let (bs, s) := drawBytes 128 s
    let ver (i : Nat) : List Byte := match versions (argN r 0) s with
      | some l => leBytes 8 (l.getD i 0 + 1)
      | none => (bs.drop (32 * i + 0x18)).take 8
    let way (i : Nat) : List Byte := ((bs.drop (32 * i)).take 0x14) ++ [0, 0] ++ ((bs.drop (32 * i + 0x16)).take 2) ++ ver i
    dirWrite t (argN r 0) 0 (way 0 ++ way 1 ++ way 2 ++ way 3) [] s)

/-- The entry of a session for a command: what the cache holds, or the line of the table; one of a reserved STATE counts as poisoned (R316). -/
def readEntry (n : Nat) (fs : List LineFind) (s : State) : LineOut × State :=
  match cached s n with
  | some e => (.data e.bytes, s)
  | none => match hubRead (sessAddr s n) fs s with
    | (.data bs, s) => (if 2 < fieldAt bs 0 1 then .poison bs else .data bs, s)
    | r => r

/-- ENG_SESSION_READ (R316). -/
def engSessionReadEff (r : Req) (fs : List LineFind) : State → State := runCmd 0x0604 r (fun s _ =>
  if !areaOk s then .bad stState 0
  else match readEntry (argN r 0) fs s with
    | (.data bs, s) => .ok s ((List.range 13).map (fun i => BitVec.ofNat 32 (fieldAt bs (4 * i) 4)))
    | (.poison _, s) => .fail s stFailed 0xF0
    | (.fenced, s) => .fail s stFailed 0xF1)

/-- ENG_SESSION_CLOSE acts as a CLOSE record (R317). -/
def engSessionCloseEff (r : Req) (fs : List LineFind) : State → State := runCmd 0x0605 r (fun s _ =>
  let n := argN r 0
  if !areaOk s then .bad stState 0
  else match readEntry n fs s with
    | (.data bs, s) => if fieldAt bs 0 1 = 0 then .fail s stState 0 else .ok (if fieldAt bs 0 1 = 1 then closeSession n s else s) []
    | (.poison _, s) => .fail s stFailed 0xF0
    | (.fenced, s) => .fail s stFailed 0xF1)

end Sys2Proof.Machine
end

