-- ==== Sys2Proof/Machine/FabRows.lean ====
section
/-! DEFINITION. FabRows.lean: fabric packets that arrive, acknowledgements, retransmission, rates, and the Ethernet ports (spec/09 R279 to
R292, R297, R298, R304). -/
namespace Sys2Proof.Machine

/-! ## Acknowledgements (R286) -/

/-- ACK_SEND_TIMEOUT (R286): 1 µs after the oldest unacknowledged arrival. -/
def ackSendTimeoutEff (pkg stream : Nat) (s : State) : State :=
  let pr := peerOf s pkg
  let r := rxOf pr stream
  if stream < 2 ∧ r.since.any (fun t => decide (t + 1000 ≤ s.now)) = true then sendAck pkg stream s else s

/-- Arrived SEQs that follow the cumulative one are taken into it. -/
def absorb (fuel : Nat) (r : RxStream) : RxStream :=
  match fuel with
  | 0 => r
  | f + 1 => if r.beyond.contains r.next then absorb f { r with next := (r.next + 1) % 2 ^ 32, beyond := dropEl r.beyond r.next } else r

/-- A packet's SEQ taken by its stream; true where it is new. -/
def takeSeq (r : RxStream) (seq : Nat) (ce : Bool) : Bool × RxStream :=
  let r := { r with arrivals := r.arrivals + 1, ce := r.ce + b2n ce }
  let d := (seq + 2 ^ 32 - r.next) % 2 ^ 32
  if 2 ^ 31 ≤ d ∨ r.beyond.contains seq then (false, r)
  else (true, absorb (r.beyond.length + 1) { r with beyond := r.beyond ++ [seq] })

/-! ## Arrival (R279, R292) -/

/-- A pause or a resume of a priority sent by a port (R292): kind 8, the priority, 1 pause. -/
def pauseFrame (port prio : Nat) (pause : Bool) (s : State) : State :=
  let p := portOf s port
  let bits := if pause then p.pauseSent ||| 2 ^ prio else if bitN p.pauseSent prio then p.pauseSent - 2 ^ prio else p.pauseSent
  send (.fabric port 0 8 [prio, b2n pause] []) (modTel port (fun t => { t with tx := t.tx + 64 }) (setPort port { p with pauseSent := bits } s))

/-- A port pauses and resumes a priority as its receive buffer fills and empties (R292). -/
def pauseSend (a : Arr) (prio : Nat) (s : State) : State :=
  let sent := bitN (portOf s a.port).pauseSent prio
  if !pfcEn s prio || prio == 7 then s
  else if decide (1572864 < a.rxBuf) && !sent then pauseFrame a.port prio true s
  else if decide (a.rxBuf < 1048576) && sent then pauseFrame a.port prio false s
  else s

/-- Receive buffers empty while no frame arrives (R292): at a tick a paused priority of a port may have fallen below its resume level, which is a free
choice (log 42). -/
def pauseTick (s : State) : State :=
  s.fab.ports.foldl (fun s q => (onesOf 8 q.2.pauseSent).foldl (fun s prio =>
    let (b, s) := drawBit s
    if b then pauseFrame q.1 prio false s else s) s) s

/-- A frame that the receiving hub discards (R279). -/
def frameBad (p : FabPkt) (a : Arr) (s : State) : Bool :=
  a.udp != fabPort s || !a.ok || p.reserved != 0 || p.ver != 1 || p.type == 0 || decide (7 < p.type) || p.flags / 32 != 0
    || decide (4 < p.chan) || decide (31 < p.dstEp) || decide (31 < p.srcEp) || p.dstPkg != ownPkg s || (addrOf s p.srcPkg).isNone || a.stale

/-- A frame arrives at a port: counted, and discarded or passed on at a packet boundary (spec/00 R12). -/
def frameIn (p : FabPkt) (a : Arr) (s : State) : Bool × State :=
  let port := portOf s a.port
  if 16 ≤ a.port ∨ port.mode = 0 ∨ !port.link then (false, s)
  else
    let n := frameBytes s p
    let s := pauseSend a (prioOf (classOf p)) (bump 0x6002 a.port (ceilDiv n 64)
      (modTel a.port (fun t => { t with rx := t.rx + n, ce := t.ce + b2n a.ce }) s))
    if frameBad p a s then (false, bump 0x6004 a.port 1 (modTel a.port (fun t => { t with drop := t.drop + 1 }) s))
    else (true, packetBoundary s)

/-- A packet of a stream arrives (R285, R286): new, or a duplicate, which is acknowledged again. -/
def streamIn (p : FabPkt) (a : Arr) (s : State) : Bool × State :=
  let (ok, s) := frameIn p a s
  if !ok then (false, s)
  else
    let pr := peerOf s p.srcPkg
    let m := b2n (p.type == 7)
    let (new, r) := takeSeq (rxOf pr m) p.seq a.ce
    let r := { r with since := r.since.or (some s.now) }
    let s := setPeer p.srcPkg (setRx pr m r) s
    (new, if 64 ≤ r.arrivals then sendAck p.srcPkg m s else s)

/-- A frame of another type than a row takes changes nothing by that row; one of a reserved TYPE is discarded and counted (R279). -/
def otherType (p : FabPkt) (a : Arr) (s : State) : State := if p.type = 0 ∨ 7 < p.type then (frameIn p a s).2 else s

/-- The partition whose ACTIVE job a DATA, READ or BARRIER names; otherwise it counts as stale (R279). -/
def jobIn (p : FabPkt) (a : Arr) (s : State) : Option Nat × State :=
  match partOfJob s p.job with
  | some pt => if (job s pt).state = 1 then (some pt, s) else (none, bump 0x6005 a.port 1 s)
  | none => (none, bump 0x6005 a.port 1 s)

/-! ## Packets -/

/-- FAB_DATA (R283, R294): `grp` is the group of an MCAST copy. TORN packets are discarded (R299), and nothing follows for a fenced
endpoint (R289). -/
def fabDataEff (p : FabPkt) (a : Arr) (grp : Nat) (s : State) : State :=
  if p.type ≠ 1 then otherType p a s
  else
    let (new, s) := streamIn p a s
    if !new then s
    else
      let (pt, s) := jobIn p a s
      match pt with
      | none => s
      | some pt =>
        if bitN p.flags 4 then s
        else if bitN p.flags 2 then
          match groupOf s pt grp with
          | none => bump 0x6006 0 1 s
          | some g => if g.root ∨ g.parent ≠ p.srcPkg then bump 0x6006 0 1 s else recvPair pt grp p s
        else if epFenced s p.dstEp then s
        else recvPair pt 0 p s

/-- FAB_READ (R282). -/
def fabReadEff (p : FabPkt) (a : Arr) (s : State) : State :=
  if p.type ≠ 2 then otherType p a s
  else
    let (new, s) := streamIn p a s
    if !new then s
    else
      let (pt, s) := jobIn p a s
      match pt with
      | none => s
      | some pt => if bitN p.flags 4 || epFenced s p.dstEp then s else recvPair pt 0 p s

/-- FAB_READ_DATA (R278). -/
def fabReadDataEff (p : FabPkt) (a : Arr) (s : State) : State :=
  if p.type ≠ 3 then otherType p a s
  else
    let (new, s) := streamIn p a s
    if new && !bitN p.flags 4 then recvReadData p s else s

/-- FAB_COMPLETE (R283, R296). -/
def fabCompleteEff (p : FabPkt) (a : Arr) (s : State) : State :=
  if p.type ≠ 4 then otherType p a s
  else
    let (new, s) := streamIn p a s
    if new && !bitN p.flags 4 then recvComplete p s else s

/-- FAB_BARRIER (R297). -/
def fabBarrierEff (p : FabPkt) (a : Arr) (s : State) : State :=
  if p.type ≠ 6 then otherType p a s
  else
    let (new, s) := streamIn p a s
    if !new then s
    else
      let (pt, s) := jobIn p a s
      match pt with
      | none => s
      | some pt => if bitN p.flags 4 then s else fabBarrier pt p.srcPkg p.payload s

/-- FAB_MGMT (R298): the message that the packet carries is taken once. -/
def fabMgmtEff (p : FabPkt) (a : Arr) (m : FmMsg) (isAnswer : Bool) (s : State) : State :=
  if p.type ≠ 7 then otherType p a s
  else
    let (new, s) := streamIn p a s
    if new then fmMessageEff m isAnswer s else s

/-! ## Reports of the worker (spec/12 R370) -/

/-- A package's report of its path to another (R289): the target is judged dead where its heartbeats are unanswered, or the path of another package
to it has FAILED too. How many paths show a package dead is DESIGN CHOICE, log 41. -/
def pathReport (rep dst : Nat) (failed : Bool) (s : State) : State :=
  let l := mget s.pod2.pathFails [] dst
  let l := if failed then addOnce l rep else dropEl l rep
  let s := { s with pod2 := { s.pod2 with pathFails := mset s.pod2.pathFails dst l } }
  if failed && (decide (5 ≤ mget s.pod.missed 0 dst) || l.any (· != rep)) then packageDead dst s else s

/-- A report to the manager, in this package's own FM_SEQ series. -/
def sendReport (op : Nat) (args : List Nat) (s : State) : State :=
  let x := fmWire s s.pod.ownFmSeq.toNat op args []
  send (.worker s.pod.managerPkg.toNat s.pod.ownFmSeq.toNat op args x)
    (sendMgmt s.pod.managerPkg.toNat x { s with pod := { s.pod with ownFmSeq := s.pod.ownFmSeq + 1 } })

/-- The path event, and its report. -/
def pathEvent (failed : Bool) (pkg seq tried : Nat) (s : State) : State :=
  let s := emit fabSrc (if failed then Ev.fabPathFailed else Ev.fabPathRestored) [pkg, seq, tried] s
  if s.pod.podState = 0 then s
  else if s.pod.role = 1 then pathReport (ownPkg s) pkg failed s
  else sendReport 0x0810 [pkg, seq, tried, b2n failed] s

/-! ## Acknowledgement received, retransmission and rate (R286 to R291) -/

/-- SEQ `q` is covered by an ACK. -/
def covered (cum sack q : Nat) : Bool :=
  let d := (q + 2 ^ 32 - cum) % 2 ^ 32
  d == 0 || decide (2 ^ 31 ≤ d) || (decide (d ≤ 8192) && bitN sack (d - 1))

/-- ACK_TIMER in ns (R276). -/
def ackTimer (s : State) : Nat := 1000 * bitsN (cfgEff s 5 0) 43 5

/-- What a sender keeps unacknowledged of a stream: 0 data, 1 MGMT. -/
def unackedOf (pr : Peer) (stream : Nat) : List Unacked := if stream = 1 then pr.unackedM else pr.unackedD
def setUnacked (pr : Peer) (stream : Nat) (l : List Unacked) : Peer := if stream = 1 then { pr with unackedM := l } else { pr with unackedD := l }

/-- The oldest unacknowledged packet to a peer, with its stream, among the streams given (R288). -/
def oldestOf (pr : Peer) (streams : List Nat) : Option (Nat × Unacked) :=
  (streams.filterMap (fun i => ((unackedOf pr i).head?).map (fun u => (i, u)))).foldl (fun m q => match m with
    | none => some q
    | some x => if q.2.firstAt < x.2.firstAt then some q else some x) none

/-- The first SEQ that no cumulative acknowledgement covers, after one of CUM: it moves on within what has been sent (R285). -/
def cumAfter (cum old tx : Nat) : Nat :=
  let c := (cum + 1) % 2 ^ 32
  if (c + 2 ^ 32 - old) % 2 ^ 32 ≤ (tx + 2 ^ 32 - old) % 2 ^ 32 then c else old

/-- A peer after an ACK of a stream (R285, R288, R291): what it covers is no longer kept, the path works, RATE follows the CE count, and after a FAILED path
every packet has its retransmissions again. -/
def acked (pr : Peer) (stream cum sack c : Nat) (s : State) : Peer :=
  let un := unackedOf pr stream
  let left := un.filter (fun u => !covered cum sack u.p.seq)
  let n := un.length - left.length
  let cut := decide (0 < c ∧ 0 < n) && (match pr.cutAt with
    | none => true
    | some t => decide (t + ackTimer s ≤ s.now))
  let again (l : List Unacked) : List Unacked := if pr.failed then l.map (fun u => { u with tries := 0 }) else l
  let pr := setUnacked pr stream left
  { pr with rate := if cut then max 1600 (pr.rate * (2 * n - c) / (2 * n)) else pr.rate
            cutAt := if cut then some s.now else pr.cutAt
            ceAt := if 0 < c then s.now else pr.ceAt
            cumD := if stream = 1 then pr.cumD else cumAfter cum pr.cumD pr.txD
            cumM := if stream = 1 then cumAfter cum pr.cumM pr.txM else pr.cumM
            unackedD := again pr.unackedD
            unackedM := again pr.unackedM
            failed := false }

/-- FAB_ACK (R286, R288, R291). -/
def fabAckEff (p : FabPkt) (a : Arr) (s : State) : State :=
  if p.type ≠ 5 then otherType p a s
  else
    let (ok, s) := frameIn p a s
    let stream := fieldAt p.payload 6 1
    if !ok then s
    else if p.payload.length ≠ 1032 ∨ 1 < stream ∨ fieldAt p.payload 7 1 ≠ 0 ∨ p.seq ≠ 0 then
      bump 0x6004 a.port 1 (modTel a.port (fun t => { t with drop := t.drop + 1 }) s)
    else
      let pr := peerOf s p.srcPkg
      let cum := fieldAt p.payload 0 4
      let sack := fieldAt p.payload 8 1024
      let oldest := (oldestOf pr [0, 1]).map (·.2)
      let s := setPeer p.srcPkg (acked pr stream cum sack (fieldAt p.payload 4 2) s) s
      -- a RELEASE that a child has taken lets the next ply of its slot complete (spec/08 R256)
      let s := (((unackedOf pr stream).filter (fun u => covered cum sack u.p.seq && u.p.type == 6)).filterMap (fun u =>
          (partOfJob s u.p.job).map (fun pt => (pt, fieldAt u.p.payload 1 1)))).foldl (fun s q => retrySlot q.1 q.2 s) s
      flushPeer p.srcPkg (if pr.failed then
        pathEvent false p.srcPkg ((oldest.map (·.p.seq)).getD 0) ((oldest.map (·.tried)).getD 0) s else s)

/-- The descriptor of this package whose put a packet carries. -/
def sourceOf (s : State) (p : FabPkt) : Option (Nat × HubDesc) :=
  if p.type ≠ 1 then none
  else s.fab.descs.find? (fun q => q.2.job == p.job && q.2.up.isNone
    && ((q.2.op != 4 && q.2.dstPkg == p.dstPkg && q.2.dseq == p.dseq) || (q.2.op == 4 && mfind q.2.waitFor p.dstPkg == some p.dseq)))

/-- A packet of a put with its source memory read again (R272): at the die that posted it, or by the hub for a hub queue. -/
def reread (p : FabPkt) (s : State) : FabPkt × State :=
  match sourceOf s p with
  | none => (p, s)
  | some (k, d) =>
    if p.payload.isEmpty then (p, s)
    else
      let a := d.laddr + (p.addr - d.raddr)
      let ep := if d.hq.isNone ∧ d.src < 12 then d.src else 12
      let (bs, mask, s) := readRange ep a p.payload.length [] {} s
      ({ p with payload := bs, poison := mask },
        if rangeFenced s ep a p.payload.length then setHub k { d with status := joinStatus d.status 4 } s else s)

/-- A packet that a sender keeps of a stream is changed. -/
def modUnacked (pkg stream seq : Nat) (f : Unacked → Unacked) (s : State) : State :=
  let pr := peerOf s pkg
  setPeer pkg (setUnacked pr stream ((unackedOf pr stream).map (fun x => if x.p.seq = seq then f x else x))) s

/-- One packet sent again (R272, R280, R287, R290, R291): with its source read again, by an open port other than its last where there is one. It is
held while RATE or every port stops it. -/
def resend (pkg stream : Nat) (u : Unacked) (s : State) : State :=
  let ports := portsFor s pkg
  let cl := classOf u.p
  let ready := ports.filter (fun k => classOpen (portOf s k) cl)
  let others := ready.filter (fun k => k != u.port)
  let pick := match (if cl = 3 then leastBy (fun k => qAll (portOf s k)) others else others[Config.flowHash pkg cl % max 1 others.length]?) with
    | some k => some k
    | none => ready.head?
  if ports.isEmpty then modUnacked pkg stream u.p.seq (fun x => { x with tries := x.tries + 1, sentAt := s.now, held := false }) s
  else match (if rateHeld s (peerOf s pkg) cl then none else pick) with
    | none => modUnacked pkg stream u.p.seq (fun x => { x with held := true }) s
    | some k =>
      let (p, s) := reread u.p s
      let s := modUnacked pkg stream u.p.seq (fun x => { x with p := p, tries := x.tries + 1, port := k, tried := x.tried ||| 2 ^ k
                                                                sentAt := s.now, held := false }) s
      let s := setPeer pkg (charged p s (peerOf s pkg)) s
      emitFrame k { p with flags := p.flags ||| 8 } (bump 0x6003 k 1 (modTel k (fun t => { t with retx := t.retx + 1 }) s))

/-- A manager without its lease stops retransmitting MGMT packets (spec/14 R418). -/
def mgmtStopped (s : State) (stream : Nat) : Bool := stream == 1 && s.pod.role == 1 && !leaseLive s

/-- RETRANSMIT_TIMEOUT (R287, R288): the timer of a packet expires; the ninth marks the path FAILED. -/
def retransmitTimeoutEff (pkg stream seq : Nat) (s : State) : State :=
  let pr := peerOf s pkg
  match (unackedOf pr stream).find? (fun u => u.p.seq == seq) with
  | none => s
  | some u =>
    if pr.failed || u.held || mgmtStopped s stream || decide (s.now < u.sentAt + ackTimer s) then s
    else if u.tries < 8 then resend pkg stream u s
    else
      let o := ((oldestOf pr [0, 1]).map (·.2)).getD u
      pathEvent true pkg o.p.seq o.tried (setPeer pkg { pr with failed := true, probeAt := some s.now } s)

/-- PATH_PROBE (R288): each 1 ms the oldest packet alone is sent again on a FAILED path. -/
def pathProbeEff (pkg : Nat) (s : State) : State :=
  let pr := peerOf s pkg
  if !pr.failed || pr.probeAt.any (fun t => decide (s.now < t + 1000000)) then s
  else
    let s := setPeer pkg { pr with probeAt := some s.now } s
    match oldestOf pr (if mgmtStopped s 1 then [0] else [0, 1]) with
    | some (i, u) => resend pkg i u s
    | none => s

/-- Retransmissions that RATE or closed ports have held leave as they may. -/
def resendHeld (pkg : Nat) (s : State) : State :=
  if (peerOf s pkg).failed then s
  else [0, 1].foldl (fun s i => if mgmtStopped s i then s else ((unackedOf (peerOf s pkg) i).filter (·.held)).foldl (fun s u => resend pkg i u s) s) s

/-- RATE_INCREASE (R291): 10 µs without a CE mark from the peer. -/
def rateIncreaseEff (pkg : Nat) (s : State) : State :=
  let pr := peerOf s pkg
  if s.now < pr.ceAt + 10000 then s else flushPeer pkg (setPeer pkg { pr with rate := min 25600000 (pr.rate + 256000), ceAt := s.now } s)

/-! ## Ports (R281, R290, R292, R304) -/

/-- PFC_PAUSE_RECEIVED (R292): a pause or a resume of a priority, honoured where PFC_EN enables it. -/
def pfcPauseReceivedEff (port prio : Nat) (pause : Bool) (s : State) : State :=
  if 16 ≤ port ∨ 8 ≤ prio then s
  else
    let s := modTel port (fun t => { t with pause := t.pause + b2n pause, rx := t.rx + 64 }) s
    let p := portOf s port
    if !pfcEn s prio || prio == 7 then s
    else if pause then setPort port { p with paused := p.paused ||| 2 ^ prio } s
    else setPort port { p with paused := if bitN p.paused prio then p.paused - 2 ^ prio else p.paused } s

/-- EGRESS_FRAME_SENT (R290): the first frame of a class that is not paused leaves; thresholds reopen at half. -/
def egressFrameSentEff (port : Nat) (s : State) : State :=
  let p := portOf s port
  match p.queue.find? (fun q => !bitN p.paused (prioOf q.1)) with
  | none => s
  | some q =>
    if !p.link then s
    else
      let p := reThreshold { p with queue := p.queue.erase q }
      flushAll (bump 0x6001 port (ceilDiv q.2 64) (modTel port (fun t => { t with tx := t.tx + q.2 }) (setPort port p s)))

/-- A port goes down: the frames queued are lost, and count for a drain in progress (R281, R306). -/
def portLost (p : EthPort) : EthPort :=
  { reThreshold { p with queue := [] } with link := false, lost := p.lost + p.queue.length, paused := 0, pauseSent := 0 }

/-- DRAIN_COMPLETE (R281): the queue is empty, or 50 µs have passed. -/
def drainCompleteEff (port : Nat) (s : State) : State :=
  let p := portOf s port
  match p.draining with
  | none => s
  | some (t, c) =>
    if !p.queue.isEmpty && decide (s.now < t + 50000) then s
    else flushAll (emit fabSrc Ev.fabPortDrain [port, c, p.lost + p.queue.length]
      (setPort port { (portLost p) with draining := none, drained := true, drainCause := c } s))

/-- ETH_LINK_DOWN (R280, R281). -/
def ethLinkDownEff (port : Nat) (s : State) : State :=
  let p := portOf s port
  if !p.link then s else flushAll (setPort port (portLost p) s)

/-- ETH_LINK_UP (R177, R281): training completes. A port drained by command or for a removal stays out of service until it is returned. -/
def ethLinkUpEff (port : Nat) (s : State) : State :=
  let p := portOf s port
  if 16 ≤ port ∨ p.mode = 0 ∨ p.link ∨ 2 ≤ s.pkg.power ∨ (p.drained ∧ p.drainCause ≠ 1)
    ∨ (mget s.pho.cws {} port).failed then s
  else flushAll (setPort port { p with link := true, drained := false } s)

/-- LINK of a telemetry record. -/
def linkCode (p : EthPort) : Nat := if p.draining.isSome then 3 else if !p.link then 0 else if p.mode = 2 then 2 else 1

/-- The 64 bytes of a port's record (R304). -/
def telBytes (port : Nat) (s : State) : List Byte :=
  let t := mget s.fab.tel {} port
  let p := portOf s port
  let sat (n : Nat) : Nat := min n (2 ^ 32 - 1)
  let slow := (s.fab.peers.filter (fun q => decide (q.2.rate < 25600000))).length
  leBytes 8 (hubGtc s).toNat ++ leBytes 2 (ownPkg s) ++ leBytes 1 port ++ leBytes 1 (linkCode p) ++ leBytes 4 0
    ++ leBytes 8 (min t.tx (2 ^ 64 - 1)) ++ leBytes 8 (min t.rx (2 ^ 64 - 1)) ++ leBytes 4 (sat t.ce) ++ leBytes 4 (sat t.pause)
    ++ leBytes 4 (sat t.retx) ++ leBytes 4 (sat t.drop) ++ leBytes 4 (sat t.qmax) ++ leBytes 4 (sat (qAll p)) ++ leBytes 4 (sat t.stall)
    ++ leBytes 2 (min slow 65535) ++ leBytes 2 0

/-- TELEMETRY_RECORD (R304). -/
def telemetryRecordEff (port : Nat) (s : State) : State :=
  let t := mget s.fab.tel {} port
  if !running s || decide (16 ≤ port) || t.lastAt.any (fun x => decide (s.now < x + 1000000)) then s
  else
    let ring := t.ring ++ [telBytes port s]
    setFab { s.fab with tel := mset s.fab.tel port { ring := ring.drop (ring.length - 4096), lastAt := some s.now, qmax := qAll (portOf s port) } } s

/-- The ports for which a packet waits (R290): those closed to the class of a packet that waits for a peer, or of the head of a descriptor queue. -/
def waitsFor (s : State) (pkg cl : Nat) : List Nat :=
  let l := portsFor s pkg
  if cl = 3 then (if l.any (fun k => classOpen (portOf s k) 3) then [] else l)
  else ((flowPort s l pkg cl).filter (fun k => !classOpen (portOf s k) cl)).toList
/-- The ports for which a descriptor of a partition waits at the head of a queue. -/
def headWaits (s : State) (pt : Nat) (bs : List Byte) : List Nat :=
  let d := parseDesc bs
  let toPkg (pkg : Nat) : List Nat := if pkg = ownPkg s then [] else waitsFor s pkg (if dOrdered d then 2 else 3)
  if d.op = 4 then
    match groupOf s pt d.target with
    | none => []
    | some g => (g.children.filter (fun q => !pkgFenced s q.1)).flatMap (fun q => toPkg q.1)
  else match translate s (job s pt) d.target with
    | none => []
    | some (pkg, _) => toPkg pkg
def stalledPorts (s : State) : List Nat :=
  s.fab.peers.flatMap (fun q => q.2.waiting.flatMap (fun p => waitsFor s q.1 (classOf p)))
    ++ s.fab.dies.flatMap (fun e => e.2.queues.flatMap (fun q => match q.2, partOfStack s e.1 with
      | x :: _, some pt => headWaits s pt x.desc
      | _, _ => []))
    ++ s.fab.hqs.flatMap (fun q => match q.2.descs, q.2.owner with
      | (_, _, bs) :: _, some pt => headWaits s (if pt = 12 then enginePart s else pt) bs
      | _, _ => [])

/-- A tick of the fabric engine after the clocks have counted: MESH cycles of its rood are counted for the ports for which a packet waits (R304), and
packets that RATE has held leave as it lets them (R291), and receive buffers empty (R292). -/
def fabTick (a s : State) : State :=
  let n := (rood s siteKH 0).cyc.toNat - (rood a siteKH 0).cyc.toNat
  let s := pauseTick s
  let s := (stalledPorts s).eraseDups.foldl (fun s k => modTel k (fun t => { t with stall := t.stall + n }) s) s
  s.fab.peers.foldl (fun s q =>
    let s := if (q.2.unackedD ++ q.2.unackedM).any (·.held) then resendHeld q.1 s else s
    if q.2.waiting.isEmpty ∨ 25600000 ≤ q.2.rate then s else flushPeer q.1 s) s

/-- TEARDOWN_REPORT_TIMEOUT (R299): 10 ms after the teardown, the members that have not reported are fenced, and JOB_TORN is emitted. -/
def teardownReportTimeoutEff (id : Nat) (s : State) : State :=
  match mgrJob s id with
  | none => s
  | some j => match j.tearing with
    | none => s
    | some (_, l) =>
      if !mgrActs s || decide (s.now < j.tearAt + 10000000) then s
      else l.foldl (fun s p => packageDead p s) (jobTornNow id l.length s)

end Sys2Proof.Machine
end

