-- ==== Sys2Proof/Machine/House.lean ====
section
/-! DEFINITION. House.lean: the housekeeping round of a controller (spec/05 R171, R177;
spec/13 R389 to R396; log 23). -/
namespace Sys2Proof.Machine

/-- The highest reading of the working sensors of a die, where there is one. -/
def workMax (t : Therm) (temps : List (Option Int)) : Option Int :=
  ((List.range temps.length).filterMap (fun i => if t.broken.contains i then none else temps.getD i none)).foldl
    (fun (m : Option Int) x => match m with
      | none => some x
      | some y => some (if y < x then x else y)) none

/-- A round of an HBM4 stack: its own sensor against the mean of the two tile sensors nearest the stack (R392, R393). A stack that is powered down has none. -/
def hbmRound (m : Nat) (own a b : Option Int) (s : State) : State :=
  let k := 0xA0 + m
  if (therm s k).shutdown then s else
  let near : Option Int := match own, a, b with
    | some t, some x, some y => some (if 2 * t < x + y then (x + y + 1) / 2 else (x + y) / 2)
    | _, some x, none => some x
    | _, none, y => y
    | none, some x, _ => some x
  let s := judgeSensor k [own, near] s 0
  let mx := dieMax k (therm s k) [own]
  judgeDie k mx.1 0 s

/-- A tile sensor by number, where it works. -/
def tileSensor (s : State) (t : Nat) (temps : List (Option Int)) (i : Nat) : Option Int :=
  if (therm s (siteLT t)).broken.contains i then none else temps.getD i none

/-- What a tile's readings tell of its stacks and its memory group: sensors 8j to 8j + 7 lie under its stack j, and 24 + 2i and 25 + 2i are the
nearest to its HBM4 stack i. -/
def tileBeneath (t : Nat) (r : Round) (s : State) : State :=
  let b := (therm s (siteLT t)).broken
  let under (j : Nat) : Option Int :=
    workMax { broken := (b.filter (fun i => i / 8 == j)).map (· % 8) } ((r.temps.drop (8 * j)).take 8)
  let s := [0, 1, 2].foldl (fun s j => { s with pwr := { s.pwr with under := match under j with
    | some x => mset s.pwr.under (3 * t + j) x
    | none => mdel s.pwr.under (3 * t + j) } }) s
  (List.range r.temps2.length).foldl (fun s i =>
    hbmRound (4 * t + i) (r.temps2.getD i none) (tileSensor s t r.temps (24 + 2 * i)) (tileSensor s t r.temps (25 + 2 * i)) s) s

/-- The readings of a round, judged by the controller of a site. -/
def roundOf (site : Nat) (r : Round) (s : State) : State :=
  if site < 0x40 then
    let n := site - 0x20
    if !stackUp s n then s
    else
      let s := thermRound (0x80 + n) r.temps2 (thermRound site r.temps s)
      if !stackUp s n then s
      else
        let ks := workMax (therm s (0x80 + n)) r.temps2
        let s := crossCheck n ks (mfind s.pwr.under n) (therm s site).maximum r.draw s
        dieBudget n r.draw r.roodDraw s
  else if site ≤ siteLH then
    let t := site - 0x40
    if (mfind s.rel.tileF t).isSome then s
    else
      let s := { s with pwr := { s.pwr with tileTemps := mset s.pwr.tileTemps t r.temps } }
      let s := thermRound site r.temps s
      if 2 ≤ s.pkg.power ∨ (mfind s.rel.tileF t).isSome = true then s
      else
        let s := if t < 4 then tileBeneath t r s else s
        let s := r.combs.foldl (combRound t) s
        if t = 4 then r.cw.foldl cwRound s else s
  else
    let s := thermRound site r.temps s
    if 2 ≤ s.pkg.power then s else coolantRound r (nonKcRound r.draw s)

/-- HOUSEKEEPING_ROUND (R389): the round of the controller of a site, each 1 ms. -/
def housekeepingRoundEff (site : Nat) (r : Round) (s : State) : State :=
  if 2 ≤ s.pkg.power ∨ s.pkg.starting = true ∨ siteUp s site = false ∨ s.mp2.ctrlDown.contains site = true
      ∨ (mfind s.pwr.roundAt site).any (fun t => decide (s.now < t + 1000000)) = true then s
  else roundOf site r { s with pwr := { s.pwr with roundAt := mset s.pwr.roundAt site s.now } }

end Sys2Proof.Machine
end

