-- ==== Sys2Proof/Machine/PowerRows.lean ====
section
/-! DEFINITION. PowerRows.lean: the power states, the wake from DEEP, gated roods, and the controllers that fall silent (spec/13 R384 to R388;
spec/14 R405). -/
namespace Sys2Proof.Machine

/-! ## Power states (R384, R386, R388) -/

/-- One POWER_STATE that runs now; DEEP is refused while a job is held. In DEEP a wake begins. -/
def runPower (t target : Nat) (storeBad : List Nat) (s : State) : State :=
  let old := s.pkg.power
  if old = 2 then
    if target = 2 then finishTicket t stOK 0 [] s
    else { s with aon := { s.aon with wakeCause := 1 }, pkg := { s.pkg with transition := some (t, target) } }
  else if target = 2 then
    if anyJob s then finishTicket t stRefused 0 [] s else pwrState old 2 0 (finishTicket t stOK 0 [] (deepEnter storeBad s))
  else
    let s := { s with pkg := { s.pkg with power := target } }
    finishTicket t stOK 0 [] (if old = target then s else pwrState old target 0 s)

/-- The POWER_STATEs that wait run in order once no transition is in progress (at most `fuel`). -/
def drainPower (fuel : Nat) (s : State) : State :=
  match fuel with
  | 0 => s
  | fuel + 1 =>
    if s.pkg.transition.isSome then s
    else match s.pkg.waitingPower with
      | [] => s
      | (t, k) :: rest =>
        let (bad, s) := if k = 2 then drawStores s else ([], s)
        drainPower fuel (runPower t k bad { s with pkg := { s.pkg with waitingPower := rest } })

/-- POWER_STATE (R384, R386; spec/12 R368); `edge` where a WAKE_IN edge arrives while the package enters DEEP (R471), `storeBad` the tiles
whose calibration store cannot be written. -/
def powerStateEff (r : Req) (edge : Bool) (storeBad : List Nat) : State → State := runCmd 0x0B00 r (fun s t =>
  let k := argN r 0
  if k = 3 then .bad stBadArg 0
  else if s.pkg.transition.isSome then .later { s with pkg := { s.pkg with waitingPower := s.pkg.waitingPower ++ [(t, k)] } }
  else if k = 2 ∧ s.pkg.power < 2 ∧ anyJob s = true then .bad stRefused 0
  else
    let was := s.pkg.power
    let s := runPower t k storeBad s
    .later (if edge && k == 2 && decide (was < 2) then wakeAsked s else s))

/-- WAKE (R388): a package in DEEP whose wake no comparator holds powers up. The requested state is reached, and the second processor is the
standby. -/
def wakeEff (f : StartFind) (s : State) : State :=
  match s.pkg.transition with
  | none => s
  | some (t, k) =>
    if s.pkg.power ≠ 2 ∨ wakeHeld s = true then s
    else
      let s := { s with pkg := { s.pkg with power := k, transition := none, defCal := calDefaults s f.calBad }
                        mp := { s.mp with standbyOk := true, standbyReset := false, hbAat := s.now, hbBat := s.now }
                        mp2 := { s.mp2 with standbySince := some s.now, ctrlSeen := (sitesOf s.pkg.part).map (fun x => (x, s.now)) } }
      let s := startPorts f.portsBad (startHbm f.hbmBad (startPhotonics f (startClocks f.silent s)))
      let s := (f.silent.filter (fun x => x < siteLH && siteUp s x)).foldl (fun s x =>
        if x < 0x40 then fenceStack (x - 0x20) 6 s else fenceTile (x - 0x40) 6 s) s
      let s := ((List.range (stacksOf s.pkg.part)).filter (stackUp s)).foldl (fun s n => marginLoad n s) s
      let s := recompute (reportTrips s)
      drainPower 64 (finishTicket t stOK 0 [] (pwrState 2 k (if t = 2 ^ 16 then 1 else 0) s))

/-! ## Gated roods (R385) -/

/-- In IDLE the cluster roods of partitions with no plan RUNNING are gated, but those that an external access has ungated; in RUN none is. -/
def gateSettle (s : State) : State :=
  if s.pkg.power = 1 then
    s.parts.foldl (fun s q => (partStacks q.2).foldl (fun s n => (List.range 8).foldl (fun s c =>
      let r := rood s (siteKC n) c
      let g := q.2.plan != 2 && r.ungatedAt.isNone
      if r.gated = g then s else setRood s (siteKC n) c { r with gated := g }) s) s) s
  else if s.clk.roods.any (fun q => q.2.gated || q.2.ungatedAt.isSome) then
    { s with clk := { s.clk with roods := mmap s.clk.roods (fun _ r => { r with gated := false, ungatedAt := none }) } }
  else s

/-- ROOD_REGATE (R385): 100 µs without an external access. -/
def roodRegateEff (site id : Nat) (s : State) : State :=
  let r := rood s site id
  if isClusterRood site id && r.ungatedAt.any (fun t => decide (t + 100000 ≤ s.now)) then setRood s site id { r with ungatedAt := none } else s

/-! ## Controllers that fall silent (spec/14 R405; spec/12 R354) -/

/-- The unit of a controller fenced for cause 6. -/
def fenceUnit (site : Nat) (s : State) : State :=
  if site < 0x40 then fenceStack (site - 0x20) 6 s else if site < siteLH then fenceTile (site - 0x40) 6 s else s

/-- A controller whose unit is in service. -/
def ctrlOn (s : State) (site : Nat) : Bool :=
  decide (site ≤ siteLH) && siteUp s site && (if site < 0x40 then stackUp s (site - 0x20) else (mfind s.rel.tileF (site - 0x40)).isNone)

/-- CONTROLLER_UNRESPONSIVE: silent for 1 ms. Its firmware is reloaded; a second episode within 24 h fences the unit. -/
def controllerUnresponsiveEff (site : Nat) (s : State) : State :=
  if running s = false ∨ ctrlOn s site = false ∨ s.mp2.ctrlDown.contains site = true ∨ s.now < mget s.mp2.ctrlSeen 0 site + 1000000 then s
  else
    let again := (mfind s.mp2.episodes site).any (fun t => decide (s.now < t + 86400 * 10 ^ 9))
    let s := { s with mp2 := { s.mp2 with episodes := mset s.mp2.episodes site s.now } }
    if again && site != siteLH then fenceUnit site s else { s with mp2 := { s.mp2 with ctrlDown := s.mp2.ctrlDown ++ [site] } }

/-- CTRL_RESTART: the reload of a controller ends after `us` µs; it has succeeded where the controller answers (`answers`) within 100 ms and passes the
checks of R27. A unit fenced for cause 6 returns when a later restart succeeds (R404). -/
def ctrlRestartEff (site us : Nat) (answers : Bool) (s : State) : State :=
  let pass := answers && decide (us ≤ 100000) && (identFails s site).isNone
  let seen (s : State) : State := { s with mp2 := { s.mp2 with ctrlSeen := mset s.mp2.ctrlSeen site s.now } }
  let meas (s : State) : State := match parseManifest (bankOf s s.upd.bankActive) (kcRevs s) with
    | none => s
    | some m => measUnit m site 1 s
  if running s = false ∨ (s.upd.activation.bind (·.unit)) = some site then s
  else if s.mp2.ctrlDown.contains site then
    let s := { s with mp2 := { s.mp2 with ctrlDown := dropEl s.mp2.ctrlDown site }
                      obs := { s.obs with trace := mdel s.obs.trace site, paused := dropEl s.obs.paused site, notWritten := mdel s.obs.notWritten site } }
    if pass then initSides site (emitMp Ev.ctrlRestart [site, us] (releaseEvents site (meas (seen s))))
    else if site = siteLH then s
    else fenceUnit site (meas { s with evq := mmod s.evq {} site (fun q => { q with held := [] }) })
  else if !pass then s
  else if site < 0x40 then
    if mfind s.rel.stackF (site - 0x20) = some 6 ∧ (mfind s.rel.tileF ((site - 0x20) / 3)).isNone = true then
      returnStack (site - 0x20) (initSides site (emitMp Ev.ctrlRestart [site, us] (meas (seen s))))
    else s
  else if mfind s.rel.tileF (site - 0x40) = some 6 then returnTile (site - 0x40) (initSides site (emitMp Ev.ctrlRestart [site, us] (meas (seen s))))
  else s

/-! ## Restart after a shutdown for temperature (R391) -/

/-- The dies next to a stack or a tile: the others of the tile, and for a tile the other tiles. -/
def neighbours (s : State) (site : Nat) : List Nat :=
  if site < 0x40 then
    let t := (site - 0x20) / 3
    siteLT t :: ((List.range 3).map (fun i => siteKC (3 * t + i))).filter (fun k => k != site && stackUp s (k - 0x20))
  else siteLH :: ((List.range (tilesOf s.pkg.part)).map siteLT).filter (fun k => k != site && (mfind s.rel.tileF (k - 0x40)).isNone)

/-- A neighbour has read below its warning threshold less H for 1 s. -/
def coolFor (s : State) (k : Nat) : Bool := (therm s k).coolSince.any (fun t => decide (t + 1000000000 ≤ s.now))

/-- THERMAL_RESTART (R391): a stack or tile shut down for temperature, whose neighbours have stayed cool for 1 s; `answers` where its controller answers; it
must pass the start-up checks of R27. -/
def thermalRestartEff (site : Nat) (answers : Bool) (s : State) : State :=
  if running s = false ∨ answers = false ∨ (identFails s site).isSome = true ∨ (neighbours s site).all (coolFor s) = false then s
  else if site < 0x40 then
    if mfind s.rel.stackF (site - 0x20) = some 8 ∧ (mfind s.rel.tileF ((site - 0x20) / 3)).isNone = true then
      returnStack (site - 0x20) (initSides site (thermClear (0x60 + site) (thermClear site s)))
    else s
  else if mfind s.rel.tileF (site - 0x40) = some 8 then
    let t := site - 0x40
    let s := [0, 1, 2].foldl (fun s i => thermClear (0x80 + 3 * t + i) (thermClear (siteKC (3 * t + i)) s)) (thermClear site s)
    returnTile t ([0, 1, 2].foldl (fun s i => initSides (siteKC (3 * t + i)) s) (initSides site s))
  else s

/-! ## Configuration parity (spec/11 R335) -/

/-- A block enters its safe state: an access of the wide-value window in progress ends REFUSED; a cluster rood is to run at
1.0 GHz, and ROOD_FREQ then carries the cause last noted (DESIGN CHOICE, log 43: none of the causes of R242 is the safe state); the hub holds over. -/
def enterSafe (blk inst : Nat) (s : State) : State :=
  let s := { s with hl := { s.hl with safe := addOnce s.hl.safe (blk + 256 * inst) } }
  if blk = 1 ∧ wvBusy s = true then { s with hp := { s.hp with wvNext := 3#2 } }
  else if blk = 4 then
    let r := rood s (siteKC (inst / 8)) (inst % 8)
    setRood s (siteKC (inst / 8)) (inst % 8) { r with heldDiv := some 3 }
  else if blk = 6 then setSource s.clk.hub.src false s
  else s

/-- The block resumes with its register rewritten: a cluster rood returns to the frequency set. -/
def leaveSafe (blk inst : Nat) (s : State) : State :=
  let s := { s with hl := { s.hl with safe := dropEl s.hl.safe (blk + 256 * inst), rewrites := mdel s.hl.rewrites (blk + 256 * inst) } }
  if blk = 4 then
    let r := rood s (siteKC (inst / 8)) (inst % 8)
    let d := limitDiv r r.setDiv
    setRood s (siteKC (inst / 8)) (inst % 8) { r with heldDiv := if r.div = d ∧ r.loading = none then none else some d }
  else s

/-- A block that stays in its safe state: in a die, its stack or its tile is fenced with cause PARITY (spec/14 R403). -/
def safeStays (blk inst : Nat) (s : State) : State :=
  let s := { s with hl := { s.hl with rewrites := mset s.hl.rewrites (blk + 256 * inst) 2 } }
  if blk = 4 then fenceStack (inst / 8) 0x0A s else if blk = 7 then fenceTile inst 0x0A s else s

/-- PARITY_SWEEP (R335): the sweep, or a use, finds a mismatch in register `reg` of a block (its place in the table of safe states, and the unit: a
cluster as stack * 8 + cluster, a partition, a memory group), or none. The block is in its safe state until firmware has rewritten the register, within 100 µs at a
time left open (`parityTick`); `rewriteFails` is how many of the rewrites fail. -/
def paritySweepEff (found : Option (Nat × Nat × Nat)) (rewriteFails : Nat) (s : State) : State :=
  match found with
  | none => s
  | some (blk, inst, reg) =>
    if s.pkg.power == 3 || decide (7 < blk) || !s.mp.running then s else
      let (w, s) := drawWord (emitMp Ev.cfgParity [blk, reg] (enterSafe blk inst s))
      { s with hl := { s.hl with rewriting := mset s.hl.rewriting (blk + 256 * inst) (s.now + 1 + w.toNat % 100000, rewriteFails) } }

end Sys2Proof.Machine
end

