-- ==== Sys2Proof/Machine/XptRows.lean ====
section
/-! DEFINITION. XptRows.lean: flits and packets that arrive (spec/06 R183 to R200). The packet rows carry a packet as its flits gave it (log 9). -/
namespace Sys2Proof.Machine

/-! ## Flits (R183 to R186, R194, R195) -/

/-- A link header's fields (R185). -/
structure FlitHdr where
  seq : Nat
  ack : Nat
  ackk : Nat
  vc : Nat
  kind : Nat
  cvc : Nat
  ccnt : Nat
  shcnt : Nat

def flitHdr (bs : List Byte) : FlitHdr :=
  let w := leNat (bs.take 7)
  { seq := bitsN w 44 12, ack := bitsN w 32 12, ackk := bitsN w 30 2, vc := bitsN w 27 3, kind := bitsN w 24 3
    cvc := bitsN w 21 3, ccnt := bitsN w 13 8, shcnt := bitsN w 0 8 }

/-- Every slot holds four equal valid identity words (R186). -/
def isIdle (bs : List Byte) : Bool :=
  (List.range 16).all (fun i =>
    let w (j : Nat) : Nat := fieldAt bs (16 * i + 4 * j) 4
    identOk (BitVec.ofNat 32 (w 0)) && w 1 == w 0 && w 2 == w 0 && w 3 == w 0)

/-- A decoded flit that is whole: its bytes and whether it was corrected (R184). -/
def wholeFlit (bs : List Byte) : Option (List Byte × Bool) :=
  match Rs.decode bs with
  | none => none
  | some (m, c) =>
    let k := (flitHdr m).kind
    if (crc32 (m.take 247)).toNat = fieldAt m 247 4 ∧ 1 ≤ k ∧ k ≤ 3 then some (m, c) else none

/-- The receiver of a link sends a NAK that names the last flit it accepted; 16 within 10 µs retrain the ports that carry the bundle
(R194, R205). -/
def sendNak (k : Nat) (s : State) : State :=
  let l := linkOf s k
  let b := k / 2
  let ns := s.now :: l.naks.filter (fun t => decide (s.now < t + 10000))
  let full := decide (16 ≤ ns.length ∧ k % 2 = 0)
  let s := sendCtrl (mate k) 2 (setLink k { l with nak := true, naks := if full then [] else ns } s)
  if full then
    (bPorts b).foldl (fun s p => match carrier s p with
      | some q => retrain q (if bSrc b = portDie q then 1 else 0) 1 s
      | none => s) s
  else s

/-- A flit that cannot be used, or comes out of order: a NAK unless one is outstanding. -/
def refuseFlit (k : Nat) (s : State) : State := if (linkOf s k).nak then s else sendNak k s

/-- An endpoint number that R22 names. -/
def epOk (e : Nat) : Bool := decide (e ≤ 12) || (decide (16 ≤ e) && decide (e < 20))
/-- The virtual channels of an operation (R188, R191). -/
def vcClass (op vc : Nat) : Bool :=
  match op with
  | 1 => decide (vc ≤ 5)
  | 2 => decide (vc ≤ 5)
  | 3 => vc == 6
  | 4 => decide (vc ≤ 1)
  | 5 => vc == 6
  | 6 => decide (vc ≤ 1)
  | 7 => decide (vc ≤ 6)
  | 8 => vc == 7
  | _ => false

/-- A BARRIER packet that is none of spec/08 R258. -/
def barrierBad (p : OPkt) : Bool := p.len != 16 || p.addr != 0 || p.arg != 0 || barrierPayloadBad p.payload

/-- The packet is rejected (R189; spec/08 R258; spec/09 R274). A READ or a SIGNAL with a payload is malformed, since its operation has none (DESIGN CHOICE, log 49: R189 does
not name it). -/
def pktBad (p : OPkt) : Bool :=
  p.op == 0 || decide (8 < p.op) || p.reserved != 0 || decide (8 ≤ p.flags) || !epOk p.dst || !epOk p.final || !epOk p.src
    || decide (2 ^ 13 ≤ p.dmask) || (bitN p.flags 0 && p.dmask == 0) || (!bitN p.flags 1 && p.final != p.dst)
    || !(decide (p.part ≤ 11) || p.part == 0xFF) || decide (4096 < p.len) || !vcClass p.op p.vc || p.flits != flitsOf p.len
    || p.payload.length != p.len || (p.op == 1 && p.arg != 0) || (p.op == 2 && (decide (4096 < p.arg) || p.len != 0)) || (p.op == 4 && p.len != 0)
    || (p.op == 6 && barrierBad p) || (p.op == 7 && (p.arg % 256 == 0 || decide (8 < p.arg % 256)))

/-! ## The receiver's buffers and the packets that its flits make up (R187, R191, R192) -/

/-- A packet that a relay's bundle has brought leaves the path of its answer (R197). -/
def notePath (k : Nat) (p : OPkt) (s : State) : State :=
  let b := k / 2
  if (p.op = 1 ∨ p.op = 2 ∨ p.op = 4) ∧ p.src ≠ bSrc b ∧ bitN p.flags 1 = false then
    setXpt { s.xpt with paths := mset s.xpt.paths (pathKey p.dst p.src p.tag) (bSrc b) } s
  else s

/-- A packet whose flits have all arrived stands until its row takes it. A malformed BARRIER packet is rejected at once, and one for a relay goes on in its
turn. -/
def wholePkt (k : Nat) (a : Asm) (s : State) : State :=
  let p := pktOfBodies a.vc a.bodies
  let s := notePath k p s
  if p.op = 6 ∧ pktBad p then rejectPkt p (freeBufs k a.vc a.res a.sh s)
  else
    let l := linkOf s k
    let s := setLink k { l with arrived := l.arrived ++ [⟨p, a.res, a.sh⟩] } s
    if p.op = 6 then relayBarriers 1 s else s

/-- A packet that ends before its LEN (R189): rejected, and its buffers freed. -/
def brokenPkt (k : Nat) (a : Asm) (s : State) : State :=
  let p := pktOfBodies a.vc a.bodies
  rejectPkt p (notePath k p (freeBufs k a.vc a.res a.sh s))
/-- A BODY flit that belongs to no packet (R189): counted, and its buffer freed. -/
def strayBody (k : Nat) (a : Asm) (s : State) : State := freeBufs k a.vc a.res a.sh (bump 0x5005 (bDst (k / 2)) 1 s)

/-- The flits that a packet has in all, by the LEN of its HEAD; a LEN that no packet has ends with the HEAD. -/
def asmNeed (a : Asm) : Nat :=
  let n := fieldAt (a.bodies.headD []) 10 2
  if 4096 < n then 1 else flitsOf n

/-- A flit put into a buffer, and to its packet (R187): a buffer of the pool whose credit the transmitter has used for it (R192). -/
def assemble (k vc : Nat) (head : Bool) (body : List Byte) (shared : Bool) (s : State) : State :=
  let l := linkOf s k
  let r := if shared then 0 else 1
  let l := { l with held := mmod l.held 0 vc (· + r), heldSh := l.heldSh + (1 - r) }
  let open' := l.asm.find? (fun a => a.vc == vc)
  let s := setLink k { l with asm := l.asm.filter (fun a => a.vc != vc) } s
  let put (a : Asm) (s : State) : State :=
    if asmNeed a ≤ a.bodies.length then wholePkt k a s
    else
      let l := linkOf s k
      setLink k { l with asm := l.asm ++ [a] } s
  let new : Asm := ⟨vc, [body], r, 1 - r⟩
  match open', head with
  | some a, true => put new (brokenPkt k a s)
  | none, true => put new s
  | some a, false => put { a with bodies := a.bodies ++ [body], res := a.res + r, sh := a.sh + (1 - r) } s
  | none, false => strayBody k new s

/-- A HEAD or BODY flit that is whole (R194): in order it is accepted, and acknowledged by the next flit on the reverse bundle. -/
def takeFlit (k : Nat) (h : FlitHdr) (body : List Byte) (s : State) : State :=
  let l := linkOf s k
  if h.seq = l.expect then
    let s := setLink k { l with expect := (l.expect + 1) % 4096, nak := false } s
    let f := (l.retry.find? (fun f => f.seq == h.seq)).getD { seq := h.seq, vc := h.vc, sh := decide (reservedOf h.vc ≤ mget l.held 0 h.vc) }
    -- a flit whose packet has gone by a relay is not taken again, and its credit goes back
    sendCtrl (mate k) 1 (if f.gone then freeBufs k h.vc 0 0 (setLink k { linkOf s k with
          freed := mmod (linkOf s k).freed 0 h.vc (fun n => (n + b2n (!f.sh)) % 256), freedSh := ((linkOf s k).freedSh + b2n f.sh) % 256 } s)
      else assemble k h.vc (h.kind == 2) body f.sh s)
  else refuseFlit k s

/-- FLIT_RECEIVED (R184 to R187, R192, R194): a flit of a bundle, or of its service stream. -/
def flitReceivedEff (b : Nat) (svc : Bool) (bs : List Byte) (s : State) : State :=
  let k := linkKey b svc
  let back := linkKey (reverseBundle b) svc
  if bs.length ≠ 256 ∨ !bundleOn s.pkg.part b ∨ (!svc && isIdle bs) then s
  else
    match wholeFlit bs with
    | none =>
      let n := (linkOf s k).bad + 1
      let s := bump 0x5003 b 1 (setLink k { linkOf s k with bad := if 4 ≤ n then 0 else n } s)
      refuseFlit k (if 4 ≤ n then send (.link b 6 []) s else s)
    | some (m, c) =>
      let h := flitHdr m
      let s := setLink k { linkOf s k with bad := 0 } (if c then bump 0x5002 b 1 s else s)
      let s := if h.ackk = 1 then ackTo back h.ack s else if h.ackk = 2 then nakTo back h.ack s else s
      let s := creditTo back h.cvc h.ccnt h.shcnt s
      if h.kind = 1 then s else takeFlit k h ((m.drop 7).take 240) s

/-- NAK_RECEIVED (R194): the transmitter of a bundle, or of its service stream, replays what it has sent after the flit named. -/
def nakReceivedEff (b : Nat) (svc : Bool) (ack : Nat) (s : State) : State :=
  if !bundleOn s.pkg.part b then s else nakTo (linkKey b svc) (ack % 4096) s

/-- NAK_REPEAT_TIMEOUT (R194): 250 ns after a NAK, its flit has not come. -/
def nakRepeatTimeoutEff (b : Nat) (svc : Bool) (s : State) : State :=
  if (linkOf s (linkKey b svc)).nak then sendNak (linkKey b svc) s else s

/-- The service frames that begin now (spec/05 R164; R196): each begins with the beacon of the channel that carries the service stream, and takes the
next 1,760 bits of VC7. A frame without such bits is not kept. -/
def svcTick (s : State) : State :=
  if s.now % 128 ≠ 0 ∨ 2 ≤ s.pkg.power then s
  else s.xpt.links.foldl (fun s q =>
    if q.1 % 2 = 0 ∨ q.2.vcLen = 0 ∨ svcUsable s (q.1 / 2) = false then s
    else
      let b := q.1 / 2
      let f := serviceFrame (identWord b (if laneNow s b 16 = 17 then 16 else 17) 17) q.2.vcBits
      setLink q.1 { q.2 with frames := f :: q.2.frames, vcBits := q.2.vcBits / 2 ^ 1760, vcLen := q.2.vcLen - 1760 } s) s

/-- The service frame in which a management message sent now to a die begins, in ns from now: the frames that the bits waiting before it fill
begin first. -/
def frameAhead (s : State) (d : Nat) : Nat :=
  let l : Link := ((bundlesUp s true 12 (siteEp d)).head?.map (fun b => linkOf s (linkKey b true))).getD {}
  128 - s.now % 128 + 128 * ((l.vcLen + 2048 * l.waiting.length) / 1760)

/-- TIME_MARK_SEND (spec/07 R226): once after each multiple of 16,000 grains, in the next service frame of each die's bundle: FRAME_GTC is the hub's GTC
at that frame's first block edge. With TIME_CFG or TIME_ORIGIN in the safe state of R335 the marks carry SRC_LOCKED clear. -/
def timeMarkSendEff (s : State) : State :=
  let h := s.clk.hub
  let g := (hubGtc s).toNat
  if !(dieClk s siteKH).timeRun || h.lastMark == some (g / 16000) then s else
    let fields (d : Nat) : List Nat := [(gtcAfter s siteKH (frameAhead s d)).toNat, ofInt 32 (adjustment siteKH (dieClk s siteKH)), h.mseq.toNat,
      b2n h.stepFlag + 2 * b2n (h.locked && !s.hl.safe.contains 6)]
    let marks := (markDies s.pkg.part).map (fun d => (d, fields d))
    let s := marks.foldl (fun s q => send (.mgmt q.1 6 0 q.2) s) s
    { s with clk := { s.clk with hub := { h with mseq := h.mseq + 1, stepFlag := false, lastMark := some (g / 16000) } } }

/-! ## Packets (R187 to R190) -/

/-- What an endpoint does with a packet of an operation, in its turn: rejected, relayed, or taken by `f`. -/
def withPkt (op : Nat) (p : OPkt) (f : State → State) (s : State) : State :=
  if (!epPresent s p.dst ∧ ¬ (16 ≤ p.dst ∧ p.dst < 16 + tilesOf s.pkg.part)) ∨ pktTurn s p = false then s
  else if p.op = 0 ∨ 8 < p.op then rejectPkt p (takePkt p s)
  else if p.op ≠ op then s
  else if pktBad p then rejectPkt p (takePkt p s)
  else if bitN p.flags 1 ∧ p.final ≠ p.dst then relayPkt p (takePkt p s)
  else f (takePkt p s)

/-- A line that the partition of a packet may reach: PART of firmware traffic passes no window (R125, R189). -/
def pktReaches (s : State) (p : OPkt) (wr : Bool) (a : Nat) : Bool :=
  if p.part = 0xFF then dpaOf s.pkg.part a != .unmapped
  else match part s p.part with
    | none => false
    | some q => reaches s q wr a

/-- The status of two parts of a packet: BAD_WINDOW before FENCED before OK. -/
def joinPkt (a b : Nat) : Nat := if a = 6 ∨ b = 6 then 6 else if a = 4 ∨ b = 4 then 4 else 1

/-- A copy of a multicast packet of the hub that finds its endpoint fenced is discarded there, and counts as skipped (R200). -/
def skipCopy (p : OPkt) (s : State) : State := if p.src = 12 then copySkipped p.tag s else s

/-- WRITE (R189, R190, R199, R200): the payload is written line by line; a copy of a multicast goes to the endpoint's own cluster memory. -/
def writeEff (p : OPkt) : State → State := withPkt 1 p (fun s =>
  if endFenced s p.dst then (if bitN p.flags 0 then skipCopy p s else answerPkt p 4 0 [] s)
  else
    let a := if bitN p.flags 0 ∧ p.dst < 12 then mcAddr p.dst p.addr else p.addr
    let r := (pieces a p.payload p.poison).foldl (fun (x : Nat × State) q =>
      if !pktReaches x.2 p true q.1 then (joinPkt x.1 6, x.2)
      else
        let (ok, s) := writeDpa q.1 q.2.1 q.2.2 x.2
        (joinPkt x.1 (if ok then 1 else 4), s)) (1, s)
    answerPkt p r.1 0 [] r.2)

/-- The lines of a READ, of which `can` are allowed: the status, the bytes, and the lines that are poison. -/
def readPkt (p : OPkt) (can : Nat → Bool) (fs : List LineFind) (e : Ecc) (s : State) : Nat × List Byte × List Nat × State :=
  let ls := linesOf p.addr p.arg
  let x := readLines (ls.filter can) p.addr fs e 4 s
  ls.foldl (fun (r : Nat × List Byte × List Nat × State) l =>
    match mfind x.1 l with
    | some (.data bs) => (r.1, r.2.1 ++ bs, r.2.2.1, r.2.2.2)
    | some (.poison bs) => (r.1, r.2.1 ++ bs, r.2.2.1 ++ [l], r.2.2.2)
    | some .fenced =>
      let (d, s) := drawBytes 64 r.2.2.2
      (joinPkt r.1 4, r.2.1 ++ d, r.2.2.1, s)
    | none =>
      let (d, s) := drawBytes 64 r.2.2.2
      (joinPkt r.1 6, r.2.1 ++ d, r.2.2.1, s)) (1, [], [], x.2)

/-- The POISON mask of READ_DATA: payload lines that hold bytes of a poisoned line (R190). -/
def readMask (a n : Nat) (po : List Nat) : Nat :=
  maskOf ((List.range (ceilDiv n 64)).filter (fun i => (linesOf (a + 64 * i) (min 64 (n - 64 * i))).any (fun l => po.contains l)))

/-- READ (R188 to R190): READ_DATA with the bytes, the poison of their lines, and the status. `e` gives the offsets from ADDR at which the code
of a cluster memory finds an error. -/
def readEff (p : OPkt) (fs : List LineFind) (e : Ecc) : State → State := withPkt 2 p (fun s =>
  if endFenced s p.dst then answerPkt p 4 0 [] s
  else
    let r := readPkt p (pktReaches s p false) fs e s
    answerPkt p r.1 (readMask p.addr p.arg r.2.2.1) ((r.2.1.drop (p.addr % 64)).take p.arg) r.2.2.2)

/-- SIGNAL (R188, R198): ARG added to the counter after the writes before it on its channel, which these commands have carried out. -/
def signalEff (p : OPkt) (fs : List LineFind) (e : Ecc) : State → State := withPkt 4 p (fun s =>
  if endFenced s p.dst then answerPkt p 4 0 [] s
  else if p.part = 0xFF then
    if dpaOf s.pkg.part p.addr = .unmapped then answerPkt p 6 0 [] s
    else
      let (ok, s) := addWord p.addr p.arg fs e s
      answerPkt p (if ok then 1 else 4) 0 [] s
  else
    let (st, s) := signalAt p.part p.addr p.arg (p.src == 12) fs e s
    answerPkt p st 0 [] s)

/-- Lines of a core's transfer that have been carried, with their status. -/
def noteLines (c tok first n st : Nat) (s : State) : State :=
  modCore c (fun k => { k with hmx := k.hmx.map (fun x =>
    if x.tok = tok then { x with got := x.got ++ ((List.range n).map (fun i => (first + i, st))).filter (fun q => (mfind x.got q.1).isNone) } else x) }) s

/-- The status that a response carries, 0 standing for OK. -/
def respStatus (p : OPkt) : Nat := if p.arg % 16 = 0 then 1 else p.arg % 16

/-- The request of a cluster that an answer's SRC and TAG match (R188): the core, the transfer and the packet. -/
def matchTag (s : State) (p : OPkt) (toScr : Bool) : Option (Nat × Xfer × XReq) :=
  (List.range 16).findSome? (fun i =>
    let c := (p.dst * 8 + p.tag / 8192 % 8) * 16 + i
    (coreAt s c).hmx.findSome? (fun x => if x.toScr = toScr then (x.reqs.find? (fun q => q.tag == p.tag && q.ep == p.src)).map (fun q => (c, x, q)) else none))
/-- The request has its answer, and its TAG is free. -/
def answered (c : Nat) (x : Xfer) (q : XReq) (s : State) : State :=
  modCore c (fun k => { k with hmx := k.hmx.map (fun y => if y.tok = x.tok then { y with reqs := y.reqs.erase q } else y) }) s

/-- READ_DATA (R188, R190): the data of the READ with its TAG. A status that is not OK counts for every line of that READ. -/
def readDataEff (p : OPkt) : State → State := withPkt 3 p (fun s =>
  match matchTag s p true with
  | none => s
  | some (c, x, q) =>
    let first := q.first
    let s := answered c x q s
    if respStatus p ≠ 1 then noteLines c x.tok first q.n (respStatus p) s
    else
      (List.range (min q.n (ceilDiv p.len 64))).foldl (fun s i =>
        let scr := scrBase c + x.scr + 64 * (first + i)
        if (mfind x.got (first + i)).isSome then s
        else
          let bs := (p.payload.drop (64 * i)).take 64
          if !bitN p.poison i then noteLines c x.tok (first + i) 1 1 (setMem s (writeBs s.mem.m scr bs))
          else if dpaOf s.pkg.part (x.far + 64 * (first + i)) = .hbm then
            let (d, s) := drawBytes 64 s
            noteLines c x.tok (first + i) 1 7 (setMem s (writeBs s.mem.m scr d))
          else noteLines c x.tok (first + i) 1 1 (setMem s (poisonWords (writeBs s.mem.m scr bs) scr 64))) s)

/-- COMPLETION (R188; spec/09 R274): the outcome of the WRITE of a transfer with its TAG; at the hub the commit of what a die has been asked for. -/
def completionEff (p : OPkt) : State → State := withPkt 5 p (fun s =>
  if p.dst = 12 then commitGot p.tag (respStatus p) s else
  match matchTag s p false with
  | none => s
  | some (c, x, q) => noteLines c x.tok q.first q.n (respStatus p) (answered c x q s))

/-! ## FABRIC packets (spec/09 R274) -/

/-- What an endpoint does with a FABRIC packet of a sub-kind. -/
def withFabric (k : Nat) (p : OPkt) (f : State → State) (s : State) : State :=
  if p.op = 7 ∧ p.arg % 256 ≠ k ∧ 1 ≤ p.arg % 256 ∧ p.arg % 256 ≤ 8 then s else withPkt 7 p f s
/-- One that a die sends to the hub, and one that the hub sends to a die. -/
def toHubFab (k : Nat) (p : OPkt) (f : State → State) : State → State := withFabric k p (fun s => if p.src < 12 ∧ p.dst = 12 then f s else s)
def fromHubFab (k : Nat) (p : OPkt) (f : State → State) : State → State := withFabric k p (fun s => if p.src = 12 ∧ p.dst < 12 then f s else s)

/-- DESC: ARG names the die's queue, or a hub queue where HUB is 1. -/
def descEff (p : OPkt) : State → State := toHubFab 1 p (fun s =>
  takeDesc p.src p.tag (if bitN p.arg 12 then bitsN p.arg 13 5 else bitsN p.arg 8 4) (bitN p.arg 12) p.payload s)
/-- TXDATA: ADDR is the offset in the descriptor. -/
def txdataEff (p : OPkt) : State → State := toHubFab 2 p (takeTxdata p.src p.tag p.addr p.poison p.payload)
/-- COMP: the payload is the completion value. -/
def compEff (p : OPkt) : State → State := fromHubFab 3 p (takeComp p.dst p.tag (BitVec.ofNat 64 (fieldAt p.payload 0 8)))
/-- RXDATA. -/
def rxdataEff (p : OPkt) : State → State := fromHubFab 4 p (takeRxdata p.dst p.part p.tag p.addr p.poison p.payload)
/-- RXSIGNAL: the payload is the increment. -/
def rxsignalEff (p : OPkt) (fs : List LineFind) (e : Ecc) : State → State :=
  fromHubFab 5 p (takeRxsignal p.dst p.part p.tag p.addr (fieldAt p.payload 0 8) fs e)
/-- RXREAD: ARG gives the length. `e` gives the offsets from ADDR at which the code of a cluster memory finds an error. -/
def rxreadEff (p : OPkt) (fs : List LineFind) (e : Ecc) : State → State :=
  fromHubFab 6 p (takeRxread p.dst p.part p.tag p.addr (bitsN p.arg 8 16) fs e)
/-- RDDATA: TAG is that of the RXREAD. -/
def rddataEff (p : OPkt) : State → State := toHubFab 7 p (takeRddata p.tag p.poison p.payload)
/-- HQCREDIT: ARG names the hub queue and the credits. -/
def hqcreditEff (p : OPkt) : State → State := fromHubFab 8 p (takeCredits p.dst (bitsN p.arg 8 5) (bitsN p.arg 16 8))

/-- The site of an endpoint. -/
def epSite (e : Nat) : Nat := if e < 12 then siteKC e else if e = 12 then siteKH else siteLT (e - 16)

/-- MGMT (R196; spec/12 R354, R365; spec/13 R382): a management message of a control term. Kinds 1 GRANT, 2 its acknowledgement, 3 REQUEST, 4 RETURN
(with the die, watts or sequence numbers), and 5 the request for training frames of a bundle; a message of an older term is ignored. -/
def mgmtEff (p : OPkt) (term kind : Nat) (fields : List Nat) : State → State := withPkt 8 p (fun s =>
  let site := epSite p.dst
  let f (i : Nat) : Nat := fields.getD i 0
  if site = siteKH then
    match kind with
    | 2 => grantAckEff (f 0) (f 1) s
    | 3 => requestEff (f 0) (f 1) s
    | 4 => returnWattsEff (f 0) (f 1) s
    | _ => s
  else if !siteUp s site || newer 16 (mget s.mp.ctrlTerm 0 site).toNat term then s
  else
    let s := { s with mp := { s.mp with ctrlTerm := mset s.mp.ctrlTerm site (BitVec.ofNat 16 term) } }
    match kind with
    | 1 => grantEff (site - 0x20) (f 0) (f 1) s
    | 5 => if bTile (f 0) = site - 0x40 then trainingFrameRequestEff (f 0) s else s
    | _ => s)

end Sys2Proof.Machine
end

