-- ==== Sys2Proof/Machine/Closing.lean ====
section
/-! DEFINITION. Closing.lean: what follows from a command at once (log 15). -/
namespace Sys2Proof.Machine

/-- What follows at once from what a command has changed, between the state before it and the state that its effect left: an isolated stack
is fenced (spec/14 R403), a stalemate that has ended is reported, and the time without progress counted (spec/08 R261), the request engine and the gated roods follow their
conditions (spec/10 R310; spec/13 R385), what was sent on the package is cut into flits (spec/06 R183), and HEALTH_SEQ and the
vectors follow (spec/11 R344, R347). The queue of commands is the block's own. -/
def closing (a s : State) : State :=
  let s := settle a (linkSettle a (gateSettle (engSettle a (staleWatch a (staleEnd (isolationSettle a s))))))
  { s with pending := a.pending }

/-- A command whose effect is `f`: the next state. -/
def runEff (f : State → State) (s : State) : Host.Outcome State Fault Refusal := .next (closing s (f s))

/-- The rewrites of configuration registers that are done now (spec/11 R335): the block resumes, and unheld pips are taken (R341), or it stays in its safe state. -/
def parityTick (s : State) : State :=
  if !s.mp.running then s
  else s.hl.rewriting.foldl (fun s q =>
    if s.now < q.2.1 then s
    else
      let s := { s with hl := { s.hl with rewriting := mdel s.hl.rewriting q.1 } }
      if 1 < q.2.2 then safeStays (q.1 % 256) (q.1 / 256) s
      else if q.1 = 0 then takePips (leaveSafe 0 0 s)
      else leaveSafe (q.1 % 256) (q.1 / 256) s) s

/-- A tick: one nanosecond in which no command arrives (log 3). The clocks count, and the cluster memory pipelines follow them. -/
def tick (s : State) : State := closing s (svcTick (frameTick (fabTick s (postsTick (pipesTick (ptpTick (parityTick (clkTick s))))))))

end Sys2Proof.Machine
end

