-- ==== Sys2Proof/Machine/FabCmd.lean ====
section
/-! DEFINITION. FabCmd.lean: the fabric's worker commands, operator commands and reports, and the manager's role (spec/09 R299 to R305; spec/12
R368, R370, R376, R377, R489; spec/14 R417 to R419). -/
namespace Sys2Proof.Machine

/-! ## Worker commands -/

/-- A worker command that its own operation carries out. -/
def workerCmd (op : Nat) (r : Req) : State → State := runCmd op r (fun s _ =>
  let o := workerDo op (argN r) r.payload s
  if o.st ≠ 0 then .bad o.st (if o.st = stBadArg then o.d else 0) else .ok o.s o.ws)

def fabAddrWriteEff (r : Req) : State → State := workerCmd 0x0800 r
def fabRankWriteEff (r : Req) : State → State := workerCmd 0x0801 r
def fabGroupWriteEff (r : Req) : State → State := workerCmd 0x0802 r
def fabJobSetEff (r : Req) : State → State := workerCmd 0x0803 r
def fabJobActivateEff (r : Req) : State → State := workerCmd 0x0804 r
/-- FAB_TEARDOWN (R299): answered when step 6 is reached; a JOB_END that this package's host sent is then answered too (R370). -/
def fabTeardownEff (r : Req) (s : State) : State := endOwed (argN r 0) (workerCmd 0x0805 r s)
def fabFenceEff (r : Req) : State → State := workerCmd 0x0806 r
def fabEpochEff (r : Req) : State → State := workerCmd 0x0807 r
def fabPodStateEff (r : Req) : State → State := workerCmd 0x0808 r
def fabDrainNoticeEff (r : Req) : State → State := workerCmd 0x080B r

/-- FAB_HEARTBEAT (R376). -/
def fabHeartbeatEff (r : Req) : State → State := runCmd 0x0809 r (fun s _ =>
  .ok { s with pod := { s.pod with lastHeartbeat := some s.now, managerLost := false } } [healthW s, coresW s])

/-- The pod states in which congestion maps are answered (R305). -/
def mapsOpen (s : State) : Bool := s.pod.podState == 1 || s.pod.podState == 2 || s.pod.podState == 4

/-- The congestion map (R305): 16 port records and up to 64 peers with the lowest RATE. -/
def congestionMap (s : State) : List Byte :=
  let recs := (List.range 16).flatMap (fun k =>
    ((mget s.fab.tel {} k).ring.getLast?).getD (telBytes k s))
  let peers := (sortBy (fun (q : Nat × Nat) => q.2) ((s.fab.peers.filter (fun q => q.1 != ownPkg s)).map (fun q => (q.1, q.2.rate)))).take 64
  recs ++ peers.flatMap (fun q => leBytes 2 q.1 ++ leBytes 4 (q.2 / 1000) ++ leBytes 2 0)

/-- FAB_MAP_REQ (R305). -/
def fabMapReqEff (r : Req) (s : State) : State :=
  runCmd 0x080A r (fun s _ => if mapsOpen s then .okWith s [] (congestionMap s) else .bad stBusy 0) s

/-- FENCE_BITMAP_RESEND (spec/12 R369): at the manager a worker asks for the whole bitmap, which is sent; at a worker in doubt the bitmap
arrives with its generation and endpoint mask. -/
def fenceBitmapResendEff (pkg gen eps : Nat) (pkgs : List Nat) (s : State) : State :=
  if s.pod.role = 1 then
    sendWorker pkg 0x0806 [s.fab.fence.gen.toNat, 0, 0] (s.fab.fence.pkgs.flatMap (fun p => leBytes 2 p)) 0 s
  else if s.fab.fence.doubt then adoptFence gen { pkgs := pkgs, eps := eps % 2 ^ 13, doubt := false } absentArg s
  else s

/-! ## Reports at the manager (R370) -/

def fabPathReportEff (r : Req) : State → State := runCmd 0x0810 r (fun s _ =>
  let rep := match r.chan with
    | .fm p _ => p
    | _ => ownPkg s
  .ok (pathReport rep (argN r 0) (bitN (argN r 3) 0) s) [])

/-- JOB_END_FWD: as JOB_END. -/
def jobEndFwdEff (r : Req) : State → State := runCmd 0x0811 r (fun s _ =>
  if argN r 1 = 3 then .bad stBadArg 1
  else if (mgrJob s (argN r 0)).isNone then .bad stNotFound 0 else .ok (mgrTear (argN r 0) 2 s) [])

/-! ## Pods (R489) -/

/-- A buffer of a command lies wholly in HBM4. -/
def bufIn (s : State) (a n : Nat) : Bool := inHbm s.pkg.part a n

/-- The first check of R489 that pod entries fail. -/
def podCheck (bs : List Byte) : Option Nat :=
  let es := (List.range (bs.length / 48)).map (fun i => (bs.drop (48 * i)).take 48)
  let ids := es.map (fun e => fieldAt e 0 2)
  if bs.length = 0 ∨ bs.length % 48 ≠ 0 then some 0x80
  else if es.any (fun e => fieldAt e 2 14 != 0 || (parseAddr (e.drop 16)).isNone) then some 0x81
  else if ids.eraseDups.length ≠ ids.length
      ∨ es.any (fun e => !(((parseAddr (e.drop 16)).map (·.valid)).getD false)) then some 0x85
  else none

/-- The entries of a description that passes its checks. -/
def podEntries (bs : List Byte) : List (Nat × AddrEnt) :=
  (List.range (bs.length / 48)).filterMap (fun i =>
    let e := (bs.drop (48 * i)).take 48
    (parseAddr (e.drop 16)).map (fun x => (fieldAt e 0 2, x)))

/-- Address entries written on every package of the pod in the current epoch. -/
def spreadAddrs (es : List (Nat × AddrEnt)) (s : State) : State :=
  es.foldl (fun s e => toPod none 0x0800 (addrArgs e.1 { e.2 with epoch := s.fab.epoch.toNat }) [] s) s

/-- POD_FORM: the pod of the description, in a new epoch and in state FORMING. -/
def podFormEff (r : Req) (fs : List LineFind) : State → State := runCmd 0x0700 r (fun s _ =>
  let a := addrArg r 1
  let n := argN r 3
  if n = 0 ∨ n % 48 ≠ 0 then .bad stBadArg 0x80
  else if !bufIn s a n then .bad stBadArg 1
  else match bufRead a n fs s with
    | (.bad d, s) => .deny s stFailed d
    | (.data bs, s) =>
      match podCheck bs with
      | some d => .deny s stBadArg d
      | none =>
        if s.pod.role ≠ 1 then .deny s stState 0 else
        let es := podEntries bs
        let s := { s with pod := { s.pod with podId := BitVec.ofNat 16 (argN r 0), podState := 1, members := es.map (·.1) } }
        let s := nextEpoch (ownPkg s) s
        let s := spreadAddrs es s
        .ok ((podPkgs s).foldl (fun s p => if p = ownPkg s then s else sendWorker p 0x0808 [1] [] 0 s) s) [])

/-- CAP_ADD (R300): a package joins in a new epoch, in which its fence is cleared. -/
def capAddEff (r : Req) (fs : List LineFind) : State → State := runCmd 0x0703 r (fun s _ =>
  let a := addrArg r 1
  let pkg := argN r 0
  if !bufIn s a 48 then .bad stBadArg 1
  else match bufRead a 48 fs s with
    | (.bad d, s) => .deny s stFailed d
    | (.data bs, s) =>
      match podCheck bs with
      | some d => .deny s stBadArg d
      | none =>
        if s.pod.role ≠ 1 then .deny s stState 0 else
        let known := s.pod.members
        let s := { s with pod := { s.pod with members := addOnce s.pod.members pkg } }
        let s := nextEpoch pkg s
        let s := if s.fab.fence.pkgs.contains pkg then
            toPod none 0x0806 [(s.fab.fence.gen.toNat + 1) % 2 ^ 32, pkg + 3 * 2 ^ 16, 0] [] s else s
        let s := spreadAddrs ((podEntries bs).map (fun e => (pkg, e.2))) s
        -- the newcomer learns the others
        .ok (known.foldl (fun s p => if pkg = ownPkg s ∨ p = pkg then s
          else sendWorker pkg 0x0800 (addrArgs p (mget s.fab.addrs {} p)) [] 0 s) s) [])

/-- CAP_REMOVE (R302). -/
def capRemoveEff (r : Req) : State → State := runCmd 0x0704 r (fun s t =>
  let w := argN r 0
  let pkg := w % 2 ^ 16
  let ep := if bitN w 21 then none else some (bitsN w 16 5)
  if !bitN w 21 && decide (12 < bitsN w 16 5) then .bad stBadArg 0
  else if s.pod.role ≠ 1 then .bad stState 0
  else if !s.pod.members.contains pkg then .bad stNotFound 0
  else
    let js := s.fab.mgr.jobs.filter (fun q => ranksThere q.2 pkg ep)
    let s := js.foldl (fun s q => q.2.members.foldl (fun s m => (toMember m.1 0x080B [q.1] [] 0 s).2) s) s
    if !js.isEmpty && !r.force then .fail s stRefused 0
    else
      let s := setMgr { s.fab.mgr with removals := s.fab.mgr.removals ++ [(pkg, ep, some t)] } s
      .later (checkRemovals (tearThere pkg ep 3 s)))

/-- POD_STATE (R375). -/
def podStateEff (r : Req) : State → State := runCmd 0x0705 r (fun s _ =>
  if 4 < argN r 0 then .bad stBadArg 0
  else if s.pod.role ≠ 1 then .bad stState 0
  else .ok ((podPkgs s).foldl (fun s p => if p = ownPkg s then s else sendWorker p 0x0808 [argN r 0] [] 0 s)
    { s with pod := { s.pod with podState := argN r 0 } }) [])

/-- FAB_MAP (R305). -/
def fabMapEff (r : Req) : State → State := runCmd 0x0706 r (fun s t =>
  let pkg := argN r 0
  let a := addrArg r 1
  if !bufIn s a 1536 then .bad stBadArg 1
  else if s.pod.role ≠ 1 then .bad stState 0
  else if !mapsOpen s then .bad stBusy 0
  else if pkg = ownPkg s then
    let pl := congestionMap s
    match bufWrite a pl s with
    | (some d, s) => .fail s stFailed d
    | (none, s) => .ok s [BitVec.ofNat 32 pl.length]
  else if !s.pod.members.contains pkg then .bad stNotFound 0
  else .later (sendWorker pkg 0x080A [] [] t (setMgr { s.fab.mgr with maps := s.fab.mgr.maps ++ [(t, a)] } s)))

/-! ## Jobs (R489) -/

/-- The groups of a job description from an offset: rank lists, and where they end. -/
def groupsAt (fuel : Nat) (bs : List Byte) (off : Nat) : Option (List (List Nat) × Nat) :=
  match fuel with
  | 0 => some ([], off)
  | f + 1 =>
    let n := fieldAt bs off 4
    if bs.length < off + 4 + 4 * n then none
    else match groupsAt f bs (off + 4 + 4 * n) with
      | none => none
      | some (l, e) => some ((List.range n).map (fun i => fieldAt bs (off + 4 + 4 * i) 4) :: l, e)

/-- A job description as parsed. -/
structure JobDesc where
  ranks : List Nat
  members : List Nat
  groups : List (List Nat)
  deriving DecidableEq, Repr

/-- A rank entry's package and endpoint, where it is VALID (R266). -/
def rankOf (e : Nat) : Option (Nat × Nat) := if bitN e 15 then some (bitsN e 16 16, e % 32) else none
def rankPkgs (rs : List Nat) : List Nat := (rs.filterMap (fun e => (rankOf e).map (·.1))).eraseDups

/-- A job description checked (R489): the parts, or the DETAIL of the first check that fails. -/
def parseJob (bs : List Byte) : JobDesc ⊕ Nat :=
  let rc := fieldAt bs 0 4
  let gc := fieldAt bs 4 4
  let nm := fieldAt bs 8 4
  let fixed := 16 + 4 * rc + 4 * nm
  if bs.length < 16 ∨ bs.length < fixed + 4 * gc then .inr 0x80
  else match groupsAt gc bs fixed with
    | none => .inr 0x80
    | some (gs, e) =>
      let rs := (List.range rc).map (fun i => fieldAt bs (16 + 4 * i) 4)
      let ms := (List.range nm).map (fun i => fieldAt bs (16 + 4 * rc + 4 * i) 4)
      let pk := rankPkgs rs
      let ids := ms.map (· % 2 ^ 16)
      if e ≠ bs.length then .inr 0x80
      else if fieldAt bs 12 4 ≠ 0 ∨ rs.any (fun x => bitsN x 5 10 != 0) ∨ ms.any (fun x => x / 2 ^ 20 != 0) then .inr 0x81
      else if rc < 1 ∨ 2 ^ 20 < rc ∨ 16384 < gc ∨ nm < 1 ∨ 65536 < nm then .inr 0x82
      else if nm ≠ pk.length ∨ ids.any (fun p => !pk.contains p) ∨ ids.eraseDups.length ≠ nm
          ∨ ms.any (fun x => decide (11 < bitsN x 16 4)) then .inr 0x83
      else if gs.any (fun g => g.isEmpty || g.any (fun x => decide (rc ≤ x))) then .inr 0x84
      else .inl { ranks := rs, members := ms, groups := gs }

/-- The packages of a group in the order in which its ranks name them, each with its DIEMASK. -/
def groupNodes (rs : List Nat) (g : List Nat) : List (Nat × Nat) :=
  g.foldl (fun (l : List (Nat × Nat)) x => match rankOf (rs.getD x 0) with
    | none => l
    | some (p, ep) =>
      if l.any (fun q => q.1 == p) then l.map (fun q => if q.1 = p then (p, q.2 ||| 2 ^ ep % 2 ^ 13) else q)
      else l ++ [(p, 2 ^ ep % 2 ^ 13)]) []

/-- DIEMASK endpoints in the subtree of node `i` of a tree of fan-out 16 laid out by number. -/
def subtree (fuel : Nat) (ns : List (Nat × Nat)) (i : Nat) : Nat :=
  match fuel with
  | 0 => 0
  | f + 1 => match ns[i]? with
    | none => 0
    | some q => (List.range 16).foldl (fun n j => n + subtree f ns (16 * i + 1 + j)) (popN 13 q.2)

/-- The entry of a group on one package (R293): the nodes in order fill a tree of fan-out 16 from its root (DESIGN CHOICE: its shape). -/
def groupEntry (ns : List (Nat × Nat)) (pkg : Nat) : GroupEnt :=
  match ns.findIdx? (fun q => q.1 == pkg) with
  | none => {}
  | some i =>
    { parent := (ns.getD ((i - 1) / 16) (0, 0)).1, valid := true, root := i == 0, diemask := (ns.getD i (0, 0)).2
      children := ((List.range 16).map (fun j => 16 * i + 1 + j)).filterMap (fun j =>
        (ns[j]?).map (fun q => (q.1, subtree 6 ns j))) }

/-- The lowest base at which `n` entries fit below `top`, clear of the slices given. -/
def firstFit (top n : Nat) (used : List (Nat × Nat)) : Option Nat :=
  leastBy id ((0 :: used.map (fun u => u.1 + u.2)).filter (fun b =>
    decide (b + n ≤ top) && used.all (fun u => decide (b + n ≤ u.1 ∨ u.1 + u.2 ≤ b))))

/-- Worker commands that write a job on one member. -/
def launchMember (id : Nat) (d : JobDesc) (nodes : List (List (Nat × Nat))) (j : MgrJob) (m : Nat × Nat) (s : State) : Nat × State :=
  let go (x : Nat × State) (op : Nat) (args : List Nat) (pl : List Byte) : Nat × State :=
    if x.1 ≠ 0 then x else toMember m.1 op args pl id x.2
  let rk := (List.range (ceilDiv j.rankCount 1024)).foldl (fun x i =>
    let part := (d.ranks.drop (1024 * i)).take 1024
    go x 0x0801 [j.rankBase + 1024 * i, part.length] (part.flatMap (fun e => leBytes 4 e))) (0, s)
  let gr := (List.range (ceilDiv j.groupCount 28)).foldl (fun x i =>
    let part := (nodes.drop (28 * i)).take 28
    go x 0x0802 [j.groupBase + 28 * i, part.length] (part.flatMap (fun ns => groupBytes (groupEntry ns m.1)))) rk
  go gr 0x0803 [id, m.2, j.rankBase, j.rankCount, j.groupBase, j.groupCount, j.members.length, s.fab.epoch.toNat] []

/-- JOB_LAUNCH (R266, R300, R377, R489). -/
def jobLaunchEff (r : Req) (fs : List LineFind) : State → State := runCmd 0x0701 r (fun s t =>
  let a := addrArg r 0
  let n := argN r 2
  if !bufIn s a n then .bad stBadArg 0
  else if n = 0 then .bad stBadArg 0x80
  else match bufRead a n fs s with
    | (.bad d, s) => .deny s stFailed d
    | (.data bs, s) =>
      match parseJob bs with
      | .inr d => .deny s stBadArg d
      | .inl d =>
        let s0 := s
        let self := s.pod.podState == 0 && (rankPkgs d.ranks).all (fun p => p == ownPkg s)
        let s := if self then writeAddr 0 { valid := true, epoch := s.fab.epoch.toNat } s else s
        let members := d.members.map (fun x => (x % 2 ^ 16, bitsN x 16 4))
        let jobs := s.fab.mgr.jobs
        let mine := members.find? (fun m => m.1 == ownPkg s)
        if !self && s.pod.podState != 3 then .deny s0 stBusy 0
        else if !self && s.pod.role != 1 then .deny s0 stState 0
        else if (rankPkgs d.ranks).any (fun p => (addrOf s p).isNone) then .deny s0 stRefused 0
        else if mine.any (fun m => (part s m.2).isNone || holdsJob s m.2) then .deny s0 stState 0
        else if mine.isSome && decide (131072 < peersSum s + members.length) then .deny s0 stRefused 0
        else
          match firstFit (2 ^ 20) d.ranks.length (jobs.map (fun q => (q.2.rankBase, q.2.rankCount))),
              firstFit 16384 d.groups.length (jobs.map (fun q => (q.2.groupBase, q.2.groupCount))) with
          | some rb, some gb =>
            let id := s.fab.mgr.nextJob
            let j : MgrJob := {
              members := members, eps := (d.ranks.filterMap (fun e => (rankOf e).map (fun x => x.1 * 32 + x.2))).eraseDups
              rankBase := rb, rankCount := d.ranks.length, groupBase := gb, groupCount := d.groups.length, launch := some t }
            let s := setMgr { s.fab.mgr with nextJob := if id + 1 < 2 ^ 32 then id + 1 else 1, jobs := mset jobs id j } s
            let nodes := d.groups.map (groupNodes d.ranks)
            let (st, s) := members.foldl (fun (x : Nat × State) m => if x.1 ≠ 0 then x else launchMember id d nodes j m x.2) (0, s)
            .later (if st = 0 then launchStep id s else launchFail id st s)
          | _, _ => .deny s0 stRefused 0)

/-- JOB_END (R299, R370): at the manager the job is torn down; a worker forwards it. -/
def jobEndEff (r : Req) : State → State := runCmd 0x0702 r (fun s t =>
  let id := argN r 0
  let owe (s : State) : State := setMgr { s.fab.mgr with ends := s.fab.mgr.ends ++ [(id, t)] } s
  if (mgrJob s id).isSome && mgrActs s then .later (mgrTear id 2 (owe s))
  else if (partOfJob s id).isNone || s.pod.role == 1 || s.pod.podState == 0 then .bad stNotFound 0
  else .later (sendReport 0x0811 [id, chanCode r.chan, r.tag] (owe s)))

/-! ## The manager's role (R376; spec/14 R417 to R419) -/

/-- A heartbeat to a package: a worker's counts as unanswered until its answer comes. -/
def beat (p : Nat) (s : State) : State :=
  queueWorker p 0x0809 [s.pod.fmTerm.toNat] [] 0 { s with pod := { s.pod with missed := mset s.pod.missed p (mget s.pod.missed 0 p + 1) } }

/-- FM_HEARTBEAT_SEND: each 1 ms to every worker and to the standby; five unanswered in a row judge a worker dead. Without the lease the standby alone is
sent one, whose acknowledgement brings the lease (spec/14 R417). -/
def fmHeartbeatSendEff (s : State) : State :=
  if s.pod.role ≠ 1 ∨ s.pod.podState = 0 ∨ !s.mp.running ∨ s.pod.hbSentAt.any (fun t => decide (s.now < t + 1000000)) then s
  else
    let pd : Pod := { s.pod with
      outstanding := s.pod.outstanding.filter (fun o => o.2.2.1 != 0x0809)
      waitSend := s.pod.waitSend.filter (fun o => o.2.1 != 0x0809)
      hbSentAt := some s.now }
    let s := { s with pod := pd }
    let sb := s.pod.standbyPkg.toNat
    let s := drainSend 256 s
    if !mgrActs s then (if sb = ownPkg s then s else beat sb s)
    else (addOnce s.pod.members sb).foldl (fun s p =>
      if p = ownPkg s ∨ s.fab.fence.pkgs.contains p then s
      else if 5 ≤ mget s.pod.missed 0 p then packageDead p s
      else beat p s) s

/-- FM_LEASE_EXPIRY (R417, R418): 3 ms after the last acknowledgement; no further command is sent. -/
def fmLeaseExpiryEff (s : State) : State :=
  if s.pod.role ≠ 1 ∨ leaseLive s = true then s else { s with pod := { s.pod with leaseHeld := false } }

/-- The jobs of this package as a new manager knows them: their own rank slices name the packages and endpoints. -/
def adoptJobs (s : State) : Map MgrJob :=
  s.jobs.foldl (fun m q =>
    if q.2.state = 0 ∧ q.2.written = false then m
    else
      let rs := (List.range q.2.rankCount).map (fun i => (mget s.fab.ranks 0 (q.2.rankBase + i)).toNat)
      mset m q.2.id { members := (rankPkgs rs).map (fun p => (p, if p = ownPkg s then q.1 else 0))
                      eps := (rs.filterMap (fun e => (rankOf e).map (fun x => x.1 * 32 + x.2))).eraseDups
                      rankBase := q.2.rankBase, rankCount := q.2.rankCount, groupBase := q.2.groupBase, groupCount := q.2.groupCount
                      phase := 2 }) []

/-- The role comes to this package (R418, R419): cause 0 heartbeat, 1 return, 2 drill. -/
def takeRole (cause : Nat) (s : State) : State :=
  let pd : Pod := { s.pod with
    role := 1, fmTerm := s.pod.fmTerm + 1, managerPkg := s.pod.pkgId, standbyPkg := s.pod.managerPkg, managerLost := false
    leaseHeld := true, leaseAt := none, missed := [], podState := if s.pod.podState = 0 then 0 else 4 }
  let s := { s with pod := pd }
  let s := setMgr { s.fab.mgr with jobs := adoptJobs s } s
  emitMp Ev.fmTakeover [s.pod.pkgId.toNat, s.pod.fmTerm.toNat, cause] s

/-- The number with which a new manager's own commands go on: after the newest that it has received or holds (log 41). -/
def nextFmSeq (held : List HeldCmd) (s : State) : BitVec 32 :=
  BitVec.ofNat 32 (held.foldl (fun a h => if newer 32 (h.seq + 1) a then h.seq + 1 else a)
    (match s.pod.fmNewest with
     | none => s.pod.ownFmSeq.toNat
     | some n => n + 1) % 2 ^ 32)

/-- FM_TAKEOVER (R418): five heartbeats of the manager are missing. Every outstanding command of which the standby holds a copy is sent again with its
FM_SEQ, and a job whose launch was not complete is torn down. -/
def fmTakeoverEff (held : List HeldCmd) (s : State) : State :=
  if s.pod.role ≠ 2 ∨ !s.mp.running ∨ managerSilent s = false then s
  else
    let s := takeRole 0 { s with pod := { s.pod with ownFmSeq := nextFmSeq held s } }
    let s := held.foldl (fun s h =>
      let x := fmWire s h.seq h.op h.args h.payload
      send (.worker h.pkg h.seq h.op h.args x) (sendMgmt h.pkg x
        { s with pod := { s.pod with outstanding := s.pod.outstanding ++ [(h.seq, h.pkg, h.op, h.serves)] } })) s
    let s := (podPkgs s).foldl (fun s p => if p = ownPkg s then s else sendWorker p 0x0808 [4] [] 0 s) s
    let torn := ((held.filter (fun h => decide (0x0801 ≤ h.op ∧ h.op ≤ 0x0804))).map (·.serves)).eraseDups
    torn.foldl (fun s id =>
      let pk := ((held.filter (fun h => h.serves == id)).map (·.pkg)).eraseDups
      if (mgrJob s id).isSome then mgrTear id 2 s
      else pk.foldl (fun s p => (toMember p 0x0805 [id, 2] [] id s).2) s) s

/-- The former manager package has answered heartbeats, and has had a healthy standby processor, for 10 s (R419). -/
def readyToReturn (s : State) : Bool :=
  let tenS (o : Option Nat) : Bool := o.any (fun t => decide (t + 10000000000 ≤ s.now))
  s.mp.standbyOk && tenS s.mp2.standbySince && tenS s.pod2.lostRoleAt && !managerSilent s

/-- FM_RETURN (R419): the former manager package, healthy for 10 s, takes the role back; not where it had lost the role within 1 h before, nor after two
losses. -/
def fmReturnEff (s : State) : State :=
  if s.pod.role ≠ 2 ∨ !s.pod2.formerManager ∨ s.pod2.noReturn = true ∨ readyToReturn s = false ∨ !s.mp.running then s
  else takeRole 1 { s with pod2 := { s.pod2 with formerManager := false } }

/-! ## Ethernet ports (R277, R281) -/

/-- ETH_PORT_CFG: mode and NEXT_HOP at a packet boundary; a change of mode takes the link down until it trains again. -/
def ethPortCfgEff (r : Req) : State → State := runCmd 0x0503 r (fun s _ =>
  let k := argN r 0 % 16
  let mode := bitsN (argN r 0) 4 2
  if mode = 3 then .bad stBadArg 0
  else
    let p := portOf s k
    let p := { p with nextHop := BitVec.ofNat 48 (argN r 1 + 2 ^ 32 * (argN r 2 % 2 ^ 16)) }
    .ok (flushAll (setPort k (if mode = p.mode then p else { (portLost p) with mode := mode }) s)) [])

/-- ETH_PORT_DRAIN. -/
def ethPortDrainEff (r : Req) : State → State := runCmd 0x0504 r (fun s _ =>
  let k := argN r 0 % 16
  let p := portOf s k
  let inDrain := p.draining.isSome || p.drained
  if bitN (argN r 0) 8 then
    if !inDrain then .bad stState 0
    else .ok (flushAll (setPort k { p with draining := none, drained := false } s)) []
  else if inDrain then .bad stState 0
  else .ok (drainPort k 0 s) [])

end Sys2Proof.Machine
end

