-- ==== Sys2Proof/Machine/Guest.lean ====
section
/-! DEFINITION. Guest.lean: the guest die behind its firewall (spec/14 R420 to R423). -/
namespace Sys2Proof.Machine

/-- GUEST_CTL and GUEST_WIN (R420). -/
def guestOn (s : State) : Bool := s.guest.ctl.getLsbD 11
def guestSig (s : State) : Bool := s.guest.ctl.getLsbD 10
def guestPart (s : State) : Nat := bitsN s.guest.ctl.toNat 0 4
def guestLen (s : State) : Nat := bitsN s.guest.ctl.toNat 12 20 * 2 ^ 21
def guestBase (s : State) : Nat := bitsN s.guest.win.toNat 21 27 * 2 ^ 21
/-- A line lies in the guest window. -/
def inGuest (s : State) (l : Nat) : Bool := decide (guestBase s ≤ l ∧ l < guestBase s + guestLen s)

def setGuest (g : Guest) (s : State) : State := { s with guest := g }

/-- The guest is fenced: cause 0 violations, 1 link (R423). Its link is held in reset until the package starts again. -/
def fenceGuest (cause : Nat) (s : State) : State :=
  emitMp Ev.guestFenced [cause] (setGuest { s.guest with fenced := true, linkUp := false } s)

/-- A violation counted; the first in each second is reported, and 1,024 within 1 s fence the guest (R423). -/
def violation (op addr : Nat) (s : State) : State :=
  let g := s.guest
  let vs := inLastSecond (hubGtc s).toNat g.viols
  let sec := secondOf (hubGtc s)
  let s1 := setGuest { g with viols := vs, violCount := g.violCount + 1, violSec := some sec } s
  let s1 := if g.violSec = some sec then s1 else emitMp Ev.guestViolation [vs.length, pairArg op addr] s1
  if 1024 ≤ vs.length then fenceGuest 0 s1 else s1

/-- The answer to the guest by TAG (R421): READ_DATA or COMPLETION. -/
def toGuest (p : OPkt) (status mask : Nat) (bs : List Byte) (s : State) : State :=
  send (.guest (if p.op = 2 then 3 else 5) p.tag [status, mask] bs) s

/-- The bytes that a request names: its address and length. -/
def guestSpan (p : OPkt) : Nat := if p.op = 1 then p.len else if p.op = 2 then p.arg else 8

/-- The request of the hub for an admitted guest request (R421): PART as GUEST_CTL gives it, the guest's own SRC, PART and routing dropped. -/
def hubReq (s : State) (p : OPkt) : OPkt := { p with part := guestPart s, src := 12, flags := 4, dmask := 0 }

/-- An admitted request carried out, line by line (R125): `out` tells the lines outside the guest window, which are not transferred. -/
def guestRun (p : OPkt) (fs : List LineFind) (e : Ecc) (s : State) : State :=
  let q := hubReq s p
  let outside (l : Nat) : Bool := !inGuest s l
  if p.op = 1 then
    let r := (pieces p.addr p.payload p.poison).foldl (fun (x : Nat × State) w =>
      if outside (w.1 / 64 * 64) || !pktReaches x.2 q true w.1 then (joinPkt x.1 6, x.2)
      else
        let (ok, s) := writeDpa w.1 w.2.1 w.2.2 x.2
        (joinPkt x.1 (if ok then 1 else 4), s)) (1, s)
    toGuest p r.1 0 [] r.2
  else if p.op = 2 then
    let r := readPkt q (fun l => !outside l && pktReaches s q false l) fs e s
    toGuest p r.1 (readMask p.addr p.arg r.2.2.1) ((r.2.1.drop (p.addr % 64)).take p.arg) r.2.2.2
  else if (linesOf p.addr 8).any outside then toGuest p 6 0 [] s
  else
    let (st, s) := signalAt (guestPart s) p.addr p.arg true [] {} s
    toGuest p st 0 [] s

/-- GUEST_PACKET (R421, R422): the first case of the firewall's table that applies. -/
def guestPacketEff (p : OPkt) (fs : List LineFind) (e : Ecc) (s : State) : State :=
  if !s.guest.linkUp || s.guest.fenced || !running s then s
  else if p.vc = 7 ∨ ¬ (p.op = 1 ∨ p.op = 2 ∨ p.op = 4) ∨ pktBad p = true then violation p.op p.addr s
  else if p.op = 4 ∧ guestSig s = false then violation p.op p.addr (toGuest p 6 0 [] s)
  else
    let out := (linesOf p.addr (guestSpan p)).any (fun l => !inGuest s l)
    let s := if (job s (guestPart s)).state ≠ 1 then toGuest p 6 0 [] s else guestRun p fs e s
    if out then violation p.op p.addr s else s

/-- GUEST_LINK_DOWN (R423): the loss counted; 3 within 1 h fence the guest. -/
def guestLinkDownEff (s : State) : State :=
  if !s.guest.linkUp then s
  else
    let ls := s.now :: s.guest.losses.filter (fun t => decide (s.now < t + 3600000000000))
    let s := setGuest { s.guest with linkUp := false, losses := ls } s
    if 3 ≤ ls.length then fenceGuest 1 s else s

/-- GUEST_LINK_UP (R420, R423): the link comes up with a guest die fitted, ENABLE set and no fence. -/
def guestLinkUpEff (s : State) : State :=
  if s.guest.fitted && guestOn s && !s.guest.fenced && running s then setGuest { s.guest with linkUp := true } s else s

end Sys2Proof.Machine
end

