-- ==== Sys2Proof/Machine/Observe.lean ====
section
/-! DEFINITION. Observe.lean: counters, tracing, tests and the analogue test buses (spec/16 R446 to R459). -/
namespace Sys2Proof.Machine

def setObs (o : Obs) (s : State) : State := { s with obs := o }

/-! ## Counters (R446 to R448) -/

/-- The extended value of a counter, read now; the wait that a core is in counts as far as it has come. -/
def ctrValue (id a1 : Nat) (s : State) : Nat × State :=
  let k := ctrKey id a1
  let c := extend (mget s.obs.ctrs {} k)
  let more := if id = 2 then waitElapsed s (cwNum a1) else 0
  ((c.ext.toNat + more) % 2 ^ 64, setObs { s.obs with ctrs := mset s.obs.ctrs k c } s)

/-- CTR_READ (R446 to R448). -/
def ctrReadEff (r : Req) : State → State := runCmd 0x0A00 r (fun s _ =>
  let id := argN r 0
  match ctrInst s id (argN r 1) with
  | none => .bad stBadArg 0
  | some i =>
    if !i.ok then .bad stBadArg 1
    else if !i.present then .bad stAbsent 0
    else
      let (v, s) := ctrValue id (argN r 1) s
      .ok s (wordsOf 2 v))

/-! ## Test requests (R453 to R456) -/

/-- A kind of test that names a bundle and a wavelength; one that names a port; a measurement on an analogue test bus. -/
def kindBundle (k : Nat) : Bool := k == 1 || (decide (0x26 ≤ k) && decide (k ≤ 0x2A))
def kindPort (k : Nat) : Bool := k == 3 || k == 0x25
def kindAtb (k : Nat) : Bool := decide (0x20 ≤ k) && decide (k ≤ 0x2A)
def kindTrace (k : Nat) : Bool := (decide (0x30 ≤ k) && decide (k ≤ 0x32)) || k == 0x3F
/-- A kind that the table lists (R453). -/
def kindListed (k : Nat) : Bool := (decide (1 ≤ k) && decide (k ≤ 3)) || dieGranular k || kindAtb k || kindTrace k

def isKC (site : Nat) : Bool := decide (0x20 ≤ site) && decide (site ≤ 0x2B)
def isLT (site : Nat) : Bool := decide (0x40 ≤ site) && decide (site ≤ 0x43)
/-- A site that a kind may name (R451, R453, R458). -/
def kindSite (k site : Nat) : Bool :=
  if k = 0x10 ∨ k = 0x11 then isKC site || isLT site
  else if k = 0x12 then isLT site
  else if 0x20 ≤ k ∧ k ≤ 0x22 then !siteReserved site
  else if k = 0x23 then isKC site || site == siteKH
  else isKC site

/-- The die whose buses or controller a test uses (R458): the site, or the tile at the end of the bundle that the table names. -/
def testDie (t : TestRun) : Nat :=
  if !kindBundle t.kind then t.site
  else if t.kind = 0x27 ∨ t.kind = 0x28 then (if bDst t.site < 12 then siteLT (bDst t.site / 3) else if bDst t.site = 12 then siteLH else siteLT (bDst t.site - 16))
  else siteLT (bTile t.site)
/-- The bus of a measurement (R458). -/
def testBus (k : Nat) : Nat := if k ≤ 0x24 then 0 else 1
/-- The event source of a test. -/
def testSrc (s : State) (t : TestRun) : Nat := if testDie t = siteKH then mpSrc s else testDie t

/-- A die-granular test's unit is idle (R454). -/
def unitIdle (s : State) (site : Nat) : Bool :=
  if isKC site then
    match (partOfStack s (site - 0x20)).bind (part s) with
    | none => true
    | some p => p.mode == 4 && p.plan != 2
  else !anyJob s
/-- Two die-granular tests may not run together: the same site, or a tile and a stack on it. -/
def testOverlap (a b : Nat) : Bool := a == b || (isLT a && isKC b && a - 0x40 == (b - 0x20) / 3) || (isKC a && isLT b && b - 0x40 == (a - 0x20) / 3)
/-- A die-granular request is answered BUSY (R454). -/
def testBusy (s : State) (site : Nat) : Bool :=
  s.obs.tests.any (fun t => dieGranular t.kind && testOverlap t.site site) || s.upd.activation.isSome

/-- A measurement begins: the node that stood connected to its bus gives way (R459). -/
def atbBegin (t : TestRun) (s : State) : State :=
  setObs { s.obs with tests := s.obs.tests ++ [t], atb := mdel s.obs.atb (testDie t * 2 + testBus t.kind) } s
/-- A measurement uses the buses of a die. -/
def atbInUse (s : State) (die : Nat) : Bool := s.obs.tests.any (fun t => kindAtb t.kind && testDie t == die)

/-- The physical cores of a die: the cores and the spares (spec/01 R24). -/
def physCores (n : Nat) : List Nat :=
  (List.range 8).flatMap (fun cl => (List.range 12).map (fun k => (n * 8 + cl) * 16 + k)) ++ [1, 2, 5, 6].zipIdx.map (fun q => (n * 8 + q.1) * 16 + 12 + q.2)
/-- The lane test of every core and spare of a die becomes due (R120, R453). -/
def laneTests (n : Nat) (s : State) : State :=
  (physCores n).foldl (fun s p => if (vcOf s p).state = 3 then s else setVc p { vcOf s p with due := true } s) s

/-- Trace kinds of a die after a request (R451). -/
def traceSet (old k : Nat) : Nat := if k = 0x3F then 0 else old ||| 2 ^ (k - 0x30)

/-- The first argument word with a bit that the kind does not use, or with a value that it does not admit. -/
def testBadArg (k site a2 : Nat) : Option Nat :=
  if !kindListed k then some 1
  else if kindBundle k then
    if 452 ≤ site then some 0 else if a2 % 2 ^ 16 ≠ 0 ∨ 18 ≤ a2 / 2 ^ 16 then some 2 else none
  else if 256 ≤ site || !kindSite k site then some 0
  else if kindPort k then (if a2 % 256 ≠ 0 ∨ 12 ≤ a2 / 256 then some 2 else none)
  else if a2 ≠ 0 then some 2
  else none

/-- TEST_RUN (R451, R453 to R456, R458, R459; spec/05 R163). -/
def testRunEff (r : Req) : State → State := runCmd 0x0A01 r (fun s tk =>
  let k := argN r 1
  let site := argN r 0
  let a2 := argN r 2
  let t : TestRun := { ticket := tk, kind := k, site := site, a2 := a2 }
  let port := (site - 0x20) * 12 + a2 / 256
  let start (s : State) : CmdOut := .later (setObs { s.obs with tests := s.obs.tests ++ [t] } s)
  match testBadArg k site a2 with
  | some i => .bad stBadArg i
  | none =>
    if (if kindBundle k then !bundleOn s.pkg.part site else siteAbsent s site) then .bad stAbsent 0
    else if k = 1 then
      if calRefused s site (a2 / 2 ^ 16) then .bad stState 0
      else start (calNext (bTile site) (modCh site (a2 / 2 ^ 16) (fun c => { c with due := 3 }) s))
    else if k = 2 then start (laneTests (site - 0x20) s)
    else if k = 3 then (if retrainRefused s port then .bad stState 0 else start (retrain port 0 3 s))
    else if dieGranular k then
      if !r.force && !unitIdle s site then .bad stDeferred 0
      else if testBusy s site then .bad stBusy 0
      else if unitIdle s site then start s
      else start (if isKC site then fenceStack (site - 0x20) 5 s else fenceTile (site - 0x40) 5 s)
    else if kindAtb k then
      if atbInUse s (testDie t) then .later (setObs { s.obs with waiting := s.obs.waiting ++ [t] } s) else .later (atbBegin t s)
    else .ok (setObs { s.obs with trace := mmod s.obs.trace 0 site (fun w => traceSet w k) } s) [0])

/-! ## The end of a test (R456, R457, R459) -/

/-- The result word of R457. -/
def testWord (t : TestRun) (f : TestFind) (value : Nat) : Nat :=
  let res := if t.preempted then 3 else if !f.failed.isEmpty then 1 else if f.skipped then 2 else 0
  res * 2 ^ 24 + min 255 f.failed.length * 2 ^ 16 + value % 2 ^ 16

/-- The VALUE of a result: whether a calibration was rejected, the lanes that a lane test found failed, the port's width as adopted, the rows spared, or what was measured (R453). -/
def testValue (s : State) (t : TestRun) (f : TestFind) : Nat :=
  if t.kind ≤ 2 then t.found
  else if t.kind = 3 then (portSide s ((t.site - 0x20) * 12 + t.a2 / 256) 0).width
  else if t.kind = 0x12 then (f.rows.filter (fun q => (stackAt s q.1).spared.contains q.2)).length
  else if kindTrace t.kind then 0
  else f.value

/-- The HBM4 of a memory group as zeros. -/
def wipeGroup (t : Nat) (s : State) : State :=
  let mine (a : Nat) : Bool := decide (a < hbmSize s.pkg.part) && decide ((placeOf s a).stack / 4 = t)
  setMem s { bytes := s.mem.m.bytes.filter (fun p => !mine p.1), poison := s.mem.m.poison.filter (fun a => !mine a) }

/-- What a test leaves behind (R456): failing rows spared, then zeros with valid check bits. -/
def testLeaves (t : TestRun) (f : TestFind) (s : State) : State :=
  let n := t.site - 0x20
  if t.kind = 0x10 ∧ isKC t.site then
    setMem s (wipe (wipe s.mem.m (cmBase (n * 8)) (cmBase (n * 8 + 8))) (scrBase (n * 128)) (scrBase ((n + 1) * 128)))
  else if t.kind = 0x11 ∧ isKC t.site then wipeStack n s
  else if t.kind = 0x12 then
    wipeGroup (t.site - 0x40) ((f.rows.filter (fun q => q.1 / 4 == t.site - 0x40)).foldl (fun s q => spareRow q.1 q.2 s) s)
  else s

/-- The next measurement that waits for a die's buses begins. -/
def atbNext (die : Nat) (s : State) : State :=
  match s.obs.waiting.find? (fun t => testDie t == die) with
  | none => s
  | some t => atbBegin t (setObs { s.obs with waiting := s.obs.waiting.filter (fun u => u.ticket != t.ticket) } s)

/-- TEST_DONE (R456, R457, R459): the test of a ticket ends as found. -/
def testDoneEff (tk : Nat) (f : TestFind) (s : State) : State :=
  match s.obs.tests.find? (fun t => t.ticket == tk) with
  | none => s
  | some t =>
    let s := testLeaves t f (setObs { s.obs with tests := s.obs.tests.filter (fun u => u.ticket != tk) } s)
    let w := testWord t f (testValue s t f)
    let src := testSrc s t
    let place := if kindBundle t.kind then pairArg t.site (t.a2 / 2 ^ 16) else t.site
    let s := emit src Ev.testDone [t.kind, place, w] s
    let s := if w / 2 ^ 24 = 1 then f.failed.foldl (fun s u => emit src Ev.testFail [t.kind, place, w, u] s) s else s
    let s := finishTicket tk stOK 0 [BitVec.ofNat 32 w] s
    if kindAtb t.kind then
      let s := setObs { s.obs with atb := mset s.obs.atb (testDie t * 2 + testBus t.kind) (t.kind, s.now) } s
      atbNext (testDie t) s
    else s

/-- ATB_DISCONNECT (R459): 10 s after a measurement its node leaves the test land. -/
def atbDisconnectEff (die bus : Nat) (s : State) : State :=
  if (mfind s.obs.atb (die * 2 + bus)).any (fun x => decide (s.now < x.2 + 10000000000)) then s
  else setObs { s.obs with atb := mdel s.obs.atb (die * 2 + bus) } s

/-! ## Tracing (R451, R452) -/

/-- The cores of a die that running plans name, in order. -/
def namedOn (s : State) (n : Nat) : List Nat :=
  match (partOfStack s n).bind (part s) with
  | none => []
  | some p => if p.plan < 2 then [] else (p.named.map (·.1)).filter (fun c => coreStack c == n)

/-- TRACE_SAMPLE (R451): every 10 µs TRACE_PC samples the next named core of a die, whose cluster stalls for 2 CORE cycles together. -/
def traceSampleEff (site : Nat) (s : State) : State :=
  let l := namedOn s (site - 0x20)
  if !traceOn s site 0 || !isKC site || l.isEmpty || (mfind s.obs.sampleAt site).any (fun t => decide (s.now < t + 10000)) then s
  else
    let i := mget s.obs.rotation 0 site
    let c := l.getD (i % l.length) 0
    let k := coreAt s c
    let s := traceRecord site 0 [wordOfCore c, k.ctx.pc.toNat, waitClass k]
      (setObs { s.obs with rotation := mset s.obs.rotation site ((i + 1) % l.length), sampleAt := mset s.obs.sampleAt site s.now } s)
    (l.filter (fun d => coreCluster d == coreCluster c)).foldl (fun s d =>
      let t := issueCycle s d
      modCore d (fun k => { k with nextCyc := t + 2 }) s) s

end Sys2Proof.Machine
end

