-- ==== Sys2Proof/Machine/Exec.lean ====
section
/-! DEFINITION. Exec.lean: the meaning of each command: its effect, and then what follows from it at once (log 15). -/
namespace Sys2Proof.Machine

/-- PACKAGE_START (R469). -/
def execPackageStart (testmode a1 a0 : Bool) (f : StartFind) (s : State) : Host.Outcome State Fault Refusal :=
  runEff (packageStartEff testmode a1 a0 f) s

/-- ROOT_PLL_FIRST_LOCK (R212). -/
def execRootPllFirstLock (site : Nat) (s : State) : Host.Outcome State Fault Refusal :=
  runEff (rootPllFirstLockEff site) s

/-- PWRGD_FALL (R470). -/
def execPwrgdFall (s : State) : Host.Outcome State Fault Refusal :=
  runEff (pwrgdFallEff) s

/-- HWRST_ASSERT (R470). -/
def execHwrstAssert (s : State) : Host.Outcome State Fault Refusal :=
  runEff (hwrstAssertEff) s

/-- PERST_ASSERT (R333). -/
def execPerstAssert (kind : Nat) (s : State) : Host.Outcome State Fault Refusal :=
  runEff (perstAssertEff kind) s

/-- VIN12_REMOVAL (R467). -/
def execVin12Removal (s : State) : Host.Outcome State Fault Refusal :=
  runEff (vin12RemovalEff) s

/-- WAKE_IN_EDGE (R471). -/
def execWakeInEdge (s : State) : Host.Outcome State Fault Refusal :=
  runEff (wakeInEdgeEff) s

/-- COOLANT_INLET_TRIP (R397). -/
def execCoolantInletTrip (s : State) : Host.Outcome State Fault Refusal :=
  runEff (coolantInletTripEff) s

/-- HOT_SPOT_TRIP (R397). -/
def execHotSpotTrip (s : State) : Host.Outcome State Fault Refusal :=
  runEff (hotSpotTripEff) s

/-- VIN12_WINDOW_TRIP (R397). -/
def execVin12WindowTrip (s : State) : Host.Outcome State Fault Refusal :=
  runEff (vin12WindowTripEff) s

/-- VIN12_TRIP_TIMEOUT (R397). -/
def execVin12TripTimeout (s : State) : Host.Outcome State Fault Refusal :=
  runEff (vin12TripTimeoutEff) s

/-- JTAG_INSTRUCTION (R460). -/
def execJtagInstruction (i : Nat) (s : State) : Host.Outcome State Fault Refusal :=
  jtagInstruction i s

/-- NOP (R57). -/
def execNop (c : Nat) (w : BitVec 64) (s : State) : Host.Outcome State Fault Refusal :=
  runEff (nopEff c w) s

/-- END (R49). -/
def execEndInstr (c : Nat) (w : BitVec 64) (s : State) : Host.Outcome State Fault Refusal :=
  runEff (endEff c w) s

/-- RDCYC (R235). -/
def execRdcyc (c : Nat) (w : BitVec 64) (s : State) : Host.Outcome State Fault Refusal :=
  runEff (rdcycEff c w) s

/-- RDGTC (R235). -/
def execRdgtc (c : Nat) (w : BitVec 64) (s : State) : Host.Outcome State Fault Refusal :=
  runEff (rdgtcEff c w) s

/-- WAITCYC (R57). -/
def execWaitcyc (c : Nat) (w : BitVec 64) (s : State) : Host.Outcome State Fault Refusal :=
  runEff (waitcycEff c w) s

/-- WAITCYC_EXPIRY (R57). -/
def execWaitcycExpiry (c : Nat) (s : State) : Host.Outcome State Fault Refusal :=
  runEff (waitcycExpiryEff c) s

/-- BR (R57). -/
def execBr (c : Nat) (w : BitVec 64) (s : State) : Host.Outcome State Fault Refusal :=
  runEff (brEff c w) s

/-- BEQZ (R57). -/
def execBeqz (c : Nat) (w : BitVec 64) (s : State) : Host.Outcome State Fault Refusal :=
  runEff (beqzEff c w) s

/-- BNEZ (R57). -/
def execBnez (c : Nat) (w : BitVec 64) (s : State) : Host.Outcome State Fault Refusal :=
  runEff (bnezEff c w) s

/-- LOOP (R57). -/
def execLoopInstr (c : Nat) (w : BitVec 64) (s : State) : Host.Outcome State Fault Refusal :=
  runEff (loopEff c w) s

/-- SALU (R480). -/
def execSalu (c : Nat) (w : BitVec 64) (s : State) : Host.Outcome State Fault Refusal :=
  runEff (saluEff c w) s

/-- SIMM (R57). -/
def execSimm (c : Nat) (w : BitVec 64) (s : State) : Host.Outcome State Fault Refusal :=
  runEff (simmEff c w) s

/-- SLS_LOAD (R57). -/
def execSlsLoad (c : Nat) (w : BitVec 64) (e : Ecc) (s : State) : Host.Outcome State Fault Refusal :=
  runEff (slsLoadEff c w e) s

/-- SLS_STORE (R117). -/
def execSlsStore (c : Nat) (w : BitVec 64) (e : Ecc) (s : State) : Host.Outcome State Fault Refusal :=
  runEff (slsStoreEff c w e) s

/-- SCM_LOAD (R42). -/
def execScmLoad (c : Nat) (w : BitVec 64) (e : Ecc) (s : State) : Host.Outcome State Fault Refusal :=
  runEff (scmLoadEff c w e) s

/-- SCM_STORE (R42). -/
def execScmStore (c : Nat) (w : BitVec 64) (e : Ecc) (s : State) : Host.Outcome State Fault Refusal :=
  runEff (scmStoreEff c w e) s

/-- VLS_LD (R57). -/
def execVlsLd (c : Nat) (w : BitVec 64) (e : Ecc) (s : State) : Host.Outcome State Fault Refusal :=
  runEff (vlsLdEff c w e) s

/-- VLS_ST (R57). -/
def execVlsSt (c : Nat) (w : BitVec 64) (s : State) : Host.Outcome State Fault Refusal :=
  runEff (vlsStEff c w) s

/-- VCM_LD (R42). -/
def execVcmLd (c : Nat) (w : BitVec 64) (e : Ecc) (s : State) : Host.Outcome State Fault Refusal :=
  runEff (vcmLdEff c w e) s

/-- VCM_ST (R42). -/
def execVcmSt (c : Nat) (w : BitVec 64) (s : State) : Host.Outcome State Fault Refusal :=
  runEff (vcmStEff c w) s

/-- VF32 (R481). -/
def execVf32 (c : Nat) (w : BitVec 64) (s : State) : Host.Outcome State Fault Refusal :=
  runEff (vf32Eff c w) s

/-- VF64 (R481). -/
def execVf64 (c : Nat) (w : BitVec 64) (s : State) : Host.Outcome State Fault Refusal :=
  runEff (vf64Eff c w) s

/-- VINT (R482). -/
def execVint (c : Nat) (w : BitVec 64) (s : State) : Host.Outcome State Fault Refusal :=
  runEff (vintEff c w) s

/-- CVT (R483). -/
def execCvt (c : Nat) (w : BitVec 64) (s : State) : Host.Outcome State Fault Refusal :=
  runEff (cvtEff c w) s

/-- BLOCK (R90). -/
def execBlockCvt (c : Nat) (w : BitVec 64) (s : State) : Host.Outcome State Fault Refusal :=
  runEff (blockEff c w) s

/-- VRED (R484). -/
def execVred (c : Nat) (w : BitVec 64) (s : State) : Host.Outcome State Fault Refusal :=
  runEff (vredEff c w) s

/-- TZERO (R67). -/
def execTzero (c : Nat) (w : BitVec 64) (e : Ecc) (s : State) : Host.Outcome State Fault Refusal :=
  runEff (tzeroEff c w e) s

/-- TMMA (R99). -/
def execTmma (c : Nat) (w : BitVec 64) (s : State) : Host.Outcome State Fault Refusal :=
  runEff (tmmaEff c w) s

/-- TSLICE (R106). -/
def execTslice (c : Nat) (w : BitVec 64) (s : State) : Host.Outcome State Fault Refusal :=
  runEff (tsliceEff c w) s

/-- TSTORE (R72). -/
def execTstore (c : Nat) (w : BitVec 64) (e : Ecc) (s : State) : Host.Outcome State Fault Refusal :=
  runEff (tstoreEff c w e) s

/-- TENSOR_QUEUE_ADVANCE (R70). -/
def execTensorQueueAdvance (c : Nat) (e : Ecc) (s : State) : Host.Outcome State Fault Refusal :=
  runEff (tensorQueueAdvanceEff c e) s

/-- TENSOR_RESULT_READY (R111). -/
def execTensorResultReady (c : Nat) (s : State) : Host.Outcome State Fault Refusal :=
  runEff (tensorResultReadyEff c) s

/-- VCX (R63). -/
def execVcx (c : Nat) (w : BitVec 64) (s : State) : Host.Outcome State Fault Refusal :=
  runEff (vcxEff c w) s

/-- HMX (R65). -/
def execHmx (c : Nat) (w : BitVec 64) (s : State) : Host.Outcome State Fault Refusal :=
  runEff (hmxEff c w) s

/-- DPOST (R66). -/
def execDpost (c : Nat) (w : BitVec 64) (e : Ecc) (s : State) : Host.Outcome State Fault Refusal :=
  runEff (dpostEff c w e) s

/-- DPOST_RESUME (R66). -/
def execDpostResume (c : Nat) (s : State) : Host.Outcome State Fault Refusal :=
  runEff (dpostResumeEff c) s

/-- VCX_COMPLETION (R64). -/
def execVcxCompletion (c : Nat) (e : Ecc) (s : State) : Host.Outcome State Fault Refusal :=
  runEff (vcxCompletionEff c e) s

/-- HMX_COMPLETION (R65). -/
def execHmxCompletion (c tok : Nat) (e : Ecc) (fs : List LineFind) (s : State) : Host.Outcome State Fault Refusal :=
  runEff (hmxCompletionEff c tok e fs) s

/-- WAITT (R61). -/
def execWaitt (c : Nat) (w : BitVec 64) (s : State) : Host.Outcome State Fault Refusal :=
  runEff (waittEff c w) s

/-- WAITT_RESUME (R61). -/
def execWaittResume (c : Nat) (s : State) : Host.Outcome State Fault Refusal :=
  runEff (waittResumeEff c) s

/-- TSTAT (R61). -/
def execTstat (c : Nat) (w : BitVec 64) (s : State) : Host.Outcome State Fault Refusal :=
  runEff (tstatEff c w) s

/-- WAITALL (R61). -/
def execWaitall (c : Nat) (w : BitVec 64) (s : State) : Host.Outcome State Fault Refusal :=
  runEff (waitallEff c w) s

/-- WAITALL_RESUME (R61). -/
def execWaitallResume (c : Nat) (s : State) : Host.Outcome State Fault Refusal :=
  runEff (waitallResumeEff c) s

/-- CSRR (R74). -/
def execCsrr (c : Nat) (w : BitVec 64) (s : State) : Host.Outcome State Fault Refusal :=
  runEff (csrrEff c w) s

/-- CSRW (R74). -/
def execCsrw (c : Nat) (w : BitVec 64) (s : State) : Host.Outcome State Fault Refusal :=
  runEff (csrwEff c w) s

/-- BRK (R60). -/
def execBrk (c : Nat) (w : BitVec 64) (s : State) : Host.Outcome State Fault Refusal :=
  runEff (brkEff c w) s

/-- SINIT (R245). -/
def execSinit (c : Nat) (w : BitVec 64) (s : State) : Host.Outcome State Fault Refusal :=
  runEff (sinitEff c w) s

/-- SPOST (R245). -/
def execSpost (c : Nat) (w : BitVec 64) (s : State) : Host.Outcome State Fault Refusal :=
  runEff (spostEff c w) s

/-- SWAIT (R245). -/
def execSwait (c : Nat) (w : BitVec 64) (s : State) : Host.Outcome State Fault Refusal :=
  runEff (swaitEff c w) s

/-- SWAIT_RESUME (R246). -/
def execSwaitResume (c : Nat) (s : State) : Host.Outcome State Fault Refusal :=
  runEff (swaitResumeEff c) s

/-- STRY (R245). -/
def execStry (c : Nat) (w : BitVec 64) (s : State) : Host.Outcome State Fault Refusal :=
  runEff (stryEff c w) s

/-- SREAD (R245). -/
def execSread (c : Nat) (w : BitVec 64) (s : State) : Host.Outcome State Fault Refusal :=
  runEff (sreadEff c w) s

/-- SPOSTR (R247). -/
def execSpostr (c : Nat) (w : BitVec 64) (s : State) : Host.Outcome State Fault Refusal :=
  runEff (spostrEff c w) s

/-- SPOSTR_RESUME (R247). -/
def execSpostrResume (c : Nat) (s : State) : Host.Outcome State Fault Refusal :=
  runEff (spostrResumeEff c) s

/-- POST (R247). -/
def execPost (src target : Nat) (s : State) : Host.Outcome State Fault Refusal :=
  runEff (postEff src target) s

/-- BCFG (R251). -/
def execBcfg (c : Nat) (w : BitVec 64) (s : State) : Host.Outcome State Fault Refusal :=
  runEff (bcfgEff c w) s

/-- BARR (R251). -/
def execBarr (c : Nat) (w : BitVec 64) (s : State) : Host.Outcome State Fault Refusal :=
  runEff (barrEff c w) s

/-- BWAIT (R251). -/
def execBwait (c : Nat) (w : BitVec 64) (s : State) : Host.Outcome State Fault Refusal :=
  runEff (bwaitEff c w) s

/-- BAR (R251). -/
def execBar (c : Nat) (w : BitVec 64) (s : State) : Host.Outcome State Fault Refusal :=
  runEff (barEff c w) s

/-- BSTAT (R251). -/
def execBstat (c : Nat) (w : BitVec 64) (s : State) : Host.Outcome State Fault Refusal :=
  runEff (bstatEff c w) s

/-- ARRIVE (R253). -/
def execArrive (lv unit slot sender : Nat) (s : State) : Host.Outcome State Fault Refusal :=
  runEff (arriveEff lv unit slot sender) s

/-- RELEASE (R255). -/
def execRelease (lv unit slot : Nat) (s : State) : Host.Outcome State Fault Refusal :=
  runEff (releaseEff lv unit slot) s

/-- PLAN_BOUNDARY (R50). -/
def execPlanBoundary (pt : Nat) (spares : List (Nat × LaneFind)) (s : State) : Host.Outcome State Fault Refusal :=
  runEff (planBoundaryEff pt spares) s

/-- SRAM_SCRUB (R118). -/
def execSramScrub (kind unit : Nat) (corr bad : Bool) (s : State) : Host.Outcome State Fault Refusal :=
  runEff (sramScrubEff kind unit corr bad) s

/-- SRAM_SCRUB_TIMEOUT (R118). -/
def execSramScrubTimeout (kind unit : Nat) (s : State) : Host.Outcome State Fault Refusal :=
  runEff (sramScrubTimeoutEff kind unit) s

/-- VC_BEAT_REPLAY (R120). -/
def execVcBeatReplay (p : Nat) (again : Bool) (s : State) : Host.Outcome State Fault Refusal :=
  runEff (vcBeatReplayEff p again) s

/-- LANE_TEST (R120). -/
def execLaneTest (p : Nat) (s : State) : Host.Outcome State Fault Refusal :=
  runEff (laneTestEff p) s

/-- LANE_TEST_DONE (R121). -/
def execLaneTestDone (p : Nat) (ctrl : Bool) (failed : List Nat) (spare : LaneFind) (s : State) : Host.Outcome State Fault Refusal :=
  runEff (laneTestDoneEff p ctrl failed spare) s

/-- VLANE_RECAL (R123). -/
def execVlaneRecal (p : Nat) (s : State) : Host.Outcome State Fault Refusal :=
  runEff (vlaneRecalEff p) s

/-- HBM_PATROL_READ (R132). -/
def execHbmPatrolRead (m : Nat) (fs : List LineFind) (s : State) : Host.Outcome State Fault Refusal :=
  runEff (hbmPatrolReadEff m fs) s

/-- HBM_ROW_SPARING (R133). -/
def execHbmRowSparing (m row : Nat) (fs : List LineFind) (s : State) : Host.Outcome State Fault Refusal :=
  runEff (hbmRowSparingEff m row fs) s

/-- HBM_CHANNEL_COPY_LINE (R136). -/
def execHbmChannelCopyLine (m : Nat) (fs : List LineFind) (s : State) : Host.Outcome State Fault Refusal :=
  runEff (hbmChannelCopyLineEff m fs) s

/-- HBM_SPARE_FAILED (R136). -/
def execHbmSpareFailed (m : Nat) (s : State) : Host.Outcome State Fault Refusal :=
  runEff (hbmSpareFailedEff m) s

/-- HBM_SPARE_TEST (R490). -/
def execHbmSpareTest (m : Nat) (pass : Bool) (s : State) : Host.Outcome State Fault Refusal :=
  runEff (hbmSpareTestEff m pass) s

/-- RING_LOOP_UPDATE (R147). -/
def execRingLoopUpdate (b l ring cur : Nat) (s : State) : Host.Outcome State Fault Refusal :=
  runEff (ringLoopUpdateEff b l ring cur) s

/-- RING_NO_LIGHT (R148). -/
def execRingNoLight (b l ring : Nat) (s : State) : Host.Outcome State Fault Refusal :=
  runEff (ringNoLightEff b l ring) s

/-- HOUSEKEEPING_ROUND (R389). -/
def execHousekeepingRound (site : Nat) (r : Round) (s : State) : Host.Outcome State Fault Refusal :=
  runEff (housekeepingRoundEff site r) s

/-- CASTLING_LAMBDA16_SWITCH (R172). -/
def execCastlingLambda16Switch (t c : Nat) (pow : List Nat) (s : State) : Host.Outcome State Fault Refusal :=
  runEff (castlingLambda16SwitchEff t c pow) s

/-- CASTLING_LINE_MOVE (R172). -/
def execCastlingLineMove (t c : Nat) (pass : Bool) (s : State) : Host.Outcome State Fault Refusal :=
  runEff (castlingLineMoveEff t c pass) s

/-- BUNDLE_UP (R176). -/
def execBundleUp (b : Nat) (bad : List Nat) (cleared : List (Nat × Nat × Nat × Nat)) (s : State) : Host.Outcome State Fault Refusal :=
  runEff (bundleUpEff b bad cleared) s

/-- CAL_DUE (R159). -/
def execCalDue (b l : Nat) (s : State) : Host.Outcome State Fault Refusal :=
  runEff (calDueEff b l) s

/-- CAL_BEGIN (R160). -/
def execCalBegin (b l : Nat) (s : State) : Host.Outcome State Fault Refusal :=
  runEff (calBeginEff b l) s

/-- CAL_MEASUREMENT_DONE (R161). -/
def execCalMeasurementDone (b l : Nat) (m1 m2 : CalMeas) (s : State) : Host.Outcome State Fault Refusal :=
  runEff (calMeasurementDoneEff b l m1 m2) s

/-- CAL_LANE_RETURN (R160). -/
def execCalLaneReturn (b l : Nat) (s : State) : Host.Outcome State Fault Refusal :=
  runEff (calLaneReturnEff b l) s

/-- CAL_STORE_WRITE (R162). -/
def execCalStoreWrite (t : Nat) (ok : Bool) (s : State) : Host.Outcome State Fault Refusal :=
  runEff (calStoreWriteEff t ok) s

/-- IDENTITY_WORD_RECEIVED (R150). -/
def execIdentityWordReceived (b l : Nat) (w : Word32) (s : State) : Host.Outcome State Fault Refusal :=
  runEff (identityWordReceivedEff b l w) s

/-- TRAINING_FRAME_REQUEST (R151). -/
def execTrainingFrameRequest (b : Nat) (s : State) : Host.Outcome State Fault Refusal :=
  runEff (trainingFrameRequestEff b) s

/-- MISLOCK_ATTEMPT_DONE (R168). -/
def execMislockAttemptDone (b l : Nat) (tr rr : List Nat) (s : State) : Host.Outcome State Fault Refusal :=
  runEff (mislockAttemptDoneEff b l tr rr) s

/-- FLIT_RECEIVED (R184). -/
def execFlitReceived (b : Nat) (svc : Bool) (bs : List Byte) (s : State) : Host.Outcome State Fault Refusal :=
  runEff (flitReceivedEff b svc bs) s

/-- NAK_RECEIVED (R194). -/
def execNakReceived (b : Nat) (svc : Bool) (ack : Nat) (s : State) : Host.Outcome State Fault Refusal :=
  runEff (nakReceivedEff b svc ack) s

/-- NAK_REPEAT_TIMEOUT (R194). -/
def execNakRepeatTimeout (b : Nat) (svc : Bool) (s : State) : Host.Outcome State Fault Refusal :=
  runEff (nakRepeatTimeoutEff b svc) s

/-- WRITE (R189). -/
def execWrite (p : OPkt) (s : State) : Host.Outcome State Fault Refusal :=
  runEff (writeEff p) s

/-- READ (R189). -/
def execRead (p : OPkt) (fs : List LineFind) (e : Ecc) (s : State) : Host.Outcome State Fault Refusal :=
  runEff (readEff p fs e) s

/-- READ_DATA (R188). -/
def execReadData (p : OPkt) (s : State) : Host.Outcome State Fault Refusal :=
  runEff (readDataEff p) s

/-- SIGNAL (R198). -/
def execSignal (p : OPkt) (fs : List LineFind) (e : Ecc) (s : State) : Host.Outcome State Fault Refusal :=
  runEff (signalEff p fs e) s

/-- COMPLETION (R188). -/
def execCompletion (p : OPkt) (s : State) : Host.Outcome State Fault Refusal :=
  runEff (completionEff p) s

/-- MGMT (R196). -/
def execMgmt (p : OPkt) (term kind : Nat) (fields : List Nat) (s : State) : Host.Outcome State Fault Refusal :=
  runEff (mgmtEff p term kind fields) s

/-- PORT_PARTIAL_RESET (R201). -/
def execPortPartialReset (port side : Nat) (s : State) : Host.Outcome State Fault Refusal :=
  runEff (portPartialResetEff port side) s

/-- START (R203). -/
def execStart (port side : Nat) (m : TrainMsg) (s : State) : Host.Outcome State Fault Refusal :=
  runEff (startEff port side m) s

/-- START_REPEAT (R204). -/
def execStartRepeat (port side : Nat) (s : State) : Host.Outcome State Fault Refusal :=
  runEff (startRepeatEff port side) s

/-- PORT_LANE_TEST_DONE (R204). -/
def execPortLaneTestDone (port side : Nat) (failed : List (Nat × Nat)) (s : State) : Host.Outcome State Fault Refusal :=
  runEff (portLaneTestDoneEff port side failed) s

/-- PROPOSE (R204). -/
def execPropose (port side : Nat) (m : TrainMsg) (s : State) : Host.Outcome State Fault Refusal :=
  runEff (proposeEff port side m) s

/-- CONFIRM (R204). -/
def execConfirm (port side : Nat) (m : TrainMsg) (s : State) : Host.Outcome State Fault Refusal :=
  runEff (confirmEff port side m) s

/-- HANDSHAKE_TIMEOUT (R204). -/
def execHandshakeTimeout (port side : Nat) (s : State) : Host.Outcome State Fault Refusal :=
  runEff (handshakeTimeoutEff port side) s

/-- PORT_FAIL_COUNT_RESET (R205). -/
def execPortFailCountReset (port : Nat) (s : State) : Host.Outcome State Fault Refusal :=
  runEff (portFailCountResetEff port) s

/-- PLL_LOSS_OF_LOCK (R210). -/
def execPllLossOfLock (site cause : Nat) (s : State) : Host.Outcome State Fault Refusal :=
  runEff (pllLossOfLockEff site cause) s

/-- PLL_STANDBY_READY (R210). -/
def execPllStandbyReady (site : Nat) (s : State) : Host.Outcome State Fault Refusal :=
  runEff (pllStandbyReadyEff site) s

/-- PLL_FAIL (R210). -/
def execPllFail (site : Nat) (s : State) : Host.Outcome State Fault Refusal :=
  runEff (pllFailEff site) s

/-- REF_FALLBACK (R211). -/
def execRefFallback (site : Nat) (s : State) : Host.Outcome State Fault Refusal :=
  runEff (refFallbackEff site) s

/-- REF_RESTORED (R211). -/
def execRefRestored (site : Nat) (s : State) : Host.Outcome State Fault Refusal :=
  runEff (refRestoredEff site) s

/-- REF_LOST (R211). -/
def execRefLost (site : Nat) (s : State) : Host.Outcome State Fault Refusal :=
  runEff (refLostEff site) s

/-- DROOP_TRIP (R217). -/
def execDroopTrip (site id : Nat) (s : State) : Host.Outcome State Fault Refusal :=
  runEff (droopTripEff site id) s

/-- ROOD_HOLD_EXPIRY (R218). -/
def execRoodHoldExpiry (site id : Nat) (s : State) : Host.Outcome State Fault Refusal :=
  runEff (roodHoldExpiryEff site id) s

/-- ROOD_STOP (R220). -/
def execRoodStop (site id : Nat) (s : State) : Host.Outcome State Fault Refusal :=
  runEff (roodStopEff site id) s

/-- ROOD_FREQ (R220). -/
def execRoodFreq (site id : Nat) (s : State) : Host.Outcome State Fault Refusal :=
  runEff (roodFreqEff site id) s

/-- TIME_MARK_SEND (R226). -/
def execTimeMarkSend (s : State) : Host.Outcome State Fault Refusal :=
  runEff (timeMarkSendEff) s

/-- TIME_MARK_RECEIVED (R226). -/
def execTimeMarkReceived (site : Nat) (m : Mark) (own : Bool) (latched : Word) (s : State) : Host.Outcome State Fault Refusal :=
  runEff (timeMarkReceivedEff site m own latched) s

/-- DELAY_ECHO (R227). -/
def execDelayEcho (site roundTrip turnaround : Nat) (lambda16 : Bool) (s : State) : Host.Outcome State Fault Refusal :=
  runEff (delayEchoEff site roundTrip turnaround lambda16) s

/-- GTC_HOLDOVER (R229). -/
def execGtcHoldoverEv (site cause : Nat) (s : State) : Host.Outcome State Fault Refusal :=
  runEff (gtcHoldoverEff site cause) s

/-- TIME_SRC_CHANGE (R230). -/
def execTimeSrcChange (toPrimary : Bool) (s : State) : Host.Outcome State Fault Refusal :=
  runEff (timeSrcChangeEff toPrimary) s

/-- PTP_MESSAGE (R231). -/
def execPtpMessage (m : PtpMsg) (s : State) : Host.Outcome State Fault Refusal :=
  runEff (ptpMessageEff m) s

/-- PTM_DIALOGUE (R232). -/
def execPtmDialogue (ok : Bool) (master : Nat) (s : State) : Host.Outcome State Fault Refusal :=
  runEff (ptmDialogueEff ok master) s

/-- COUNTER_EXTENSION_POLL (R240). -/
def execCounterExtensionPoll (s : State) : Host.Outcome State Fault Refusal :=
  runEff (counterExtensionPollEff) s

/-- STALEMATE (R261). -/
def execStalemate (pt st : Nat) (s : State) : Host.Outcome State Fault Refusal :=
  runEff (stalemateEff pt st) s

/-- DESC_ENGINE_TURN (R271). -/
def execDescEngineTurn (unit : Nat) (fs : List LineFind) (e : Ecc) (s : State) : Host.Outcome State Fault Refusal :=
  runEff (descEngineTurnEff unit fs e) s

/-- DESCRIPTOR_COMPLETION (R271). -/
def execDescriptorCompletion (st h : Nat) (s : State) : Host.Outcome State Fault Refusal :=
  runEff (descriptorCompletionEff st h) s

/-- DESC (R274). -/
def execDesc (p : OPkt) (s : State) : Host.Outcome State Fault Refusal :=
  runEff (descEff p) s

/-- TXDATA (R274). -/
def execTxdata (p : OPkt) (s : State) : Host.Outcome State Fault Refusal :=
  runEff (txdataEff p) s

/-- COMP (R274). -/
def execComp (p : OPkt) (s : State) : Host.Outcome State Fault Refusal :=
  runEff (compEff p) s

/-- RXDATA (R274). -/
def execRxdata (p : OPkt) (s : State) : Host.Outcome State Fault Refusal :=
  runEff (rxdataEff p) s

/-- RXSIGNAL (R283). -/
def execRxsignal (p : OPkt) (fs : List LineFind) (e : Ecc) (s : State) : Host.Outcome State Fault Refusal :=
  runEff (rxsignalEff p fs e) s

/-- RXREAD (R274). -/
def execRxread (p : OPkt) (fs : List LineFind) (e : Ecc) (s : State) : Host.Outcome State Fault Refusal :=
  runEff (rxreadEff p fs e) s

/-- RDDATA (R274). -/
def execRddata (p : OPkt) (s : State) : Host.Outcome State Fault Refusal :=
  runEff (rddataEff p) s

/-- HQCREDIT (R66). -/
def execHqcredit (p : OPkt) (s : State) : Host.Outcome State Fault Refusal :=
  runEff (hqcreditEff p) s

/-- FAB_DATA (R283). -/
def execFabData (p : FabPkt) (a : Arr) (grp : Nat) (s : State) : Host.Outcome State Fault Refusal :=
  runEff (fabDataEff p a grp) s

/-- FAB_READ (R282). -/
def execFabRead (p : FabPkt) (a : Arr) (s : State) : Host.Outcome State Fault Refusal :=
  runEff (fabReadEff p a) s

/-- FAB_READ_DATA (R278). -/
def execFabReadData (p : FabPkt) (a : Arr) (s : State) : Host.Outcome State Fault Refusal :=
  runEff (fabReadDataEff p a) s

/-- FAB_COMPLETE (R296). -/
def execFabComplete (p : FabPkt) (a : Arr) (s : State) : Host.Outcome State Fault Refusal :=
  runEff (fabCompleteEff p a) s

/-- FAB_ACK (R286). -/
def execFabAck (p : FabPkt) (a : Arr) (s : State) : Host.Outcome State Fault Refusal :=
  runEff (fabAckEff p a) s

/-- FAB_BARRIER (R297). -/
def execFabBarrier (p : FabPkt) (a : Arr) (s : State) : Host.Outcome State Fault Refusal :=
  runEff (fabBarrierEff p a) s

/-- FAB_MGMT (R298). -/
def execFabMgmt (p : FabPkt) (a : Arr) (m : FmMsg) (isAnswer : Bool) (s : State) : Host.Outcome State Fault Refusal :=
  runEff (fabMgmtEff p a m isAnswer) s

/-- ACK_SEND_TIMEOUT (R286). -/
def execAckSendTimeout (pkg stream : Nat) (s : State) : Host.Outcome State Fault Refusal :=
  runEff (ackSendTimeoutEff pkg stream) s

/-- RETRANSMIT_TIMEOUT (R287). -/
def execRetransmitTimeout (pkg stream seq : Nat) (s : State) : Host.Outcome State Fault Refusal :=
  runEff (retransmitTimeoutEff pkg stream seq) s

/-- PATH_PROBE (R288). -/
def execPathProbe (pkg : Nat) (s : State) : Host.Outcome State Fault Refusal :=
  runEff (pathProbeEff pkg) s

/-- RATE_INCREASE (R291). -/
def execRateIncrease (pkg : Nat) (s : State) : Host.Outcome State Fault Refusal :=
  runEff (rateIncreaseEff pkg) s

/-- PFC_PAUSE_RECEIVED (R292). -/
def execPfcPauseReceived (port prio : Nat) (pause : Bool) (s : State) : Host.Outcome State Fault Refusal :=
  runEff (pfcPauseReceivedEff port prio pause) s

/-- DRAIN_COMPLETE (R281). -/
def execDrainComplete (port : Nat) (s : State) : Host.Outcome State Fault Refusal :=
  runEff (drainCompleteEff port) s

/-- TEARDOWN_REPORT_TIMEOUT (R299). -/
def execTeardownReportTimeout (id : Nat) (s : State) : Host.Outcome State Fault Refusal :=
  runEff (teardownReportTimeoutEff id) s

/-- TELEMETRY_RECORD (R304). -/
def execTelemetryRecord (port : Nat) (s : State) : Host.Outcome State Fault Refusal :=
  runEff (telemetryRecordEff port) s

/-- REQUEST_FRAME (R312). -/
def execRequestFrame (port ip peerPort : Nat) (bs : List Byte) (fs : List LineFind) (s : State) : Host.Outcome State Fault Refusal :=
  runEff (requestFrameEff port ip peerPort bs fs) s

/-- OPEN (R317). -/
def execOpenRec (host : Bool) (ip port session nonce : Nat) (rec : List Byte) (fs : List LineFind) (s : State) : Host.Outcome State Fault Refusal :=
  runEff (openEff host ip port session nonce rec fs) s

/-- CLOSE (R317). -/
def execCloseRec (host : Bool) (ip port session nonce : Nat) (rec : List Byte) (fs : List LineFind) (s : State) : Host.Outcome State Fault Refusal :=
  runEff (closeEff host ip port session nonce rec fs) s

/-- PING (R322). -/
def execPing (host : Bool) (ip port session nonce : Nat) (rec : List Byte) (fs : List LineFind) (s : State) : Host.Outcome State Fault Refusal :=
  runEff (pingEff host ip port session nonce rec fs) s

/-- INFER (R322). -/
def execInfer (host : Bool) (ip port session nonce : Nat) (rec : List Byte) (fs : List LineFind) (s : State) : Host.Outcome State Fault Refusal :=
  runEff (inferEff host ip port session nonce rec fs) s

/-- UPDATE (R322). -/
def execUpdateRec (host : Bool) (ip port session nonce : Nat) (rec : List Byte) (fs : List LineFind) (s : State) : Host.Outcome State Fault Refusal :=
  runEff (updateEff host ip port session nonce rec fs) s

/-- HOST_RING_PIP (R315). -/
def execHostRingPip (fs : List LineFind) (s : State) : Host.Outcome State Fault Refusal :=
  runEff (hostRingPipEff fs) s

/-- BATCH_CLOSE (R323). -/
def execBatchClose (s : State) : Host.Outcome State Fault Refusal :=
  runEff (batchCloseEff) s

/-- BATCH_DISPATCH (R325). -/
def execBatchDispatch (s : State) : Host.Outcome State Fault Refusal :=
  runEff (batchDispatchEff) s

/-- BATCH_RETURN (R326). -/
def execBatchReturn (fs : List LineFind) (s : State) : Host.Outcome State Fault Refusal :=
  runEff (batchReturnEff fs) s

/-- DEADLINE_MISS (R324). -/
def execDeadlineMiss (s : State) : Host.Outcome State Fault Refusal :=
  runEff (deadlineMissEff) s

/-- SESSION_IDLE_TIMEOUT (R317). -/
def execSessionIdleTimeout (n : Nat) (fs : List LineFind) (s : State) : Host.Outcome State Fault Refusal :=
  runEff (sessionIdleTimeoutEff n fs) s

/-- MW15_WRITE (R338). -/
def execMw15Write (v : Word32) (s : State) : Host.Outcome State Fault Refusal :=
  runEff (mw15WriteEff v) s

/-- M2H_RELEASE (R338). -/
def execM2hRelease (v : Word32) (s : State) : Host.Outcome State Fault Refusal :=
  runEff (m2hReleaseEff v) s

/-- H2D_RING (R341). -/
def execH2dRing (v : Word32) (s : State) : Host.Outcome State Fault Refusal :=
  runEff (h2dRingEff v) s

/-- D2H_TAKE (R343). -/
def execD2hTake (v : Word32) (s : State) : Host.Outcome State Fault Refusal :=
  runEff (d2hTakeEff v) s

/-- D2H_MASK_WRITE (R344). -/
def execD2hMaskWrite (v : Word32) (s : State) : Host.Outcome State Fault Refusal :=
  runEff (d2hMaskWriteEff v) s

/-- VEC_MASK_WRITE (R344). -/
def execVecMaskWrite (v : Word32) (s : State) : Host.Outcome State Fault Refusal :=
  runEff (vecMaskWriteEff v) s

/-- WV_READ (R346). -/
def execWvRead (v : Word32) (s : State) : Host.Outcome State Fault Refusal :=
  runEff (wvReadEff v) s

/-- WV_WRITE (R346). -/
def execWvWrite (v : Word32) (s : State) : Host.Outcome State Fault Refusal :=
  runEff (wvWriteEff v) s

/-- WV_COMPLETE (R346). -/
def execWvComplete (s : State) : Host.Outcome State Fault Refusal :=
  runEff (wvCompleteEff) s

/-- EVQ_CONS_WRITE (R351). -/
def execEvqConsWrite (v : Word32) (s : State) : Host.Outcome State Fault Refusal :=
  runEff (evqConsWriteEff v) s

/-- REGISTER_WRITE (R334). -/
def execRegisterWrite (off be : Nat) (v : Word32) (s : State) : Host.Outcome State Fault Refusal :=
  runEff (registerWriteEff off be v) s

/-- BAR2_READ (R331). -/
def execBar2Read (x n : Nat) (fs : List LineFind) (s : State) : Host.Outcome State Fault Refusal :=
  runEff (bar2ReadEff x n fs) s

/-- BAR2_WRITE (R331). -/
def execBar2Write (x : Nat) (bs : List Byte) (ep : Bool) (fs : List LineFind) (s : State) : Host.Outcome State Fault Refusal :=
  runEff (bar2WriteEff x bs ep fs) s

/-- PARITY_SWEEP (R335). -/
def execParitySweep (found : Option (Nat × Nat × Nat)) (rewriteFails : Nat) (s : State) : Host.Outcome State Fault Refusal :=
  runEff (paritySweepEff found rewriteFails) s

/-- OOB_DATAGRAM (R361). -/
def execOobDatagram (peer port seq ver : Nat) (ws : List Word32) (s : State) : Host.Outcome State Fault Refusal :=
  runEff (oobDatagramEff peer port seq ver ws) s

/-- OOB_PEER_EXPIRY (R361). -/
def execOobPeerExpiry (peer : Nat) (s : State) : Host.Outcome State Fault Refusal :=
  runEff (oobPeerExpiryEff peer) s

/-- FM_MESSAGE (R362). -/
def execFmMessage (m : FmMsg) (isAnswer : Bool) (s : State) : Host.Outcome State Fault Refusal :=
  runEff (fmMessageEff m isAnswer) s

/-- SMB_BLOCK_WRITE (R476). -/
def execSmbBlockWrite (count : Nat) (pecOk : Bool) (ws : List Word32) (s : State) : Host.Outcome State Fault Refusal :=
  runEff (smbBlockWriteEff count pecOk ws) s

/-- SMB_BLOCK_READ (R475). -/
def execSmbBlockRead (s : State) : Host.Outcome State Fault Refusal :=
  runEff (smbBlockReadEff) s

/-- SMB_READ_BYTE (R475). -/
def execSmbReadByte (s : State) : Host.Outcome State Fault Refusal :=
  runEff (smbReadByteEff) s

/-- SMB_ALERT_RESPONSE (R476). -/
def execSmbAlertResponse (s : State) : Host.Outcome State Fault Refusal :=
  runEff (smbAlertResponseEff) s

/-- PREPARE (R364). -/
def execPrepare (site term op : Nat) (r : Req) (accepts : Bool) (s : State) : Host.Outcome State Fault Refusal :=
  runEff (prepareEff site term op r accepts) s

/-- COMMIT (R364). -/
def execCommit (site term : Nat) (s : State) : Host.Outcome State Fault Refusal :=
  runEff (commitEff site term) s

/-- ABORT (R364). -/
def execAbortCmd (site term : Nat) (s : State) : Host.Outcome State Fault Refusal :=
  runEff (abortCmdEff site term) s

/-- PREPARE_TIMEOUT (R364). -/
def execPrepareTimeout (site : Nat) (s : State) : Host.Outcome State Fault Refusal :=
  runEff (prepareTimeoutEff site) s

/-- CONTROLLER_STATUS (R354). -/
def execControllerStatus (site : Nat) (s : State) : Host.Outcome State Fault Refusal :=
  runEff (controllerStatusEff site) s

/-- CONTROLLER_UNRESPONSIVE (R405). -/
def execControllerUnresponsive (site : Nat) (s : State) : Host.Outcome State Fault Refusal :=
  runEff (controllerUnresponsiveEff site) s

/-- CTRL_RESTART (R405). -/
def execCtrlRestart (site us : Nat) (pass : Bool) (s : State) : Host.Outcome State Fault Refusal :=
  runEff (ctrlRestartEff site us pass) s

/-- JOURNAL_RESOLUTION (R366). -/
def execJournalResolution (s : State) : Host.Outcome State Fault Refusal :=
  runEff (journalResolutionEff) s

/-- NOP_COMMAND (R368). -/
def execNopCommand (r : Req) (s : State) : Host.Outcome State Fault Refusal :=
  runEff (nopCmdEff r) s

/-- CMD_RESULT (R360). -/
def execCmdResult (r : Req) (s : State) : Host.Outcome State Fault Refusal :=
  runEff (cmdResultEff r) s

/-- MP_STATUS (R368). -/
def execMpStatus (r : Req) (s : State) : Host.Outcome State Fault Refusal :=
  runEff (mpStatusEff r) s

/-- IDENT_READ (R368). -/
def execIdentRead (r : Req) (s : State) : Host.Outcome State Fault Refusal :=
  runEff (identReadEff r) s

/-- PART_FORM (R371). -/
def execPartForm (r : Req) (s : State) : Host.Outcome State Fault Refusal :=
  runEff (partFormEff r) s

/-- PART_DISSOLVE (R77). -/
def execPartDissolve (r : Req) (s : State) : Host.Outcome State Fault Refusal :=
  runEff (partDissolveEff r) s

/-- PART_WINDOW (R125). -/
def execPartWindow (r : Req) (s : State) : Host.Outcome State Fault Refusal :=
  runEff (partWindowEff r) s

/-- PART_OVERLAY (R374). -/
def execPartOverlay (r : Req) (s : State) : Host.Outcome State Fault Refusal :=
  runEff (partOverlayEff r) s

/-- PART_STALEMATE (R262). -/
def execPartStalemate (r : Req) (s : State) : Host.Outcome State Fault Refusal :=
  runEff (partStalemateEff r) s

/-- PART_APPLY (R371). -/
def execPartApply (r : Req) (s : State) : Host.Outcome State Fault Refusal :=
  runEff (partApplyEff r) s

/-- PART_REPORT (R368). -/
def execPartReport (r : Req) (s : State) : Host.Outcome State Fault Refusal :=
  runEff (partReportEff r) s

/-- PLAN_LOAD (R48). -/
def execPlanLoad (r : Req) (fs : List LineFind) (s : State) : Host.Outcome State Fault Refusal :=
  runEff (planLoadEff r fs) s

/-- PLAN_START (R52). -/
def execPlanStart (r : Req) (s : State) : Host.Outcome State Fault Refusal :=
  runEff (planStartEff r) s

/-- PLAN_STOP (R51). -/
def execPlanStop (r : Req) (s : State) : Host.Outcome State Fault Refusal :=
  runEff (planStopEff r) s

/-- PLAN_UNLOAD (R368). -/
def execPlanUnload (r : Req) (s : State) : Host.Outcome State Fault Refusal :=
  runEff (planUnloadEff r) s

/-- CTX_SAVE (R75). -/
def execCtxSave (r : Req) (es el : Ecc) (s : State) : Host.Outcome State Fault Refusal :=
  runEff (ctxSaveEff r es el) s

/-- CTX_RESTORE (R76). -/
def execCtxRestore (r : Req) (fs : List LineFind) (s : State) : Host.Outcome State Fault Refusal :=
  runEff (ctxRestoreEff r fs) s

/-- CTX_RESET (R76). -/
def execCtxReset (r : Req) (s : State) : Host.Outcome State Fault Refusal :=
  runEff (ctxResetEff r) s

/-- CORE_RETIRE (R80). -/
def execCoreRetire (r : Req) (spare : LaneFind) (s : State) : Host.Outcome State Fault Refusal :=
  runEff (coreRetireEff r spare) s

/-- SYNC_READ (R368). -/
def execSyncRead (r : Req) (s : State) : Host.Outcome State Fault Refusal :=
  runEff (syncReadEff r) s

/-- SYNC_WRITE (R259). -/
def execSyncWrite (r : Req) (s : State) : Host.Outcome State Fault Refusal :=
  runEff (syncWriteEff r) s

/-- DEBUG_CTL (R449). -/
def execDebugCtl (r : Req) (s : State) : Host.Outcome State Fault Refusal :=
  runEff (debugCtlEff r) s

/-- MEM_STATUS (R368). -/
def execMemStatus (r : Req) (s : State) : Host.Outcome State Fault Refusal :=
  runEff (memStatusEff r) s

/-- MEM_GRANULES (R137). -/
def execMemGranules (r : Req) (s : State) : Host.Outcome State Fault Refusal :=
  runEff (memGranulesEff r) s

/-- MEM_SCRUB (R126). -/
def execMemScrub (r : Req) (s : State) : Host.Outcome State Fault Refusal :=
  runEff (memScrubEff r) s

/-- PHO_CHANNEL (R156). -/
def execPhoChannel (r : Req) (s : State) : Host.Outcome State Fault Refusal :=
  runEff (phoChannelEff r) s

/-- PHO_CAL (R163). -/
def execPhoCal (r : Req) (s : State) : Host.Outcome State Fault Refusal :=
  runEff (phoCalEff r) s

/-- PORT_STATUS (R207). -/
def execPortStatus (r : Req) (s : State) : Host.Outcome State Fault Refusal :=
  runEff (portStatusEff r) s

/-- PORT_RETRAIN (R205). -/
def execPortRetrain (r : Req) (s : State) : Host.Outcome State Fault Refusal :=
  runEff (portRetrainEff r) s

/-- TIME_STATUS (R238). -/
def execTimeStatus (r : Req) (s : State) : Host.Outcome State Fault Refusal :=
  runEff (timeStatusEff r) s

/-- PIP_IN_BIND (R341). -/
def execPipInBind (r : Req) (s : State) : Host.Outcome State Fault Refusal :=
  runEff (pipInBindEff r) s

/-- PIP_OUT_BIND (R342). -/
def execPipOutBind (r : Req) (s : State) : Host.Outcome State Fault Refusal :=
  runEff (pipOutBindEff r) s

/-- HQ_ASSIGN (R66). -/
def execHqAssign (r : Req) (s : State) : Host.Outcome State Fault Refusal :=
  runEff (hqAssignEff r) s

/-- ETH_PORT_CFG (R277). -/
def execEthPortCfg (r : Req) (s : State) : Host.Outcome State Fault Refusal :=
  runEff (ethPortCfgEff r) s

/-- ETH_PORT_DRAIN (R281). -/
def execEthPortDrain (r : Req) (s : State) : Host.Outcome State Fault Refusal :=
  runEff (ethPortDrainEff r) s

/-- ENG_DIR_PUT (R320). -/
def execEngDirPut (r : Req) (fs : List LineFind) (s : State) : Host.Outcome State Fault Refusal :=
  runEff (engDirPutEff r fs) s

/-- ENG_DIR_DELETE (R320). -/
def execEngDirDelete (r : Req) (fs : List LineFind) (s : State) : Host.Outcome State Fault Refusal :=
  runEff (engDirDeleteEff r fs) s

/-- ENG_DIR_GET (R319). -/
def execEngDirGet (r : Req) (fs : List LineFind) (s : State) : Host.Outcome State Fault Refusal :=
  runEff (engDirGetEff r fs) s

/-- ENG_BUCKET_CLEAR (R327). -/
def execEngBucketClear (r : Req) (s : State) : Host.Outcome State Fault Refusal :=
  runEff (engBucketClearEff r) s

/-- ENG_SESSION_READ (R316). -/
def execEngSessionRead (r : Req) (fs : List LineFind) (s : State) : Host.Outcome State Fault Refusal :=
  runEff (engSessionReadEff r fs) s

/-- ENG_SESSION_CLOSE (R317). -/
def execEngSessionClose (r : Req) (fs : List LineFind) (s : State) : Host.Outcome State Fault Refusal :=
  runEff (engSessionCloseEff r fs) s

/-- POD_FORM (R489). -/
def execPodForm (r : Req) (fs : List LineFind) (s : State) : Host.Outcome State Fault Refusal :=
  runEff (podFormEff r fs) s

/-- JOB_LAUNCH (R489). -/
def execJobLaunch (r : Req) (fs : List LineFind) (s : State) : Host.Outcome State Fault Refusal :=
  runEff (jobLaunchEff r fs) s

/-- JOB_END (R299). -/
def execJobEnd (r : Req) (s : State) : Host.Outcome State Fault Refusal :=
  runEff (jobEndEff r) s

/-- CAP_ADD (R300). -/
def execCapAdd (r : Req) (fs : List LineFind) (s : State) : Host.Outcome State Fault Refusal :=
  runEff (capAddEff r fs) s

/-- CAP_REMOVE (R302). -/
def execCapRemove (r : Req) (s : State) : Host.Outcome State Fault Refusal :=
  runEff (capRemoveEff r) s

/-- POD_STATE (R375). -/
def execPodState (r : Req) (s : State) : Host.Outcome State Fault Refusal :=
  runEff (podStateEff r) s

/-- FAB_MAP (R305). -/
def execFabMap (r : Req) (s : State) : Host.Outcome State Fault Refusal :=
  runEff (fabMapEff r) s

/-- ROLE_SET (R375). -/
def execRoleSet (r : Req) (s : State) : Host.Outcome State Fault Refusal :=
  runEff (roleSetEff r) s

/-- FAB_ADDR_WRITE (R267). -/
def execFabAddrWrite (r : Req) (s : State) : Host.Outcome State Fault Refusal :=
  runEff (fabAddrWriteEff r) s

/-- FAB_RANK_WRITE (R266). -/
def execFabRankWrite (r : Req) (s : State) : Host.Outcome State Fault Refusal :=
  runEff (fabRankWriteEff r) s

/-- FAB_GROUP_WRITE (R293). -/
def execFabGroupWrite (r : Req) (s : State) : Host.Outcome State Fault Refusal :=
  runEff (fabGroupWriteEff r) s

/-- FAB_JOB_SET (R265). -/
def execFabJobSet (r : Req) (s : State) : Host.Outcome State Fault Refusal :=
  runEff (fabJobSetEff r) s

/-- FAB_JOB_ACTIVATE (R371). -/
def execFabJobActivate (r : Req) (s : State) : Host.Outcome State Fault Refusal :=
  runEff (fabJobActivateEff r) s

/-- FAB_TEARDOWN (R299). -/
def execFabTeardown (r : Req) (s : State) : Host.Outcome State Fault Refusal :=
  runEff (fabTeardownEff r) s

/-- FAB_FENCE (R295). -/
def execFabFence (r : Req) (s : State) : Host.Outcome State Fault Refusal :=
  runEff (fabFenceEff r) s

/-- FAB_EPOCH (R300). -/
def execFabEpoch (r : Req) (s : State) : Host.Outcome State Fault Refusal :=
  runEff (fabEpochEff r) s

/-- FAB_POD_STATE (R375). -/
def execFabPodState (r : Req) (s : State) : Host.Outcome State Fault Refusal :=
  runEff (fabPodStateEff r) s

/-- FAB_HEARTBEAT (R376). -/
def execFabHeartbeat (r : Req) (s : State) : Host.Outcome State Fault Refusal :=
  runEff (fabHeartbeatEff r) s

/-- FAB_MAP_REQ (R305). -/
def execFabMapReq (r : Req) (s : State) : Host.Outcome State Fault Refusal :=
  runEff (fabMapReqEff r) s

/-- FAB_DRAIN_NOTICE (R302). -/
def execFabDrainNotice (r : Req) (s : State) : Host.Outcome State Fault Refusal :=
  runEff (fabDrainNoticeEff r) s

/-- FAB_PATH_REPORT (R289). -/
def execFabPathReport (r : Req) (s : State) : Host.Outcome State Fault Refusal :=
  runEff (fabPathReportEff r) s

/-- JOB_END_FWD (R370). -/
def execJobEndFwd (r : Req) (s : State) : Host.Outcome State Fault Refusal :=
  runEff (jobEndFwdEff r) s

/-- CFG_READ (R368). -/
def execCfgRead (r : Req) (s : State) : Host.Outcome State Fault Refusal :=
  runEff (cfgReadEff r) s

/-- CFG_WRITE (R368). -/
def execCfgWriteCmd (r : Req) (s : State) : Host.Outcome State Fault Refusal :=
  runEff (cfgWriteEff r) s

/-- CTR_READ (R448). -/
def execCtrRead (r : Req) (s : State) : Host.Outcome State Fault Refusal :=
  runEff (ctrReadEff r) s

/-- TEST_RUN (R454). -/
def execTestRun (r : Req) (s : State) : Host.Outcome State Fault Refusal :=
  runEff (testRunEff r) s

/-- TEST_DONE (R457). -/
def execTestDone (tk : Nat) (f : TestFind) (s : State) : Host.Outcome State Fault Refusal :=
  runEff (testDoneEff tk f) s

/-- TRACE_SAMPLE (R451). -/
def execTraceSample (site : Nat) (s : State) : Host.Outcome State Fault Refusal :=
  runEff (traceSampleEff site) s

/-- ATB_DISCONNECT (R459). -/
def execAtbDisconnect (die bus : Nat) (s : State) : Host.Outcome State Fault Refusal :=
  runEff (atbDisconnectEff die bus) s

/-- MP_DRILL (R414). -/
def execMpDrill (r : Req) (failed site heldMs : Nat) (s : State) : Host.Outcome State Fault Refusal :=
  runEff (mpDrillEff r failed site heldMs) s

/-- POWER_STATE (R384). -/
def execPowerState (r : Req) (edge : Bool) (storeBad : List Nat) (s : State) : Host.Outcome State Fault Refusal :=
  runEff (powerStateEff r edge storeBad) s

/-- WAKE (R388). -/
def execWake (f : StartFind) (s : State) : Host.Outcome State Fault Refusal :=
  runEff (wakeEff f) s

/-- POWER_BUDGET (R380). -/
def execPowerBudget (r : Req) (s : State) : Host.Outcome State Fault Refusal :=
  runEff (powerBudgetEff r) s

/-- BUDGET_RECOMPUTE (R381). -/
def execBudgetRecompute (s : State) : Host.Outcome State Fault Refusal :=
  runEff (budgetRecomputeEff) s

/-- GRANT (R382). -/
def execGrant (n w seq : Nat) (s : State) : Host.Outcome State Fault Refusal :=
  runEff (grantEff n w seq) s

/-- GRANT_ACK (R382). -/
def execGrantAck (n seq : Nat) (s : State) : Host.Outcome State Fault Refusal :=
  runEff (grantAckEff n seq) s

/-- REQUEST (R382). -/
def execRequest (n w : Nat) (s : State) : Host.Outcome State Fault Refusal :=
  runEff (requestEff n w) s

/-- RETURN (R382). -/
def execReturnWatts (n w : Nat) (s : State) : Host.Outcome State Fault Refusal :=
  runEff (returnWattsEff n w) s

/-- PWR_PHASE_LOST (R379). -/
def execPwrPhaseLost (site kind phases : Nat) (s : State) : Host.Outcome State Fault Refusal :=
  runEff (pwrPhaseLostEff site kind phases) s

/-- ROOD_REGATE (R385). -/
def execRoodRegate (site id : Nat) (s : State) : Host.Outcome State Fault Refusal :=
  runEff (roodRegateEff site id) s

/-- THERMAL_CAP_STEP (R391). -/
def execThermalCapStep (site : Nat) (s : State) : Host.Outcome State Fault Refusal :=
  runEff (thermalCapStepEff site) s

/-- THERMAL_RESTART (R391). -/
def execThermalRestart (site : Nat) (pass : Bool) (s : State) : Host.Outcome State Fault Refusal :=
  runEff (thermalRestartEff site pass) s

/-- MP_HEARTBEAT (R409). -/
def execMpHeartbeat (b : Bool) (s : State) : Host.Outcome State Fault Refusal :=
  runEff (mpHeartbeatEff b) s

/-- MP_TAKEOVER (R409). -/
def execMpTakeover (s : State) : Host.Outcome State Fault Refusal :=
  runEff (mpTakeoverEff) s

/-- STANDBY_FAULT (R409). -/
def execStandbyFault (s : State) : Host.Outcome State Fault Refusal :=
  runEff (standbyFaultEff) s

/-- TAKEOVER_RESET_TIMER (R410). -/
def execTakeoverResetTimer (s : State) : Host.Outcome State Fault Refusal :=
  runEff (takeoverResetTimerEff) s

/-- STANDBY_READY (R411). -/
def execStandbyReady (pass : Bool) (s : State) : Host.Outcome State Fault Refusal :=
  runEff (standbyReadyEff pass) s

/-- MP_RETURN (R412). -/
def execMpReturn (s : State) : Host.Outcome State Fault Refusal :=
  runEff (mpReturnEff) s

/-- MP_WATCHDOG (R413). -/
def execMpWatchdog (s : State) : Host.Outcome State Fault Refusal :=
  runEff (mpWatchdogEff) s

/-- FM_HEARTBEAT_SEND (R376). -/
def execFmHeartbeatSend (s : State) : Host.Outcome State Fault Refusal :=
  runEff (fmHeartbeatSendEff) s

/-- MANAGER_LOST (R376). -/
def execManagerLost (s : State) : Host.Outcome State Fault Refusal :=
  runEff (managerLostEff) s

/-- FM_LEASE_EXPIRY (R418). -/
def execFmLeaseExpiry (s : State) : Host.Outcome State Fault Refusal :=
  runEff (fmLeaseExpiryEff) s

/-- FM_TAKEOVER (R418). -/
def execFmTakeover (held : List HeldCmd) (s : State) : Host.Outcome State Fault Refusal :=
  runEff (fmTakeoverEff held) s

/-- FM_RETURN (R419). -/
def execFmReturn (s : State) : Host.Outcome State Fault Refusal :=
  runEff (fmReturnEff) s

/-- GUEST_PACKET (R422). -/
def execGuestPacket (p : OPkt) (fs : List LineFind) (e : Ecc) (s : State) : Host.Outcome State Fault Refusal :=
  runEff (guestPacketEff p fs e) s

/-- GUEST_LINK_DOWN (R423). -/
def execGuestLinkDown (s : State) : Host.Outcome State Fault Refusal :=
  runEff (guestLinkDownEff) s

/-- UPD_STAGE (R430). -/
def execUpdStage (r : Req) (sd : Option (List Byte)) (writeOk : Bool) (s : State) : Host.Outcome State Fault Refusal :=
  runEff (updStageEff r sd writeOk) s

/-- UPD_ACTIVATE (R432). -/
def execUpdActivate (r : Req) (s : State) : Host.Outcome State Fault Refusal :=
  runEff (updActivateEff r) s

/-- ACTIVATION_RELOAD_DONE (R432). -/
def execActivationReloadDone (pass : Bool) (fuseFails : Option Nat) (s : State) : Host.Outcome State Fault Refusal :=
  runEff (activationReloadDoneEff pass fuseFails) s

/-- UPD_LOCK (R439). -/
def execUpdLock (r : Req) (s : State) : Host.Outcome State Fault Refusal :=
  runEff (updLockEff r) s

/-- ATTEST (R443). -/
def execAttest (r : Req) (s : State) : Host.Outcome State Fault Refusal :=
  runEff (attestEff r) s

/-- RCV_BEGIN (R440). -/
def execRcvBegin (r : Req) (s : State) : Host.Outcome State Fault Refusal :=
  runEff (rcvBeginEff r) s

/-- RCV_DATA (R440). -/
def execRcvData (r : Req) (s : State) : Host.Outcome State Fault Refusal :=
  runEff (rcvDataEff r) s

/-- RCV_END (R440). -/
def execRcvEnd (r : Req) (f : StartFind) (s : State) : Host.Outcome State Fault Refusal :=
  runEff (rcvEndEff r f) s

/-- RCV_FROM_SD (R440). -/
def execRcvFromSd (r : Req) (f : StartFind) (s : State) : Host.Outcome State Fault Refusal :=
  runEff (rcvFromSdEff r f) s

/-- ALWAYS_ON_DOMAIN_UP (R469). -/
def execAlwaysOnDomainUp (s : State) : Host.Outcome State Fault Refusal :=
  runEff (alwaysOnDomainUpEff) s

/-- PERST_RELEASE (R469). -/
def execPerstRelease (s : State) : Host.Outcome State Fault Refusal :=
  runEff (perstReleaseEff) s

/-- PCIE_LINK_CHANGE (R469). -/
def execPcieLinkChange (up rated : Bool) (s : State) : Host.Outcome State Fault Refusal :=
  runEff (pcieLinkChangeEff up rated) s

/-- ETH_LINK_DOWN (R280). -/
def execEthLinkDown (port : Nat) (s : State) : Host.Outcome State Fault Refusal :=
  runEff (ethLinkDownEff port) s

/-- ETH_LINK_UP (R177). -/
def execEthLinkUp (port : Nat) (s : State) : Host.Outcome State Fault Refusal :=
  runEff (ethLinkUpEff port) s

/-- OOB_LINK_CHANGE (R347). -/
def execOobLinkChange (up : Bool) (s : State) : Host.Outcome State Fault Refusal :=
  runEff (oobLinkChangeEff up) s

/-- GUEST_LINK_UP (R423). -/
def execGuestLinkUp (s : State) : Host.Outcome State Fault Refusal :=
  runEff (guestLinkUpEff) s

/-- HBM_INTERFACE_ERROR (R135). -/
def execHbmInterfaceError (m ch : Nat) (trains : Bool) (s : State) : Host.Outcome State Fault Refusal :=
  runEff (hbmInterfaceErrorEff m ch trains) s

/-- LANE_MONITOR_FAILURE (R205). -/
def execLaneMonitorFailure (port side : Nat) (s : State) : Host.Outcome State Fault Refusal :=
  runEff (laneMonitorFailureEff port side) s

/-- COMPARATOR_CLEAR (R388). -/
def execComparatorClear (vin : Bool) (s : State) : Host.Outcome State Fault Refusal :=
  runEff (comparatorClearEff vin) s

/-- REFCLK_RETURN (R211). -/
def execRefclkReturn (s : State) : Host.Outcome State Fault Refusal :=
  runEff (refclkReturnEff) s

/-- MSIX_TABLE_WRITE (R344). -/
def execMsixTableWrite (vec w : Nat) (v : Word32) (s : State) : Host.Outcome State Fault Refusal :=
  runEff (msixTableWriteEff vec w v) s

/-- FENCE_BITMAP_RESEND (R489). -/
def execFenceBitmapResend (pkg gen eps : Nat) (pkgs : List Nat) (s : State) : Host.Outcome State Fault Refusal :=
  runEff (fenceBitmapResendEff pkg gen eps pkgs) s

/-- EGRESS_FRAME_SENT (R290). -/
def execEgressFrameSent (port : Nat) (s : State) : Host.Outcome State Fault Refusal :=
  runEff (egressFrameSentEff port) s

end Sys2Proof.Machine
end

