-- ==== Sys2Proof/Machine/Dispatch.lean ====
section
/-! DEFINITION. Dispatch.lean: the meaning of each command, one arm for each constructor. -/
namespace Sys2Proof.Machine

def exec (i : Instr) (s : State) : Host.Outcome State Fault Refusal :=
  match i with
  | .packageStart testmode a1 a0 f => Sys2Proof.Machine.execPackageStart testmode a1 a0 f s
  | .rootPllFirstLock site => Sys2Proof.Machine.execRootPllFirstLock site s
  | .pwrgdFall => Sys2Proof.Machine.execPwrgdFall s
  | .hwrstAssert => Sys2Proof.Machine.execHwrstAssert s
  | .perstAssert kind => Sys2Proof.Machine.execPerstAssert kind s
  | .vin12Removal => Sys2Proof.Machine.execVin12Removal s
  | .wakeInEdge => Sys2Proof.Machine.execWakeInEdge s
  | .coolantInletTrip => Sys2Proof.Machine.execCoolantInletTrip s
  | .hotSpotTrip => Sys2Proof.Machine.execHotSpotTrip s
  | .vin12WindowTrip => Sys2Proof.Machine.execVin12WindowTrip s
  | .vin12TripTimeout => Sys2Proof.Machine.execVin12TripTimeout s
  | .jtagInstruction n => Sys2Proof.Machine.execJtagInstruction n s
  | .nop c w => Sys2Proof.Machine.execNop c w s
  | .endInstr c w => Sys2Proof.Machine.execEndInstr c w s
  | .rdcyc c w => Sys2Proof.Machine.execRdcyc c w s
  | .rdgtc c w => Sys2Proof.Machine.execRdgtc c w s
  | .waitcyc c w => Sys2Proof.Machine.execWaitcyc c w s
  | .waitcycExpiry c => Sys2Proof.Machine.execWaitcycExpiry c s
  | .br c w => Sys2Proof.Machine.execBr c w s
  | .beqz c w => Sys2Proof.Machine.execBeqz c w s
  | .bnez c w => Sys2Proof.Machine.execBnez c w s
  | .loopInstr c w => Sys2Proof.Machine.execLoopInstr c w s
  | .salu c w => Sys2Proof.Machine.execSalu c w s
  | .simm c w => Sys2Proof.Machine.execSimm c w s
  | .slsLoad c w e => Sys2Proof.Machine.execSlsLoad c w e s
  | .slsStore c w e => Sys2Proof.Machine.execSlsStore c w e s
  | .scmLoad c w e => Sys2Proof.Machine.execScmLoad c w e s
  | .scmStore c w e => Sys2Proof.Machine.execScmStore c w e s
  | .vlsLd c w e => Sys2Proof.Machine.execVlsLd c w e s
  | .vlsSt c w => Sys2Proof.Machine.execVlsSt c w s
  | .vcmLd c w e => Sys2Proof.Machine.execVcmLd c w e s
  | .vcmSt c w => Sys2Proof.Machine.execVcmSt c w s
  | .vf32 c w => Sys2Proof.Machine.execVf32 c w s
  | .vf64 c w => Sys2Proof.Machine.execVf64 c w s
  | .vint c w => Sys2Proof.Machine.execVint c w s
  | .cvt c w => Sys2Proof.Machine.execCvt c w s
  | .blockCvt c w => Sys2Proof.Machine.execBlockCvt c w s
  | .vred c w => Sys2Proof.Machine.execVred c w s
  | .tzero c w e => Sys2Proof.Machine.execTzero c w e s
  | .tmma c w => Sys2Proof.Machine.execTmma c w s
  | .tslice c w => Sys2Proof.Machine.execTslice c w s
  | .tstore c w e => Sys2Proof.Machine.execTstore c w e s
  | .tensorQueueAdvance c e => Sys2Proof.Machine.execTensorQueueAdvance c e s
  | .tensorResultReady c => Sys2Proof.Machine.execTensorResultReady c s
  | .vcx c w => Sys2Proof.Machine.execVcx c w s
  | .hmx c w => Sys2Proof.Machine.execHmx c w s
  | .dpost c w e => Sys2Proof.Machine.execDpost c w e s
  | .dpostResume c => Sys2Proof.Machine.execDpostResume c s
  | .vcxCompletion c e => Sys2Proof.Machine.execVcxCompletion c e s
  | .hmxCompletion c tok e fs => Sys2Proof.Machine.execHmxCompletion c tok e fs s
  | .waitt c w => Sys2Proof.Machine.execWaitt c w s
  | .waittResume c => Sys2Proof.Machine.execWaittResume c s
  | .tstat c w => Sys2Proof.Machine.execTstat c w s
  | .waitall c w => Sys2Proof.Machine.execWaitall c w s
  | .waitallResume c => Sys2Proof.Machine.execWaitallResume c s
  | .csrr c w => Sys2Proof.Machine.execCsrr c w s
  | .csrw c w => Sys2Proof.Machine.execCsrw c w s
  | .brk c w => Sys2Proof.Machine.execBrk c w s
  | .sinit c w => Sys2Proof.Machine.execSinit c w s
  | .spost c w => Sys2Proof.Machine.execSpost c w s
  | .swait c w => Sys2Proof.Machine.execSwait c w s
  | .swaitResume c => Sys2Proof.Machine.execSwaitResume c s
  | .stry c w => Sys2Proof.Machine.execStry c w s
  | .sread c w => Sys2Proof.Machine.execSread c w s
  | .spostr c w => Sys2Proof.Machine.execSpostr c w s
  | .spostrResume c => Sys2Proof.Machine.execSpostrResume c s
  | .post src target => Sys2Proof.Machine.execPost src target s
  | .bcfg c w => Sys2Proof.Machine.execBcfg c w s
  | .barr c w => Sys2Proof.Machine.execBarr c w s
  | .bwait c w => Sys2Proof.Machine.execBwait c w s
  | .bar c w => Sys2Proof.Machine.execBar c w s
  | .bstat c w => Sys2Proof.Machine.execBstat c w s
  | .arrive lv unit slot sender => Sys2Proof.Machine.execArrive lv unit slot sender s
  | .release lv unit slot => Sys2Proof.Machine.execRelease lv unit slot s
  | .planBoundary pt spares => Sys2Proof.Machine.execPlanBoundary pt spares s
  | .sramScrub kind unit corr bad => Sys2Proof.Machine.execSramScrub kind unit corr bad s
  | .sramScrubTimeout kind unit => Sys2Proof.Machine.execSramScrubTimeout kind unit s
  | .vcBeatReplay p again => Sys2Proof.Machine.execVcBeatReplay p again s
  | .laneTest p => Sys2Proof.Machine.execLaneTest p s
  | .laneTestDone p ctrl failed spare => Sys2Proof.Machine.execLaneTestDone p ctrl failed spare s
  | .vlaneRecal p => Sys2Proof.Machine.execVlaneRecal p s
  | .hbmPatrolRead m fs => Sys2Proof.Machine.execHbmPatrolRead m fs s
  | .hbmRowSparing m row fs => Sys2Proof.Machine.execHbmRowSparing m row fs s
  | .hbmChannelCopyLine m fs => Sys2Proof.Machine.execHbmChannelCopyLine m fs s
  | .hbmSpareFailed m => Sys2Proof.Machine.execHbmSpareFailed m s
  | .hbmSpareTest m pass => Sys2Proof.Machine.execHbmSpareTest m pass s
  | .ringLoopUpdate b l ring cur => Sys2Proof.Machine.execRingLoopUpdate b l ring cur s
  | .ringNoLight b l ring => Sys2Proof.Machine.execRingNoLight b l ring s
  | .housekeepingRound site r => Sys2Proof.Machine.execHousekeepingRound site r s
  | .castlingLambda16Switch t c pow => Sys2Proof.Machine.execCastlingLambda16Switch t c pow s
  | .castlingLineMove t c pass => Sys2Proof.Machine.execCastlingLineMove t c pass s
  | .bundleUp b bad cleared => Sys2Proof.Machine.execBundleUp b bad cleared s
  | .calDue b l => Sys2Proof.Machine.execCalDue b l s
  | .calBegin b l => Sys2Proof.Machine.execCalBegin b l s
  | .calMeasurementDone b l m1 m2 => Sys2Proof.Machine.execCalMeasurementDone b l m1 m2 s
  | .calLaneReturn b l => Sys2Proof.Machine.execCalLaneReturn b l s
  | .calStoreWrite t ok => Sys2Proof.Machine.execCalStoreWrite t ok s
  | .identityWordReceived b l w => Sys2Proof.Machine.execIdentityWordReceived b l w s
  | .trainingFrameRequest b => Sys2Proof.Machine.execTrainingFrameRequest b s
  | .mislockAttemptDone b l tr rr => Sys2Proof.Machine.execMislockAttemptDone b l tr rr s
  | .flitReceived b svc bs => Sys2Proof.Machine.execFlitReceived b svc bs s
  | .nakReceived b svc ack => Sys2Proof.Machine.execNakReceived b svc ack s
  | .nakRepeatTimeout b svc => Sys2Proof.Machine.execNakRepeatTimeout b svc s
  | .write p => Sys2Proof.Machine.execWrite p s
  | .read p fs e => Sys2Proof.Machine.execRead p fs e s
  | .readData p => Sys2Proof.Machine.execReadData p s
  | .signal p fs e => Sys2Proof.Machine.execSignal p fs e s
  | .completion p => Sys2Proof.Machine.execCompletion p s
  | .mgmt p term kind fields => Sys2Proof.Machine.execMgmt p term kind fields s
  | .portPartialReset port side => Sys2Proof.Machine.execPortPartialReset port side s
  | .start port side m => Sys2Proof.Machine.execStart port side m s
  | .startRepeat port side => Sys2Proof.Machine.execStartRepeat port side s
  | .portLaneTestDone port side failed => Sys2Proof.Machine.execPortLaneTestDone port side failed s
  | .propose port side m => Sys2Proof.Machine.execPropose port side m s
  | .confirm port side m => Sys2Proof.Machine.execConfirm port side m s
  | .handshakeTimeout port side => Sys2Proof.Machine.execHandshakeTimeout port side s
  | .portFailCountReset port => Sys2Proof.Machine.execPortFailCountReset port s
  | .pllLossOfLock site cause => Sys2Proof.Machine.execPllLossOfLock site cause s
  | .pllStandbyReady site => Sys2Proof.Machine.execPllStandbyReady site s
  | .pllFail site => Sys2Proof.Machine.execPllFail site s
  | .refFallback site => Sys2Proof.Machine.execRefFallback site s
  | .refRestored site => Sys2Proof.Machine.execRefRestored site s
  | .refLost site => Sys2Proof.Machine.execRefLost site s
  | .droopTrip site id => Sys2Proof.Machine.execDroopTrip site id s
  | .roodHoldExpiry site id => Sys2Proof.Machine.execRoodHoldExpiry site id s
  | .roodStop site id => Sys2Proof.Machine.execRoodStop site id s
  | .roodFreq site id => Sys2Proof.Machine.execRoodFreq site id s
  | .timeMarkSend => Sys2Proof.Machine.execTimeMarkSend s
  | .timeMarkReceived site m own latched => Sys2Proof.Machine.execTimeMarkReceived site m own latched s
  | .delayEcho site roundTrip turnaround lambda16 => Sys2Proof.Machine.execDelayEcho site roundTrip turnaround lambda16 s
  | .gtcHoldoverEv site cause => Sys2Proof.Machine.execGtcHoldoverEv site cause s
  | .timeSrcChange toPrimary => Sys2Proof.Machine.execTimeSrcChange toPrimary s
  | .ptpMessage m => Sys2Proof.Machine.execPtpMessage m s
  | .ptmDialogue ok master => Sys2Proof.Machine.execPtmDialogue ok master s
  | .counterExtensionPoll => Sys2Proof.Machine.execCounterExtensionPoll s
  | .stalemate pt st => Sys2Proof.Machine.execStalemate pt st s
  | .descEngineTurn unit fs e => Sys2Proof.Machine.execDescEngineTurn unit fs e s
  | .descriptorCompletion st h => Sys2Proof.Machine.execDescriptorCompletion st h s
  | .desc p => Sys2Proof.Machine.execDesc p s
  | .txdata p => Sys2Proof.Machine.execTxdata p s
  | .comp p => Sys2Proof.Machine.execComp p s
  | .rxdata p => Sys2Proof.Machine.execRxdata p s
  | .rxsignal p fs e => Sys2Proof.Machine.execRxsignal p fs e s
  | .rxread p fs e => Sys2Proof.Machine.execRxread p fs e s
  | .rddata p => Sys2Proof.Machine.execRddata p s
  | .hqcredit p => Sys2Proof.Machine.execHqcredit p s
  | .fabData p a grp => Sys2Proof.Machine.execFabData p a grp s
  | .fabRead p a => Sys2Proof.Machine.execFabRead p a s
  | .fabReadData p a => Sys2Proof.Machine.execFabReadData p a s
  | .fabComplete p a => Sys2Proof.Machine.execFabComplete p a s
  | .fabAck p a => Sys2Proof.Machine.execFabAck p a s
  | .fabBarrier p a => Sys2Proof.Machine.execFabBarrier p a s
  | .fabMgmt p a m isAnswer => Sys2Proof.Machine.execFabMgmt p a m isAnswer s
  | .ackSendTimeout pkg stream => Sys2Proof.Machine.execAckSendTimeout pkg stream s
  | .retransmitTimeout pkg stream seq => Sys2Proof.Machine.execRetransmitTimeout pkg stream seq s
  | .pathProbe pkg => Sys2Proof.Machine.execPathProbe pkg s
  | .rateIncrease pkg => Sys2Proof.Machine.execRateIncrease pkg s
  | .pfcPauseReceived port prio pause => Sys2Proof.Machine.execPfcPauseReceived port prio pause s
  | .drainComplete port => Sys2Proof.Machine.execDrainComplete port s
  | .teardownReportTimeout id => Sys2Proof.Machine.execTeardownReportTimeout id s
  | .telemetryRecord port => Sys2Proof.Machine.execTelemetryRecord port s
  | .requestFrame port ip peerPort bs fs => Sys2Proof.Machine.execRequestFrame port ip peerPort bs fs s
  | .openRec host ip port session nonce rec fs => Sys2Proof.Machine.execOpenRec host ip port session nonce rec fs s
  | .closeRec host ip port session nonce rec fs => Sys2Proof.Machine.execCloseRec host ip port session nonce rec fs s
  | .ping host ip port session nonce rec fs => Sys2Proof.Machine.execPing host ip port session nonce rec fs s
  | .infer host ip port session nonce rec fs => Sys2Proof.Machine.execInfer host ip port session nonce rec fs s
  | .updateRec host ip port session nonce rec fs => Sys2Proof.Machine.execUpdateRec host ip port session nonce rec fs s
  | .hostRingPip fs => Sys2Proof.Machine.execHostRingPip fs s
  | .batchClose => Sys2Proof.Machine.execBatchClose s
  | .batchDispatch => Sys2Proof.Machine.execBatchDispatch s
  | .batchReturn fs => Sys2Proof.Machine.execBatchReturn fs s
  | .deadlineMiss => Sys2Proof.Machine.execDeadlineMiss s
  | .sessionIdleTimeout n fs => Sys2Proof.Machine.execSessionIdleTimeout n fs s
  | .mw15Write v => Sys2Proof.Machine.execMw15Write v s
  | .m2hRelease v => Sys2Proof.Machine.execM2hRelease v s
  | .h2dRing v => Sys2Proof.Machine.execH2dRing v s
  | .d2hTake v => Sys2Proof.Machine.execD2hTake v s
  | .d2hMaskWrite v => Sys2Proof.Machine.execD2hMaskWrite v s
  | .vecMaskWrite v => Sys2Proof.Machine.execVecMaskWrite v s
  | .wvRead v => Sys2Proof.Machine.execWvRead v s
  | .wvWrite v => Sys2Proof.Machine.execWvWrite v s
  | .wvComplete => Sys2Proof.Machine.execWvComplete s
  | .evqConsWrite v => Sys2Proof.Machine.execEvqConsWrite v s
  | .registerWrite off be v => Sys2Proof.Machine.execRegisterWrite off be v s
  | .bar2Read x n fs => Sys2Proof.Machine.execBar2Read x n fs s
  | .bar2Write x bs ep fs => Sys2Proof.Machine.execBar2Write x bs ep fs s
  | .paritySweep found rewriteFails => Sys2Proof.Machine.execParitySweep found rewriteFails s
  | .oobDatagram peer port seq ver ws => Sys2Proof.Machine.execOobDatagram peer port seq ver ws s
  | .oobPeerExpiry peer => Sys2Proof.Machine.execOobPeerExpiry peer s
  | .fmMessage m isAnswer => Sys2Proof.Machine.execFmMessage m isAnswer s
  | .smbBlockWrite count pecOk ws => Sys2Proof.Machine.execSmbBlockWrite count pecOk ws s
  | .smbBlockRead => Sys2Proof.Machine.execSmbBlockRead s
  | .smbReadByte => Sys2Proof.Machine.execSmbReadByte s
  | .smbAlertResponse => Sys2Proof.Machine.execSmbAlertResponse s
  | .prepare site term op r accepts => Sys2Proof.Machine.execPrepare site term op r accepts s
  | .commit site term => Sys2Proof.Machine.execCommit site term s
  | .abortCmd site term => Sys2Proof.Machine.execAbortCmd site term s
  | .prepareTimeout site => Sys2Proof.Machine.execPrepareTimeout site s
  | .controllerStatus site => Sys2Proof.Machine.execControllerStatus site s
  | .controllerUnresponsive site => Sys2Proof.Machine.execControllerUnresponsive site s
  | .ctrlRestart site us pass => Sys2Proof.Machine.execCtrlRestart site us pass s
  | .journalResolution => Sys2Proof.Machine.execJournalResolution s
  | .nopCommand r => Sys2Proof.Machine.execNopCommand r s
  | .cmdResult r => Sys2Proof.Machine.execCmdResult r s
  | .mpStatus r => Sys2Proof.Machine.execMpStatus r s
  | .identRead r => Sys2Proof.Machine.execIdentRead r s
  | .partForm r => Sys2Proof.Machine.execPartForm r s
  | .partDissolve r => Sys2Proof.Machine.execPartDissolve r s
  | .partWindow r => Sys2Proof.Machine.execPartWindow r s
  | .partOverlay r => Sys2Proof.Machine.execPartOverlay r s
  | .partStalemate r => Sys2Proof.Machine.execPartStalemate r s
  | .partApply r => Sys2Proof.Machine.execPartApply r s
  | .partReport r => Sys2Proof.Machine.execPartReport r s
  | .planLoad r fs => Sys2Proof.Machine.execPlanLoad r fs s
  | .planStart r => Sys2Proof.Machine.execPlanStart r s
  | .planStop r => Sys2Proof.Machine.execPlanStop r s
  | .planUnload r => Sys2Proof.Machine.execPlanUnload r s
  | .ctxSave r es el => Sys2Proof.Machine.execCtxSave r es el s
  | .ctxRestore r fs => Sys2Proof.Machine.execCtxRestore r fs s
  | .ctxReset r => Sys2Proof.Machine.execCtxReset r s
  | .coreRetire r spare => Sys2Proof.Machine.execCoreRetire r spare s
  | .syncRead r => Sys2Proof.Machine.execSyncRead r s
  | .syncWrite r => Sys2Proof.Machine.execSyncWrite r s
  | .debugCtl r => Sys2Proof.Machine.execDebugCtl r s
  | .memStatus r => Sys2Proof.Machine.execMemStatus r s
  | .memGranules r => Sys2Proof.Machine.execMemGranules r s
  | .memScrub r => Sys2Proof.Machine.execMemScrub r s
  | .phoChannel r => Sys2Proof.Machine.execPhoChannel r s
  | .phoCal r => Sys2Proof.Machine.execPhoCal r s
  | .portStatus r => Sys2Proof.Machine.execPortStatus r s
  | .portRetrain r => Sys2Proof.Machine.execPortRetrain r s
  | .timeStatus r => Sys2Proof.Machine.execTimeStatus r s
  | .pipInBind r => Sys2Proof.Machine.execPipInBind r s
  | .pipOutBind r => Sys2Proof.Machine.execPipOutBind r s
  | .hqAssign r => Sys2Proof.Machine.execHqAssign r s
  | .ethPortCfg r => Sys2Proof.Machine.execEthPortCfg r s
  | .ethPortDrain r => Sys2Proof.Machine.execEthPortDrain r s
  | .engDirPut r fs => Sys2Proof.Machine.execEngDirPut r fs s
  | .engDirDelete r fs => Sys2Proof.Machine.execEngDirDelete r fs s
  | .engDirGet r fs => Sys2Proof.Machine.execEngDirGet r fs s
  | .engBucketClear r => Sys2Proof.Machine.execEngBucketClear r s
  | .engSessionRead r fs => Sys2Proof.Machine.execEngSessionRead r fs s
  | .engSessionClose r fs => Sys2Proof.Machine.execEngSessionClose r fs s
  | .podForm r fs => Sys2Proof.Machine.execPodForm r fs s
  | .jobLaunch r fs => Sys2Proof.Machine.execJobLaunch r fs s
  | .jobEnd r => Sys2Proof.Machine.execJobEnd r s
  | .capAdd r fs => Sys2Proof.Machine.execCapAdd r fs s
  | .capRemove r => Sys2Proof.Machine.execCapRemove r s
  | .podState r => Sys2Proof.Machine.execPodState r s
  | .fabMap r => Sys2Proof.Machine.execFabMap r s
  | .roleSet r => Sys2Proof.Machine.execRoleSet r s
  | .fabAddrWrite r => Sys2Proof.Machine.execFabAddrWrite r s
  | .fabRankWrite r => Sys2Proof.Machine.execFabRankWrite r s
  | .fabGroupWrite r => Sys2Proof.Machine.execFabGroupWrite r s
  | .fabJobSet r => Sys2Proof.Machine.execFabJobSet r s
  | .fabJobActivate r => Sys2Proof.Machine.execFabJobActivate r s
  | .fabTeardown r => Sys2Proof.Machine.execFabTeardown r s
  | .fabFence r => Sys2Proof.Machine.execFabFence r s
  | .fabEpoch r => Sys2Proof.Machine.execFabEpoch r s
  | .fabPodState r => Sys2Proof.Machine.execFabPodState r s
  | .fabHeartbeat r => Sys2Proof.Machine.execFabHeartbeat r s
  | .fabMapReq r => Sys2Proof.Machine.execFabMapReq r s
  | .fabDrainNotice r => Sys2Proof.Machine.execFabDrainNotice r s
  | .fabPathReport r => Sys2Proof.Machine.execFabPathReport r s
  | .jobEndFwd r => Sys2Proof.Machine.execJobEndFwd r s
  | .cfgRead r => Sys2Proof.Machine.execCfgRead r s
  | .cfgWriteCmd r => Sys2Proof.Machine.execCfgWriteCmd r s
  | .ctrRead r => Sys2Proof.Machine.execCtrRead r s
  | .testRun r => Sys2Proof.Machine.execTestRun r s
  | .testDone tk f => Sys2Proof.Machine.execTestDone tk f s
  | .traceSample site => Sys2Proof.Machine.execTraceSample site s
  | .atbDisconnect die bus => Sys2Proof.Machine.execAtbDisconnect die bus s
  | .mpDrill r failed site heldMs => Sys2Proof.Machine.execMpDrill r failed site heldMs s
  | .powerState r edge storeBad => Sys2Proof.Machine.execPowerState r edge storeBad s
  | .wake f => Sys2Proof.Machine.execWake f s
  | .powerBudget r => Sys2Proof.Machine.execPowerBudget r s
  | .budgetRecompute => Sys2Proof.Machine.execBudgetRecompute s
  | .grant n w seq => Sys2Proof.Machine.execGrant n w seq s
  | .grantAck n seq => Sys2Proof.Machine.execGrantAck n seq s
  | .request n w => Sys2Proof.Machine.execRequest n w s
  | .returnWatts n w => Sys2Proof.Machine.execReturnWatts n w s
  | .pwrPhaseLost site kind phases => Sys2Proof.Machine.execPwrPhaseLost site kind phases s
  | .roodRegate site id => Sys2Proof.Machine.execRoodRegate site id s
  | .thermalCapStep site => Sys2Proof.Machine.execThermalCapStep site s
  | .thermalRestart site pass => Sys2Proof.Machine.execThermalRestart site pass s
  | .mpHeartbeat b => Sys2Proof.Machine.execMpHeartbeat b s
  | .mpTakeover => Sys2Proof.Machine.execMpTakeover s
  | .standbyFault => Sys2Proof.Machine.execStandbyFault s
  | .takeoverResetTimer => Sys2Proof.Machine.execTakeoverResetTimer s
  | .standbyReady pass => Sys2Proof.Machine.execStandbyReady pass s
  | .mpReturn => Sys2Proof.Machine.execMpReturn s
  | .mpWatchdog => Sys2Proof.Machine.execMpWatchdog s
  | .fmHeartbeatSend => Sys2Proof.Machine.execFmHeartbeatSend s
  | .managerLost => Sys2Proof.Machine.execManagerLost s
  | .fmLeaseExpiry => Sys2Proof.Machine.execFmLeaseExpiry s
  | .fmTakeover held => Sys2Proof.Machine.execFmTakeover held s
  | .fmReturn => Sys2Proof.Machine.execFmReturn s
  | .guestPacket p fs e => Sys2Proof.Machine.execGuestPacket p fs e s
  | .guestLinkDown => Sys2Proof.Machine.execGuestLinkDown s
  | .updStage r sd writeOk => Sys2Proof.Machine.execUpdStage r sd writeOk s
  | .updActivate r => Sys2Proof.Machine.execUpdActivate r s
  | .activationReloadDone pass fuseFails => Sys2Proof.Machine.execActivationReloadDone pass fuseFails s
  | .updLock r => Sys2Proof.Machine.execUpdLock r s
  | .attest r => Sys2Proof.Machine.execAttest r s
  | .rcvBegin r => Sys2Proof.Machine.execRcvBegin r s
  | .rcvData r => Sys2Proof.Machine.execRcvData r s
  | .rcvEnd r f => Sys2Proof.Machine.execRcvEnd r f s
  | .rcvFromSd r f => Sys2Proof.Machine.execRcvFromSd r f s
  | .alwaysOnDomainUp => Sys2Proof.Machine.execAlwaysOnDomainUp s
  | .perstRelease => Sys2Proof.Machine.execPerstRelease s
  | .pcieLinkChange up rated => Sys2Proof.Machine.execPcieLinkChange up rated s
  | .ethLinkDown port => Sys2Proof.Machine.execEthLinkDown port s
  | .ethLinkUp port => Sys2Proof.Machine.execEthLinkUp port s
  | .oobLinkChange up => Sys2Proof.Machine.execOobLinkChange up s
  | .guestLinkUp => Sys2Proof.Machine.execGuestLinkUp s
  | .hbmInterfaceError m ch trains => Sys2Proof.Machine.execHbmInterfaceError m ch trains s
  | .laneMonitorFailure port side => Sys2Proof.Machine.execLaneMonitorFailure port side s
  | .comparatorClear vin => Sys2Proof.Machine.execComparatorClear vin s
  | .refclkReturn => Sys2Proof.Machine.execRefclkReturn s
  | .msixTableWrite vec w v => Sys2Proof.Machine.execMsixTableWrite vec w v s
  | .fenceBitmapResend pkg gen eps pkgs => Sys2Proof.Machine.execFenceBitmapResend pkg gen eps pkgs s
  | .egressFrameSent port => Sys2Proof.Machine.execEgressFrameSent port s

end Sys2Proof.Machine
end

