-- ==== Sys2Proof/Machine/Bar0.lean ====
section
/-! DEFINITION. Bar0.lean: what a read of a BAR0 register returns (spec/00 R11, R15; spec/11 R334 to R349). A read changes no state, so the table of
commands has no row for it. Beside it what configuration space and BAR4 show (R330). -/
namespace Sys2Proof.Machine

/-! ## The identity block (R336) -/

/-- IDENT (R336): PART, REV and FUSE_FMT of the KH block, and the BAR0 layout. -/
def identReg (s : State) : BitVec 32 :=
  let kh := (mget s.fuses.blocks 0 siteKH).toNat
  BitVec.ofNat 32 (bitsN kh 24 8 * 2 ^ 24 + bitsN kh 32 8 * 2 ^ 16 + bitsN kh 40 8 * 2 ^ 8 + 1)
/-- SITES (R336): the populated KC dies, memory groups, the hub and the guest die; a fence clears none of them. -/
def sitesReg (s : State) : BitVec 32 :=
  BitVec.ofNat 32 ((2 ^ stacksOf s.pkg.part - 1) + (2 ^ tilesOf s.pkg.part - 1) * 2 ^ 12 + 2 ^ 16 + b2n s.guest.fitted * 2 ^ 17)
/-- PKG_ID. -/
def pkgIdReg (s : State) : BitVec 32 := if s.pod.pkgValid then BitVec.ofNat 32 (2 ^ 31 + s.pod.pkgId.toNat) else 0
/-- The identity block. -/
def identRead32 (s : State) (off : Nat) : BitVec 32 :=
  match off with
  | 0x0 => identReg s
  | 0x4 => BitVec.ofNat 32 s.upd.version
  | 0x8 => sitesReg s
  | 0xC => pkgIdReg s
  | _ => 0

/-! ## Mailboxes and doorbells (R337, R340, R341) -/

/-- The mailbox registers; M2H_RELEASE is write-only and reads 0. -/
def mailRead (s : State) (off : Nat) : BitVec 32 :=
  if off < 0x140 then mget s.hp.h2mMw 0 ((off - 0x100) / 4)
  else if off = 0x140 then BitVec.ofNat 32 (b2n s.hp.h2mFull)
  else if off = 0x144 then s.hp.h2mRejects
  else if 0x200 ≤ off ∧ off < 0x240 then s.hp.m2hMw.getD ((off - 0x200) / 4) 0
  else if off = 0x240 then BitVec.ofNat 32 (b2n s.hp.m2hFull)
  else 0
/-- H2D_MASK: pips that are held, because they are unbound or their block is in its safe state; pip 31 never is. -/
def h2dMask (s : State) : BitVec 32 :=
  BitVec.ofNat 32 (maskOf ((List.range 31).filter (fun p => (mfind s.hp.pipIn p).isNone || s.hl.safe.contains 0)))
/-- The doorbell registers; H2D_RING and D2H_TAKE are write-only and read 0. -/
def bellRead (s : State) (off : Nat) : BitVec 32 :=
  match off with
  | 0x404 => s.hp.h2dPending
  | 0x408 => h2dMask s
  | 0x410 => s.hp.d2hPending
  | 0x414 => s.hp.d2hMask
  | 0x41C => s.hp.vecMask.zeroExtend 32
  | _ => 0

/-! ## The windows (R345, R347, R349) -/

def wvRead (s : State) (off : Nat) : BitVec 32 :=
  match off with
  | 0x800 => s.hp.wvSelect
  | 0x804 => BitVec.ofNat 32 (s.hp.wvState.toNat + 4 * (s.hp.wvWords % 4))
  | _ => if 0x810 ≤ off ∧ off ≤ 0x81C then s.hp.wvData.getD ((off - 0x810) / 4) 0 else 0
/-- The health summary. -/
def healthRead (s : State) (off : Nat) : BitVec 32 :=
  match off with
  | 0x1000 => healthW s
  | 0x1004 => coresW s
  | 0x1008 => fencesW s
  | 0x100C => bundlesW s
  | 0x1010 => linksW s
  | 0x1014 => tempsW s
  | 0x1018 => s.hl.healthSeq
  | _ => 0
/-- The 32 bytes of an event record (R350). -/
def recBytes (r : EvRec) : List Byte :=
  leBytes 8 r.gtc.toNat ++ leBytes 4 r.seq.toNat ++ leBytes 1 r.source ++ leBytes 1 (r.rood % 16 + 16 * b2n r.more + 32 * b2n r.cont)
    ++ leBytes 2 r.code ++ leBytes 8 r.cycles.toNat ++ leBytes 8 r.args.toNat
/-- EVQ_CONS of a queue: the oldest sequence kept. -/
def evqCons (q : EvQueue) : BitVec 32 := q.prod - BitVec.ofNat 32 q.recs.length
/-- The record shown in a slot of the window: those of the first 64 kept, each at its sequence number modulo 64. -/
def slotRec (q : EvQueue) (slot : Nat) : Option EvRec := (q.recs.take 64).find? (fun r => r.seq.toNat % 64 == slot)
/-- The event window; a reserved source shows an empty queue. -/
def evqRead (s : State) (off : Nat) : BitVec 32 :=
  let src := (s.hl.evqSelect &&& 0xFF#32).toNat
  let q : EvQueue := if isSource src then mget s.evq {} src else {}
  match off with
  | 0x2000 => s.hl.evqSelect
  | 0x2004 => q.prod
  | 0x2008 => evqCons q
  | 0x200C => q.lost
  | 0x2010 => BitVec.ofNat 32 (evqNonEmpty s)
  | _ =>
    if 0x2800 ≤ off ∧ off < 0x3000 then
      match slotRec q ((off - 0x2800) / 32) with
      | none => 0
      | some r => BitVec.ofNat 32 (fieldAt (recBytes r) ((off - 0x2800) % 32) 4)
    else 0

/-- The value that a read of the register at a BAR0 offset returns (R11, R334): the whole register, whatever part is read; write-only and
reserved offsets read 0, and in recovery only the identity block, the mailboxes and HEALTH are served (R347). -/
def bar0Read (s : State) (off : Nat) : BitVec 32 :=
  let o := off / 4 * 4
  if o < 0x10 then identRead32 s o
  else if o < 0x100 then 0
  else if o < 0x300 then mailRead s o
  else if o = 0x1000 then healthW s
  else if s.pkg.recovery then 0
  else if o < 0x500 then bellRead s o
  else if o < 0x900 then wvRead s o
  else if o < 0x2000 then healthRead s o
  else evqRead s o

/-! ## Configuration space and BAR4 (R330, R344) -/

/-- The vendor ID of function 0, whose value the spec does not give. -/
def pcieVendorId : BitVec 16 := Config.vendorId
/-- The device ID of function 0. -/
def pcieDeviceId (s : State) : BitVec 16 := if s.pkg.part = 2 then 0x1200#16 else 0x4800#16
/-- The class code. -/
def pcieClass : BitVec 24 := 0x120000#24
/-- The revision ID: the REV of the KH identity block. -/
def pcieRevision (s : State) : BitVec 8 := BitVec.ofNat 8 (bitsN (mget s.fuses.blocks 0 siteKH).toNat 32 8)
/-- The size of BAR2: a power of two from 1 GiB to 1 TiB. -/
def bar2Size (s : State) : Nat := 2 ^ s.hl.bar2Log
/-- A word of BAR4: the MSI-X table of 64 entries of 16 bytes (address low and high, data, vector control), and the pending-bit array from
0x1000; elsewhere 0. -/
def bar4Read (s : State) (off : Nat) : BitVec 32 :=
  let o := off / 4 * 4
  if o < 0x400 then
    let e := mget s.hp.msix {} (o / 16)
    match o % 16 with
    | 0 => e.addr.truncate 32
    | 4 => (e.addr >>> 32).truncate 32
    | 8 => e.data
    | _ => BitVec.ofNat 32 (b2n e.masked)
  else if o = 0x1000 then s.hp.pba.truncate 32
  else if o = 0x1004 then (s.hp.pba >>> 32).truncate 32
  else 0

end Sys2Proof.Machine
end

