-- ==== Sys2Proof/Safety.lean ====
section
/-! DEFINITION. Safety.lean: what a step may end in, and what a command leaves, in the terms of the statements. -/
namespace Sys2Proof.Machine

/-- `exec` answers a next state, and `P` holds of it. -/
def Leaves (c : Instr) (s : State) (P : State → Prop) : Prop := ∃ t, exec c s = .next t ∧ P t

/-- Every vector whose pending bit stands is masked: no vector that may be sent is left pending (spec/11 R344). -/
abbrev VectorsSent (s : State) : Prop := ∀ v, v < 37 → s.hp.pba.getLsbD v = true → vecOpen s v = false

/-! ## Requests (spec/12 R355 to R360) -/

/-- A request reaches its command: the active processor carries out commands and nothing of the stop lane is ahead (R366, R367), it is no command to be
carried out afresh, the checks of R359 that come before the command's own are passed, the journal has a place, and the package is in a state for it. -/
abbrev Reaches (op : Nat) (r : Req) (s : State) : Prop :=
  cmdTurn s op = true ∧ redoTicket op r s = none ∧ firstCheck s op r = none ∧ journalHas op r s = true ∧ gateState s op r = false

/-- An answer has gone out on its channel: in M2H, or behind the answers that wait for it (R338); by datagram or in the pod (R361, R362); or
held for the SMBus (spec/17 R475). -/
def Answered (ch : Chan) (ws : List Word32) (s t : State) : Prop :=
  match ch with
  | .pcie => if s.hp.m2hFull then t.hp.m2hWait = s.hp.m2hWait ++ [ws] else t.hp.m2hFull = true ∧ t.hp.m2hMw = ws
  | .smbus => t.mp2.smbAnswer = some ws
  | ch => Out.answer ch ws [] ∈ t.out

/-- A command that does not wait has been answered OK with its result words (R358, R359). -/
def AnsweredOk (op : Nat) (r : Req) (ws : List Word32) (s t : State) : Prop :=
  Answered r.chan (answerWords op r.tag stOK (detailOf s 0) 0 ws) s t

/-- A command has been turned away, or has failed, with a STATUS and a DETAIL (R358). -/
def AnsweredBad (op : Nat) (r : Req) (st d : Nat) (s t : State) : Prop :=
  Answered r.chan (answerWords op r.tag st (detailOf s d) 0 []) s t

/-- A command that waits has been answered ACCEPTED with the next ticket (R360). -/
def Accepted (op : Nat) (r : Req) (s t : State) : Prop :=
  Answered r.chan (answerWords op r.tag stAccepted (detailOf s 0) s.mp.nextTicket.toNat []) s t

/-- The request stands in the journal and holds the next ticket: what the meaning of a command that waits is given (R360, R363). -/
def begun (op : Nat) (r : Req) (s : State) : State :=
  issueTicket op s.mp.nextTicket.toNat
    (journalSet op r (fun e => { e with ticket := some s.mp.nextTicket.toNat }) (beginCmd op r s))

/-- A ticket can be issued (R360). -/
abbrev TicketFree (s : State) : Prop := freeTicket s = some s.mp.nextTicket.toNat

/-- The waiting command has ended with a status (R360). -/
def Ended (s t : State) (st : Nat) : Prop :=
  ∃ k, mfind t.mp.tickets s.mp.nextTicket.toNat = some k ∧ k.done = true ∧ k.status = st

/-- A CORE word names a core in service (R368). -/
abbrev CoreNamed (s : State) (w c : Nat) : Prop :=
  cwCore w ≤ 11 ∧ cwStack w < stacksOf s.pkg.part ∧ stackUp s (cwStack w) = true ∧ c = cwNum w ∧ s.cores.absent.contains c = false

/-! ## Cores (spec/02 R41, R55, R57) -/

/-- The command issues the instruction `o` on the core: it names the word that stands there, and `r` is the state once the wait of `o` for its
loads, results and port is over, the core still running. -/
abbrev Issues (c : Nat) (w : BitVec 64) (o : CoreOp) (s r : State) : Prop :=
  canIssue s c = true ∧ fetchWord s c = some w ∧ decodeWord w = some o ∧ r = awaitOps c o s ∧ stillRuns r c = true

/-- The cycle of the issue is taken, with the port and the results of `o`. -/
def issued (c : Nat) (o : CoreOp) (r : State) : State := bump 1 (wordOfCore c) 1 (modCore c (takeCycle o (issueCycle r c)) r)

/-- The context of a core. -/
def coreCtx (s : State) (c : Nat) : Ctx := (coreAt s c).ctx

/-- The word is not the schedule's last. -/
abbrev NotLast (c : Nat) (s : State) : Prop := (coreCtx s c).pc.toNat + 1 < (coreAt s c).words

/-- The core has gone on to the next word: its context is `x` but for the program counter, it runs and waits for nothing. -/
def Goes (c : Nat) (r t : State) (x : Ctx) : Prop :=
  coreCtx t c = { x with pc := (coreCtx r c).pc + 1 } ∧ (coreAt t c).cond = .issuing ∧ (coreAt t c).wait = .none

/-- The core has gone to the word `off` words on, its context being `x` but for the program counter. -/
def Jumps (c : Nat) (r t : State) (off : Int) (x : Ctx) : Prop :=
  coreCtx t c = { x with pc := BitVec.ofNat 64 ((((coreCtx r c).pc.toNat : Int) + off).toNat) } ∧ (coreAt t c).cond = .issuing ∧
    (coreAt t c).wait = .none

/-- The core waits at its word, its context being `x`. -/
def Waits (c : Nat) (t : State) (wt : Wait) (x : Ctx) : Prop :=
  coreCtx t c = x ∧ (coreAt t c).cond = .issuing ∧ (coreAt t c).wait = wt

/-- The flags `f` of an instruction that issues in the state `r` wait for the cycle `n` after its issue, in which they are set (spec/03 R111). -/
def FlagsIn (c : Nat) (r : State) (n f : Nat) (y t : State) : Prop :=
  (coreAt t c).late = if f % 128 = 0 then (coreAt y c).late else (coreAt y c).late ++ [(issueCycle r c + n, f % 128)]

/-- A core fault with a code (R51, R73): the core stops at its word, and the plan of its partition is aborted. -/
def Faults (c : Nat) (s t : State) : Prop :=
  (coreAt t c).cond = .faulted ∧ (coreCtx t c).pc = (coreCtx s c).pc ∧
    (∀ pt p, coreParts s c = some pt → part s pt = some p → ∃ q, part t pt = some q ∧ q.plan = 4)

/-- A slot after an arrival: SENSE inverted, OUT one more (spec/08 R251). -/
def arrivedSlot (w : BitVec 64) : BitVec 64 := putField (putField w 13 1 (1 - b2n (slSense w))) 11 2 (slOut w + 1)

/-- The arrival that a core sends to its cluster's combiner (spec/08 R252). -/
def arrivalOf (pt : Nat) (p : Part) (c slot : Nat) (s : State) : Arrival :=
  { pt := pt, run := p.run.toNat, level := .cluster, unit := coreCluster c, slot := slot, sense := slSense (getSlot s c slot)
    sender := c, cfg := getSlot s c slot, core := some c, seq := s.cores.seq }

/-! ## The fabric and the request engine (spec/09, spec/10) -/

/-- A packet to another package has been put on a port, or waits for one (spec/09 R280, R285, R288). -/
def Forwarded (p : FabPkt) (t : State) : Prop :=
  (∃ k f, Out.fabric k p.dstPkg p.type f p.payload ∈ t.out) ∨
    ∃ q, q ∈ (peerOf t p.dstPkg).waiting ∧ q.type = p.type ∧ q.payload = p.payload

/-- A frame that the receiving hub takes, of a packet new to its stream (spec/09 R279, R285). -/
abbrev TakenNew (p : FabPkt) (a : Arr) (s : State) : Prop :=
  a.port < 16 ∧ (portOf s a.port).mode ≠ 0 ∧ (portOf s a.port).link = true ∧ frameBad p a s = false ∧
    (takeSeq (rxOf (peerOf s p.srcPkg) (b2n (p.type == 7))) p.seq a.ce).1 = true

/-- What a stream keeps to tell a new packet from one that it has taken. -/
def seqOf (r : RxStream) : Nat × List Nat := (r.next, r.beyond)

/-- The packet's stream has taken its SEQ (spec/09 R285, R286). -/
def SeqTaken (p : FabPkt) (a : Arr) (s t : State) : Prop :=
  seqOf (rxOf (peerOf t p.srcPkg) (b2n (p.type == 7))) = seqOf (takeSeq (rxOf (peerOf s p.srcPkg) (b2n (p.type == 7))) p.seq a.ce).2

/-- The request engine is off and holds nothing. -/
abbrev EngineIdle (s : State) : Prop := s.eng = {} ∧ engEnable s = false

/-- A line of a cluster memory that a partition may write: the bytes from `a` lie in one 64-byte line, and the die is in service. -/
abbrev CmWritable (s : State) (pt cl a n : Nat) : Prop :=
  dpaOf s.pkg.part a = .cm cl ∧ cmFenced s cl = false ∧ linesOf a n = [a / 64 * 64] ∧ (part s pt).any (fun p => reaches s p true a) = true

/-! ## Requests to the engine (spec/10 R310 to R327) -/

/-- The engine's state agrees with its conditions, so that nothing about it changes of itself (spec/10 R310, R325). -/
abbrev EngineSettled (s : State) : Prop :=
  s.eng.state = engStateOf s ∧ (jobMet s = false → s.eng.clearing = false ∧ s.eng.cleared = false ∧ s.eng.started = false ∧ s.eng.next = 0) ∧
    (jobMet s = true → engEnable s = true → s.eng.cleared = true) ∧ (jobMet s = false → s.eng.slots = []) ∧ (s.eng.state ≤ 1 → s.eng.cache = [])

/-- A line of HBM4 that storage serves and that the hub reaches, that is not poisoned and in which no error stands. -/
abbrev LineClean (s : State) (a : Nat) : Prop := lineFenced s (placeOf s a) = false ∧ isPoison s.mem.m a = false ∧ findOf s.mem.flips a = none ∧
  lineCut s 12 a = false

/-- A reply to a record has gone out to its peer (spec/10 R311 to R315). -/
def RepliedWith (p : Peer10) (rec : List Byte) (st : Nat) (res : List Byte) (t : State) : Prop :=
  ∃ l, Out.reply p.session l (replyFrame p (replyRec rec st res)) ∈ t.out ∧ l.take 3 = if p.host then [1] else [0, p.ip, p.port]
def Replied (p : Peer10) (rec : List Byte) (st : Nat) (t : State) : Prop := ∃ res, RepliedWith p rec st res t

/-- An open session whose peer the record's is: its entry reads clean, in the engine's cache or in memory, and the session check passes (spec/10 R314, R316). -/
abbrev SessionHeld (s : State) (p : Peer10) : Prop :=
  p.session < 2 ^ 20 ∧ p.nonce < 2 ^ 32 ∧ areaOk s = true ∧ LineClean s (sessAddr s p.session) ∧
    sessionOk p (sessBytes s p.session) = true

/-- Replies reach a peer: by the host's ring, or by a port that is up (spec/10 R311, R315). -/
abbrev ReplyWay (s : State) (p : Peer10) : Prop := p.host = true ∨ (replyPort s p.ip).isSome = true
/-- A record of the peer may come: by the host's ring while HOST_EN is 1 and the reply ring has room (spec/10 R315). -/
abbrev PeerOpen (s : State) (p : Peer10) : Prop := p.host = true → hostEn s = true ∧ ringRoom s = true
/-- The session of a request that the engine holds can be read when it is answered (spec/10 R327). -/
abbrev SessionKept (s : State) (q : EReq) : Prop :=
  q.session < 2 ^ 20 ∧ LineClean s (sessAddr s q.session) ∧ sessField s q.session 0 1 ≤ 2

/-- The engine takes a record: it runs and the record has no reserved value (spec/10 R322). -/
abbrev RecordTaken (s : State) (rec : List Byte) (op : Nat) : Prop :=
  running s = true ∧ 2 ≤ s.eng.state ∧ badRecord rec = false ∧ fieldAt rec 0 1 = op

/-- A request for a key of the directory that nothing turns away: the engine serves, the way `w` of the key's bucket is VALID with the key, the
deadline leaves time, and the open batch has room (spec/10 R319, R322 to R324). -/
abbrev KeyAdmitted (s : State) (p : Peer10) (rec : List Byte) (w : Nat) : Prop :=
  s.eng.state = 3 ∧ EngineSettled s ∧ SessionHeld s p ∧ LineClean s (bucketAddr s (bucketOf (fieldAt rec 8 8))) ∧
    LineClean s (bucketAddr s (bucketOf (fieldAt rec 8 8)) + 64) ∧
    wayOf (bucketBytes s (bucketOf (fieldAt rec 8 8))) (fieldAt rec 8 8) = some w ∧
    (estUs s = 0 ∨ estUs s + 3 ≤ sessField s p.session 8 4) ∧ safeState s 3 0 = false ∧ s.eng.openB.length < batchMax s

/-- A request stands in a batch, with what its key resolved to (spec/10 R322, R324, R325). -/
def Batched (s : State) (p : Peer10) (rec : List Byte) (w : Nat) (t : State) : Prop :=
  ∃ q, q ∈ heldReqs t.eng ∧ q.recd = rec ∧ peerOfReq q = p ∧ q.answered = false ∧ q.arrival = engNow s ∧
    q.deadline = engNow s + 16000 * sessField s p.session 8 4 ∧
    q.block = fieldAt (bucketBytes s (bucketOf (fieldAt rec 8 8))) (32 * w + 8) 8 ∧
    q.blen = fieldAt (bucketBytes s (bucketOf (fieldAt rec 8 8))) (32 * w + 16) 4 ∧
    q.version = fieldAt (bucketBytes s (bucketOf (fieldAt rec 8 8))) (32 * w + 24) 8

/-- The ring's index `i` of the host rings: 0 request producer, 1 request consumer, 2 reply producer, 3 reply consumer (spec/10 R315). -/
def ringIndex (s : State) (i : Nat) : Nat := getNum s.mem.m (ringCtl s i) 8

/-- A command on the directory finds the engine's area in HBM4, and the bucket's two lines clean (spec/10 R308, R319, R327). -/
abbrev BucketClean (s : State) (b : Nat) : Prop := areaOk s = true ∧ LineClean s (bucketAddr s b) ∧ LineClean s (bucketAddr s b + 64)

/-! ## On-package packets (spec/06 R187 to R189) -/

/-- A packet of an operation that its endpoint takes: present, in its turn, not rejected, not for a relay (spec/06 R189, R197, R198). -/
abbrev PacketTaken (op : Nat) (p : OPkt) (s : State) : Prop :=
  p.op = op ∧ pktTurn s p = true ∧ pktBad p = false ∧ (bitN p.flags 1 = true → p.final = p.dst) ∧ (epPresent s p.dst = true ∨ 16 ≤ p.dst ∧ p.dst < 16 + tilesOf s.pkg.part)

/-- A FABRIC packet of a sub-kind that a die sends to the hub, or the hub to a die, is taken (spec/06 R188; spec/09 R274). -/
abbrev ToHub (k : Nat) (p : OPkt) (s : State) : Prop := PacketTaken 7 p s ∧ p.arg % 256 = k ∧ p.src < 12 ∧ p.dst = 12
abbrev FromHub (k : Nat) (p : OPkt) (s : State) : Prop := PacketTaken 7 p s ∧ p.arg % 256 = k ∧ p.src = 12 ∧ p.dst < 12

/-- The bytes from `a` lie in one line, and what holds the line is in service: HBM4 that is not fenced, or a cluster memory of a die in service
(spec/04 R125, R137; spec/14 R402). -/
abbrev Served (s : State) (a n : Nat) : Prop :=
  linesOf a n = [a / 64 * 64] ∧ (match dpaOf s.pkg.part a with
    | .hbm => !lineFenced s (placeOf s (a / 64 * 64))
    | .cm cl => !cmFenced s cl
    | .unmapped => false) = true

/-- The line reads without poison or error (spec/04 R116, R130). -/
abbrev Unpoisoned (s : State) (a : Nat) : Prop :=
  (dpaOf s.pkg.part (a / 64 * 64) = .hbm → isPoison s.mem.m (a / 64 * 64) = false ∧ findOf s.mem.flips (a / 64 * 64) = none) ∧
    (dpaOf s.pkg.part (a / 64 * 64) ≠ .hbm → badWords s.mem.m (a / 64 * 64) 64 [] = [])

/-- A link has put a CTRL flit on its bundle with an acknowledgement (ACKK 1) or a NAK (ACKK 2) of a SEQ (R185, R194). -/
def CtrlSent (k ackk ack : Nat) (s t : State) : Prop :=
  ∃ l c n m, (linkOf t k).wire = l ++ (linkOf s k).wire ∧ flitBytes 0 ack ackk 0 1 c n m [] ∈ l

/-- The state in which an endpoint's memory takes an access to an address from outside its clusters: in a cluster memory the stores of its cores that are
due by then have been written (spec/02 R43; spec/04 R115). -/
def atMemory (a : Nat) (s : State) : State :=
  match dpaOf s.pkg.part a with
  | .cm cl => extTake cl (touchCm cl s)
  | _ => s

/-- The status of a line of a transfer in the HMX unit of a core (spec/02 R63; spec/06 R188). -/
def LineGot (s : State) (c tok line st : Nat) : Prop := ∃ x, x ∈ (coreAt s c).hmx ∧ x.tok = tok ∧ mfind x.got line = some st

/-- The firewall lets a guest's packet reach the lines that it names (spec/14 R421). -/
abbrev GuestAdmitted (s : State) (p : OPkt) : Prop :=
  s.guest.linkUp = true ∧ s.guest.fenced = false ∧ running s = true ∧ p.vc ≠ 7 ∧ pktBad p = false ∧ (job s (guestPart s)).state = 1 ∧
    linesOf p.addr (guestSpan p) = [p.addr / 64 * 64] ∧ inGuest s (p.addr / 64 * 64) = true

/-! ## Rows of one shape -/

/-- The rows that issue a word of a core's schedule (spec/02 R41, R57). -/
def CoreRow (c : Nat) (w : BitVec 64) (e : Ecc) (i : Instr) : Prop :=
  i = .nop c w ∨ i = .endInstr c w ∨ i = .rdcyc c w ∨ i = .rdgtc c w ∨ i = .waitcyc c w ∨ i = .br c w ∨ i = .beqz c w ∨ i = .bnez c w ∨
    i = .loopInstr c w ∨ i = .salu c w ∨ i = .simm c w ∨ i = .csrr c w ∨ i = .csrw c w ∨ i = .brk c w ∨ i = .waitt c w ∨ i = .tstat c w ∨
    i = .waitall c w ∨ i = .sinit c w ∨ i = .spost c w ∨ i = .swait c w ∨ i = .stry c w ∨ i = .sread c w ∨ i = .spostr c w ∨
    i = .bcfg c w ∨ i = .barr c w ∨ i = .bwait c w ∨ i = .bar c w ∨ i = .bstat c w ∨ i = .slsLoad c w e ∨ i = .slsStore c w e ∨
    i = .scmLoad c w e ∨ i = .scmStore c w e ∨ i = .vlsLd c w e ∨ i = .vlsSt c w ∨ i = .vcmLd c w e ∨ i = .vcmSt c w ∨ i = .vf32 c w ∨
    i = .vf64 c w ∨ i = .vint c w ∨ i = .cvt c w ∨ i = .blockCvt c w ∨ i = .vred c w ∨ i = .tzero c w e ∨ i = .tmma c w ∨ i = .tslice c w ∨
    i = .tstore c w e ∨ i = .vcx c w ∨ i = .hmx c w ∨ i = .dpost c w e

/-- The rows of a core that write its own registers alone. -/
def RegisterRow (c : Nat) (w : BitVec 64) (i : Instr) : Prop :=
  i = .nop c w ∨ i = .rdcyc c w ∨ i = .rdgtc c w ∨ i = .waitcyc c w ∨ i = .br c w ∨ i = .beqz c w ∨ i = .bnez c w ∨ i = .loopInstr c w ∨
    i = .salu c w ∨ i = .simm c w ∨ i = .csrr c w ∨ i = .csrw c w ∨ i = .tstat c w ∨ i = .sread c w ∨ i = .bstat c w ∨ i = .vf32 c w ∨
    i = .vf64 c w ∨ i = .vint c w ∨ i = .cvt c w ∨ i = .blockCvt c w ∨ i = .vred c w

/-- The commands that report and do nothing else (spec/12 R368). -/
def ReportRow (r : Req) (i : Instr) : Prop :=
  i = .nopCommand r ∨ i = .mpStatus r ∨ i = .identRead r ∨ i = .cfgRead r ∨ i = .timeStatus r ∨ i = .memStatus r ∨ i = .partReport r ∨
    i = .syncRead r ∨ i = .phoChannel r ∨ i = .portStatus r ∨ i = .ctrRead r

/-- The rows by which the request engine takes records and frees sessions (spec/10 R311 to R317). -/
def RecordRow (host : Bool) (ip port session nonce peer n : Nat) (bs : List Byte) (fs : List LineFind) (i : Instr) : Prop :=
  i = .requestFrame port ip peer bs fs ∨ i = .openRec host ip port session nonce bs fs ∨ i = .closeRec host ip port session nonce bs fs ∨
    i = .ping host ip port session nonce bs fs ∨ i = .infer host ip port session nonce bs fs ∨
    i = .updateRec host ip port session nonce bs fs ∨ i = .hostRingPip fs ∨ i = .sessionIdleTimeout n fs

/-- The rows of the rings, the identity words and calibration (spec/05 R147 to R168). -/
def ChannelRow (b l ring x : Nat) (tr rr : List Nat) (f : Bool) (w : Word32) (m1 m2 : CalMeas) (i : Instr) : Prop :=
  i = .ringLoopUpdate b l ring x ∨ i = .ringNoLight b l ring ∨ i = .identityWordReceived b l w ∨
    i = .trainingFrameRequest b ∨ i = .mislockAttemptDone b l tr rr ∨ i = .calDue b l ∨ i = .calBegin b l ∨
    i = .calMeasurementDone b l m1 m2 ∨ i = .calLaneReturn b l ∨ i = .calStoreWrite x f

end Sys2Proof.Machine
end

