-- ==== Sys2Proof/Certificates/Slice0/Obligations.lean ====
section
/-! DEFINITION. Obligations.lean: the statements about the model. `Leaves c s P` says that carrying out the command c in the state s answers a next
state of which P holds, so every clause that ends in it says where its row completes, and with what. A clause for a core row names the word that
stands there and the state r once the registers that it reads have been delivered (`Issues`). -/
open Sys2Proof Sys2Proof.Machine

/-- The rows that write a register of BAR0 or BAR4 complete with the register's new value, which a read returns (spec/00 R11; spec/11 R334, R336 to
R346). Writes reach BAR0 while the link is up and the package is powered.
Choices of the model that it speaks in: log 17. -/
def Obligations.HostRegisterWritesComplete : Prop :=
  (∀ (v : Word32) (s : State), bar0Up s = true → s.hp.h2mFull = false → Leaves (.mw15Write v) s (fun t => mget t.hp.h2mMw 0 15 = v)) ∧
  (∀ (v : Word32) (s : State), bar0Up s = true → s.hp.h2mFull = true →
    Leaves (.mw15Write v) s (fun t => t.hp.h2mRejects = s.hp.h2mRejects + 1 ∧ t.hp.h2mMw = s.hp.h2mMw)) ∧
  (∀ (v : Word32) (s : State), bar0Up s = true → v ≠ 1 → Leaves (.m2hRelease v) s (fun t => t.hp.m2hFull = s.hp.m2hFull ∧ t.hp.m2hMw = s.hp.m2hMw)) ∧
  (∀ (s : State), bar0Up s = true → s.hp.m2hFull = true → s.hp.m2hWait = [] → s.hp.h2mFull = false →
    Leaves (.m2hRelease 1) s (fun t => t.hp.m2hFull = false)) ∧
  (∀ (w : List Word32) (l : List (List Word32)) (s : State), bar0Up s = true → s.hp.m2hFull = true → s.hp.m2hWait = w :: l → s.hp.h2mFull = false →
    Leaves (.m2hRelease 1) s (fun t => t.hp.m2hFull = true ∧ t.hp.m2hMw = w ∧ t.hp.m2hWait = l)) ∧
  (∀ (v : Word32) (s : State), bar0Up s = true → s.pkg.recovery = false →
    Leaves (.d2hTake v) s (fun t => t.hp.d2hPending = s.hp.d2hPending &&& ~~~v)) ∧
  (∀ (v : Word32) (s : State), bar0Up s = true → s.pkg.recovery = false → Leaves (.d2hMaskWrite v) s (fun t => t.hp.d2hMask = v ∧ bar0Read t 0x414 = v)) ∧
  (∀ (v : Word32) (s : State), bar0Up s = true → s.pkg.recovery = false → Leaves (.vecMaskWrite v) s (fun t =>
    t.hp.vecMask = v.truncate 5 ∧ bar0Read t 0x41C = (v.truncate 5).zeroExtend 32)) ∧
  (∀ (vec w : Nat) (v : Word32) (s : State), bar0Up s = true → vec < 64 → Leaves (.msixTableWrite vec w v) s (fun t =>
    let e := mget s.hp.msix {} vec
    let e' := mget t.hp.msix {} vec
    (w = 0 → e'.addr.toNat % 2 ^ 32 = v.toNat ∧ e'.addr.toNat / 2 ^ 32 = e.addr.toNat / 2 ^ 32) ∧
    (w = 1 → e'.addr.toNat / 2 ^ 32 = v.toNat ∧ e'.addr.toNat % 2 ^ 32 = e.addr.toNat % 2 ^ 32) ∧
    (w = 2 → e'.data = v) ∧ (w = 3 → e'.masked = v.getLsbD 0))) ∧
  (∀ (off be : Nat) (v : Word32) (s : State), bar0Up s = true → s.pkg.recovery = false → off % 4 = 0 → be % 16 = 15 →
    Leaves (.registerWrite off be v) s (fun t =>
      (0x100 ≤ off ∧ off ≤ 0x138 → s.hp.h2mFull = false → mget t.hp.h2mMw 0 ((off - 0x100) / 4) = v ∧ bar0Read t off = v) ∧
      (0x810 ≤ off ∧ off ≤ 0x81C → wvBusy s = false → t.hp.wvData = s.hp.wvData.set ((off - 0x810) / 4) v) ∧
      (off = 0x2000 → t.hl.evqSelect = v &&& 0xFF ∧ bar0Read t off = v &&& 0xFF))) ∧
  (∀ (s : State) (kh : Nat), kh = (mget s.fuses.blocks 0 siteKH).toNat →
    bar0Read s 0 = BitVec.ofNat 32 (kh / 2 ^ 24 % 2 ^ 8 * 2 ^ 24 + kh / 2 ^ 32 % 2 ^ 8 * 2 ^ 16 + kh / 2 ^ 40 % 2 ^ 8 * 2 ^ 8 + 1) ∧
    bar0Read s 4 = BitVec.ofNat 32 s.upd.version ∧
    bar0Read s 12 = (if s.pod.pkgValid then BitVec.ofNat 32 (2 ^ 31 + s.pod.pkgId.toNat) else 0) ∧
    bar0Read s 0x400 = 0 ∧ bar0Read s 0x418 = 0 ∧ bar0Read s 0x244 = 0)

/-- The rest of the host attachment completes (spec/11 R331 to R335, R340, R341, R345, R346, R349, R351; spec/17 R469): a read or a write of the
wide-value window begins BUSY with the item's words, or to end REFUSED, and WV_COMPLETE leaves BUSY for the end that was found; pips are rung, the
event window's consumer count is written, the function is reset, the link follows, parity sweeps and rewrites the block that it found, and the window opens onto HBM4.
Choices of the model that it speaks in: log 9, 16, 18, 38, 40. -/
def Obligations.HostAttachmentRowsComplete : Prop :=
  (∀ (v : Word32) (s : State), bar0Up s = true → s.pkg.recovery = false → v.getLsbD 31 = false → s.hp.wvState ≠ 1 →
    Leaves (.wvRead v) s (fun t => t.hp.wvState = 1 ∧ match wvItem s (bitsN v.toNat 0 16) (bitsN v.toNat 16 8) with
      | none => t.hp.wvNext = 3
      | some (n, x) => t.hp.wvNext = 2 ∧ t.hp.wvWords = n - 1 ∧ t.hp.wvData = wordsOf 4 (x % 2 ^ (32 * n)))) ∧
  (∀ (v : Word32) (item n x : Nat) (s : State), bar0Up s = true → s.pkg.recovery = false → v.getLsbD 31 = true → s.hp.wvState ≠ 1 →
    item = bitsN v.toNat 0 16 → wvItem s item (bitsN v.toNat 16 8) = some (n, x) →
    Leaves (.wvWrite v) s (fun t =>
      let d := (s.hp.wvData.getD 0 0).toNat + 2 ^ 32 * (s.hp.wvData.getD 1 0).toNat
      t.hp.wvState = 1 ∧ match wvApply s item d with
        | none => t.hp.wvNext = 3 ∧ t.hp.wvData = wordsOf 4 (x % 2 ^ (32 * n)) ∧ t.aon = s.aon ∧ t.cfg = s.cfg
        | some _ => t.hp.wvNext = 2 ∧ t.hp.wvData = wordsOf 4 (d % 2 ^ (32 * n)) ∧ (item = 3 → t.aon.origin = BitVec.ofNat 64 d) ∧
          (item = 9 → t.hl.bar2Base = BitVec.ofNat 64 d))) ∧
  (∀ (s : State), s.hp.wvState = 1 → Leaves .wvComplete s (fun t => t.hp.wvState = s.hp.wvNext)) ∧
  (∀ (v : Word32) (s : State), bar0Up s = true → s.pkg.recovery = false → Leaves (.h2dRing v) s (fun t => ∀ k, k < 31 →
    t.hp.h2dPending.getLsbD k = ((s.hp.h2dPending ||| v).getLsbD k && ((mfind s.hp.pipIn k).isNone || s.hl.safe.contains 0)))) ∧
  (∀ (v : Word32) (src : Nat) (q : EvQueue) (s : State), bar0Up s = true → s.pkg.recovery = false → s.hl.safe.contains 1 = false →
    src = (s.hl.evqSelect &&& 0xFF).toNat → isSource src = true → q = mget s.evq {} src →
    (v - (q.prod - BitVec.ofNat 32 q.recs.length)).toNat ≤ q.recs.length →
    Leaves (.evqConsWrite v) s (fun t => (mget t.evq {} src).prod - BitVec.ofNat 32 (mget t.evq {} src).recs.length = v)) ∧
  (∀ (kind : Nat) (s : State), Leaves (.perstAssert kind) s (fun t => t.hp.msix = [] ∧ t.hp.d2hMask = 0xFFFFFFFF ∧ t.hp.vecMask = 0x1F ∧
    t.hl.bar2Log = 38 ∧ (kind = 0 → t.pins.perst = true ∧ t.hl.linkUp = false))) ∧
  (∀ (s : State), Leaves .perstRelease s (fun t => t.pins = { s.pins with perst := false })) ∧
  (∀ (up rated : Bool) (s : State), s.pins.perst = false → s.pkg.power ≠ 3 →
    Leaves (.pcieLinkChange up rated) s (fun t => t.hl.linkUp = up ∧ t.hl.rated = (up && rated))) ∧
  (∀ (blk unit reg fails : Nat) (s : State), s.pkg.power ≠ 3 → s.mp.running = true → blk ≤ 7 →
    Leaves (.paritySweep (some (blk, unit, reg)) fails) s (fun t => t.hl.safe.contains (blk + 256 * unit) = true ∧
      ∃ at_, mfind t.hl.rewriting (blk + 256 * unit) = some (at_, fails) ∧ s.now < at_ ∧ at_ ≤ s.now + 100000)) ∧
  (∀ (key at_ fails : Nat) (s : State), s.pending = [] → s.mp.running = true → s.hl.rewriting = [(key, at_, fails)] → at_ ≤ s.now + 1 →
    ∃ t, step s = .next t ∧ t.hl.rewriting = [] ∧ t.hl.safe.contains key = (decide (1 < fails) && s.hl.safe.contains key)) ∧
  (∀ (x n : Nat) (s : State), bar2Hit s x n = true → hbmServes s = true →
    (∀ l, l ∈ linesOf (s.hl.bar2Base.toNat + x) n → dpaOf s.pkg.part l = .hbm ∧ LineClean s l) →
    Leaves (.bar2Read x n []) s (fun t => ∀ l, l ∈ linesOf (s.hl.bar2Base.toNat + x) n →
      let lo := max (s.hl.bar2Base.toNat + x) l
      let hi := min (s.hl.bar2Base.toNat + x + n) (l + 64)
      Out.pcie 2 lo (getBs s.mem.m lo (hi - lo)) ∈ t.out)) ∧
  (∀ (x : Nat) (bs : List Byte) (s : State), bar2Hit s x bs.length = true → hbmServes s = true →
    (∀ l, l ∈ linesOf (s.hl.bar2Base.toNat + x) bs.length → dpaOf s.pkg.part l = .hbm ∧ lineFenced s (placeOf s l) = false ∧
      findOf s.mem.flips l = none ∧ lineCut s 12 l = false) →
    Leaves (.bar2Write x bs false []) s (fun t => (∀ i, i < bs.length → getB t.mem.m (s.hl.bar2Base.toNat + x + i) = bs.getD i 0) ∧
      (∀ a, a < s.hl.bar2Base.toNat + x ∨ s.hl.bar2Base.toNat + x + bs.length ≤ a → getB t.mem.m a = getB s.mem.m a)))

/-- The general, role and configuration commands complete (spec/12 R358, R360, R368, R373, R375): each is answered OK on its channel with the result
words that the command table gives it, and has its effect.
Choices of the model that it speaks in: log 17. -/
def Obligations.GeneralCommandsComplete : Prop :=
  (∀ (r : Req) (s : State), Reaches 0x0000 r s → Leaves (.nopCommand r) s (AnsweredOk 0x0000 r [] s)) ∧
  (∀ (r : Req) (k : Ticket) (s : State), Reaches 0x0001 r s → mfind s.mp.tickets (argN r 0) = some k → k.done = true →
    Leaves (.cmdResult r) s (fun t => mfind t.mp.tickets (argN r 0) = none ∧
      AnsweredOk 0x0001 r (BitVec.ofNat 32 (k.op + k.detail % 256 * 2 ^ 16 + k.status * 2 ^ 24) :: k.words.take 12) s t)) ∧
  (∀ (r : Req) (s : State), Reaches 0x0002 r s → Leaves (.mpStatus r) s (AnsweredOk 0x0002 r
    [BitVec.ofNat 32 (b2n s.mp.activeB + 2 * b2n s.mp.standbyOk + 4 * s.pod.role + 16 * s.pod.podState), s.mp.term.zeroExtend 32,
     BitVec.ofNat 32 s.mp.tickets.length] s)) ∧
  (∀ (r : Req) (s : State), Reaches 0x0003 r s → siteReserved (argN r 0) = false → siteAbsent s (argN r 0) = false →
    Leaves (.identRead r) s (AnsweredOk 0x0003 r (wordsOf 8 (mget s.fuses.blocks 0 (argN r 0)).toNat) s)) ∧
  (∀ (r : Req) (s : State), Reaches 0x0900 r s → argN r 1 < cfgInstances s.pkg.part (argN r 0) →
    Leaves (.cfgRead r) s (fun t => AnsweredOk 0x0900 r (wordsOf 2 (cfgItem s (argN r 0) (argN r 1)).eff.toNat
      ++ [BitVec.ofNat 32 (cfgItem s (argN r 0) (argN r 1)).src] ++ wordsOf 2 ((cfgItem s (argN r 0) (argN r 1)).held.getD 0).toNat) s t)) ∧
  (∀ (r : Req) (s s1 : State) (h : Bool), Reaches 0x0901 r s → argN r 1 < cfgInstances s.pkg.part (argN r 0) →
    (argN r 0 ≠ 1 ∧ argN r 0 ≠ 2 ∨ r.chan = .pcie) → cfgWrite true (argN r 0) (argN r 1) (argN r 2 + 2 ^ 32 * argN r 3) 2 s = .done s1 h →
    Leaves (.cfgWriteCmd r) s (fun t => cfgItem t (argN r 0) (argN r 1) = cfgItem s1 (argN r 0) (argN r 1) ∧
      AnsweredOk 0x0901 r (wordsOf 2 (cfgItem s1 (argN r 0) (argN r 1)).eff.toNat ++ [BitVec.ofNat 32 (b2n h)]) s t)) ∧
  (∀ (r : Req) (s : State), Reaches 0x0707 r s → anyJob s = false → Leaves (.roleSet r) s (fun t =>
    t.pod.role = (if argN r 1 = argN r 3 then 1 else if argN r 2 = argN r 3 then 2 else 0) ∧ t.pod.podId = BitVec.ofNat 16 (argN r 0) ∧
    t.pod.pkgId = BitVec.ofNat 16 (argN r 3) ∧ t.pod.pkgValid = true ∧ t.upd.flash.settings.pkgId = argN r 3 ∧
    t.upd.flash.settings.role = t.pod.role ∧ AnsweredOk 0x0707 r [] s t)) ∧
  (∀ (r : Req) (s : State), Reaches 0x0404 r s → siteReserved (argN r 0) = false → siteAbsent s (argN r 0) = false →
    Leaves (.timeStatus r) s (AnsweredOk 0x0404 r (wordsOf 2 (timeStatusWord s (argN r 0))) s))

/-- The command channels complete (spec/12 R361, R362, R376; spec/17 R475, R476): the out-of-band link and its peers, messages in the pod, and the
SMBus. A message that is taken stands in the journal.
Choices of the model that it speaks in: log 16, 17. -/
def Obligations.CommandChannelsComplete : Prop :=
  (∀ (up : Bool) (s : State), s.pkg.power ≠ 3 → Leaves (.oobLinkChange up) s (fun t => t.mp2.oobUp = up)) ∧
  (∀ (peer port seq : Nat) (ws : List Word32) (s : State), s.mp.running = true → s.pkg.recovery = false → s.mp2.oobUp = true →
    port = oobPort s → (oobLive s).find? (fun q => q.addr == peer) = none → (oobLive s).length < 4 → badMessage ws = false →
    s.mp.takeoverAt = none → journalOpen s = true →
    firstCheck s (reqOf (.oob peer seq) ws []).1 (reqOf (.oob peer seq) ws []).2 = none →
    Leaves (.oobDatagram peer port seq 1 ws) s (fun t => t.mp2.oobPeers.any (fun q => q.addr == peer) = true ∧
      t.mp.journal.any (isEntry (reqOf (.oob peer seq) ws []).1 (reqOf (.oob peer seq) ws []).2) = true)) ∧
  (∀ (peer port seq : Nat) (ws a : List Word32) (q : OobPeer) (s : State), s.mp.running = true → s.pkg.recovery = false → s.mp2.oobUp = true →
    port = oobPort s → (oobLive s).find? (fun q => q.addr == peer) = some q → q.kept.find? (fun k => k.1 == seq) = some (seq, some a) →
    Leaves (.oobDatagram peer port seq 1 ws) s (fun t => Out.answer (.oob peer seq) a [] ∈ t.out ∧ t.mp.journal = s.mp.journal)) ∧
  (∀ (peer : Nat) (s : State), (∀ q, q ∈ s.mp2.oobPeers → q.addr = peer → q.lastAt + 60000000000 ≤ s.now) →
    Leaves (.oobPeerExpiry peer) s (fun t => t.mp2.oobPeers.any (fun q => q.addr == peer) = false)) ∧
  (∀ (m : FmMsg) (n : Nat) (ms : List Nat) (s : State), s.mp.running = true → s.pkg.recovery = false → m.payload.length ≤ 4096 →
    ¬ (0x0810 ≤ (reqOf (.fm m.srcPkg m.fmSeq) m.words m.payload).1 ∧ (reqOf (.fm m.srcPkg m.fmSeq) m.words m.payload).1 ≤ 0x0811) →
    fmSender s m = true → seqTake s.pod.fmNewest s.pod.fmMarks m.fmSeq = some (n, ms) →
    Leaves (.fmMessage m false) s (fun t => t.pod.fmNewest = some n ∧ t.pod.fmMarks = ms)) ∧
  (∀ (s : State), s.mp.running = true → s.pod.role ≠ 1 → s.pod.podState ≠ 0 → s.pod.managerLost = false →
    (∀ h, s.pod.lastHeartbeat = some h → h + 5000000 ≤ s.now) → Leaves .managerLost s (fun t => t.pod.managerLost = true)) ∧
  (∀ (ws : List Word32) (s : State), smbUp s = true → s.mp2.smbBusy = false → s.mp2.smbAnswer = none → badMessage ws = false →
    s.mp.takeoverAt = none → journalOpen s = true →
    firstCheck s (reqOf .smbus ws []).1 (reqOf .smbus ws []).2 = none →
    Leaves (.smbBlockWrite 64 true ws) s (fun t => t.mp2.smbBusy = true ∧
      t.mp.journal.any (isEntry (reqOf .smbus ws []).1 (reqOf .smbus ws []).2) = true)) ∧
  (∀ (ws : List Word32) (s : State), smbUp s = true → s.mp2.smbAnswer = some ws → Leaves .smbBlockRead s (fun t => t.mp2.smbAnswer = none ∧
    Out.smbus (64#8 :: ws.flatMap (fun w => leBytes 4 w.toNat)) ∈ t.out)) ∧
  (∀ (s : State), smbUp s = true → Leaves .smbReadByte s (fun t => t.mp2.smbHealthSeq = s.hl.healthSeq ∧
    Out.smbus [BitVec.ofNat 8 (b2n s.mp2.smbBusy + 2 * b2n s.mp2.smbAnswer.isSome + 4 * b2n (s.hl.healthSeq != s.mp2.smbHealthSeq))] ∈ t.out)) ∧
  (∀ (s : State), smbUp s = true → alertPin s = true → Leaves .smbAlertResponse s (fun t => Out.smbus [BitVec.ofNat 8 (2 * s.pins.smbAddr)] ∈ t.out))

/-- Two-phase execution completes (spec/12 R354, R364 to R366): what a controller holds, applies and discards, the terms that it adopts, COMMIT
once every controller is prepared, a command abandoned where one refuses or stays silent, and the journal's resolution after a takeover.
Choices of the model that it speaks in: log 2, 17. -/
def Obligations.TwoPhaseRowsComplete : Prop :=
  (∀ (site term op : Nat) (r : Req) (s : State), siteUp s site = true → newer 16 (mget s.mp.ctrlTerm 0 site).toNat term = false →
    Leaves (.prepare site term op r true) s (fun t => mfind t.mp.held site = some (BitVec.ofNat 16 term, op, r) ∧
      mfind t.mp.ctrlTerm site = some (BitVec.ofNat 16 term))) ∧
  (∀ (site term : Nat) (s : State), newer 16 (mget s.mp.ctrlTerm 0 site).toNat term = false →
    Leaves (.commit site term) s (fun t => mfind t.mp.held site = none ∧ mfind t.mp.ctrlTerm site = some (BitVec.ofNat 16 term))) ∧
  (∀ (site term : Nat) (s : State), newer 16 (mget s.mp.ctrlTerm 0 site).toNat term = false →
    Leaves (.abortCmd site term) s (fun t => mfind t.mp.held site = none ∧ mfind t.mp.ctrlTerm site = some (BitVec.ofNat 16 term))) ∧
  (∀ (site term op : Nat) (r : Req) (e : JEntry) (s : State), siteUp s site = true → newer 16 (mget s.mp.ctrlTerm 0 site).toNat term = false →
    s.mp.journal.find? (isEntry op r) = some e → e.stage = 0 →
    (e.sites.all (fun x => decide (x = site) || e.prepared.contains x) = true → Leaves (.prepare site term op r true) s (fun t =>
      t.mp.journal.any (fun f => isEntry op r f && f.stage == 1) = true ∧
      ∀ x, (x = site ∨ x ∈ e.prepared) → Out.mgmt x 8 s.mp.term.toNat [op, r.tag] ∈ t.out)) ∧
    Leaves (.prepare site term op r false) s (fun t => (∀ x, x ∈ e.prepared → Out.mgmt x 9 s.mp.term.toNat [e.op, e.req.tag] ∈ t.out) ∧
      (e.ticket = none → Answered e.req.chan (answerWords e.op e.req.tag stFailed (detailOf s site) 0 []) s t))) ∧
  (∀ (site : Nat) (e : JEntry) (s : State), s.mp.running = true → s.mp.takeoverAt = none →
    s.mp.journal.find? (fun e => e.stage == 0 && e.sites.contains site && !e.prepared.contains site && decide (e.takenAt + 1000000 ≤ s.now)) = some e →
    Leaves (.prepareTimeout site) s (fun t => (∀ x, x ∈ e.prepared → Out.mgmt x 9 s.mp.term.toNat [e.op, e.req.tag] ∈ t.out) ∧
      (∀ x h, mfind t.mp.held x = some h → h.2.1 ≠ e.op ∨ h.2.2 ≠ e.req) ∧
      (e.ticket = none → Answered e.req.chan (answerWords e.op e.req.tag stFailed (detailOf s site) 0 []) s t))) ∧
  (∀ (site : Nat) (s : State), siteUp s site = true → s.mp2.ctrlDown.contains site = false → Leaves (.controllerStatus site) s (fun t =>
    mfind t.mp.ctrlTerm site = some s.mp.term ∧ mfind t.mp2.ctrlSeen site = some s.now)) ∧
  (∀ (s : State) (a : Nat), s.mp.running = true → s.mp.takeoverAt = some a → a + 2000000 ≤ s.now → Leaves .journalResolution s (fun t =>
    t.mp.takeoverAt = none)) ∧
  (∀ (s : State) (a : Nat) (e : JEntry), s.mp.running = true → s.mp.takeoverAt = some a → a + 2000000 ≤ s.now → s.mp.waitMsgs = [] →
    s.mp.journal = [e] → e.stage = 0 → e.ticket = none → ((specNow s e.op).map (·.waits)).getD false = false → Leaves .journalResolution s (fun t =>
      Answered e.req.chan (answerWords e.op e.req.tag stAborted (detailOf s 0) 0 []) s t))

/-- The rows of the root PLLs and their references complete (spec/07 R210 to R212): the first lock, the switch to the standby, the return of a relocked
PLL and the loss of one for good, and the references that a die falls back to.
Choices of the model that it speaks in: log 2, 9, 49. -/
def Obligations.PllAndReferenceRowsComplete : Prop :=
  (∀ (site : Nat) (s : State), (dieClk s site).locked = false → (sitesOf s.pkg.part).contains site = true → (s.pkg.power < 2 ∨ s.pkg.starting = true) →
    Leaves (.rootPllFirstLock site) s (fun t => (dieClk t site).locked = true ∧ (dieClk t site).osc = false ∧ (dieClk t site).timeRun = true ∧
      standbyHolds (dieClk t site) = true ∧ (dieClk t site).stepped = (site == siteKH) ∧
      (dieClk t site).gtc = if site = siteKH then s.aon.gtc else 0)) ∧
  (∀ (site cause : Nat) (s : State), (dieClk s site).locked = true → (dieClk s site).unlocked = false →
    Leaves (.pllLossOfLock site cause) s (fun t =>
      if standbyHolds (dieClk s site) then (dieClk t site).pllB = !(dieClk s site).pllB ∧ (otherPll (dieClk t site)).lost = some s.now ∧
        (otherPll (dieClk t site)).cause = cause ∧ (dieClk t site).unlocked = false
      else (dieClk t site).unlocked = true ∧ (activePll (dieClk t site)).lost = some s.now ∧ (activePll (dieClk t site)).cause = cause)) ∧
  (∀ (site a : Nat) (s : State), (dieClk s site).unlocked = false → (otherPll (dieClk s site)).failed = false →
    (otherPll (dieClk s site)).lost = some a → a + 10000000000 ≤ s.now → Leaves (.pllStandbyReady site) s (fun t =>
      (otherPll (dieClk t site)).holds = true ∧ (dieClk t site).pllB = (dieClk s site).pllB)) ∧
  (∀ (site a : Nat) (s : State), (dieClk s site).unlocked = true → (activePll (dieClk s site)).failed = false →
    (activePll (dieClk s site)).lost = some a → a + 10000000000 ≤ s.now → Leaves (.pllStandbyReady site) s (fun t =>
      (dieClk t site).unlocked = false ∧ (activePll (dieClk t site)).holds = true ∧ (dieClk t site).pllB = (dieClk s site).pllB)) ∧
  (∀ (site a : Nat) (s : State), (dieClk s site).unlocked = true → lostSince s.now 10000000000 (activePll (dieClk s site)) = false →
    (otherPll (dieClk s site)).failed = false → (otherPll (dieClk s site)).lost = some a → a + 10000000000 ≤ s.now →
    Leaves (.pllStandbyReady site) s (fun t => (dieClk t site).unlocked = false ∧ (activePll (dieClk t site)).holds = true ∧
      (dieClk t site).pllB = !(dieClk s site).pllB)) ∧
  (∀ (site a : Nat) (s : State), (otherPll (dieClk s site)).failed = false → (otherPll (dieClk s site)).lost = some a → a + 1000000000 ≤ s.now →
    Leaves (.pllFail site) s (fun t => (otherPll (dieClk t site)).failed = true)) ∧
  (∀ (site a : Nat) (s : State), lostSince s.now 1000000000 (otherPll (dieClk s site)) = false → (activePll (dieClk s site)).failed = false →
    (activePll (dieClk s site)).lost = some a → a + 1000000000 ≤ s.now →
    Leaves (.pllFail site) s (fun t => (activePll (dieClk t site)).failed = true)) ∧
  (∀ (site : Nat) (s : State), site < siteLH → (dieClk s site).locked = true → (dieClk s site).ref ≤ 1 → serviceUp s (hubBundle site) = false →
    (peerFraming s site).isSome = true → Leaves (.refFallback site) s (fun t => (dieClk t site).ref = 2 ∧ (dieClk t site).hold = true)) ∧
  (∀ (site : Nat) (s : State), site < siteLH → (dieClk s site).locked = true → 2 ≤ (dieClk s site).ref → serviceUp s (hubBundle site) = true →
    (mget s.pho.bundles {} (hubBundle site)).upAt + 10000000 ≤ s.now → Leaves (.refRestored site) s (fun t => (dieClk t site).ref = 0)) ∧
  (∀ (site : Nat) (s : State), (dieClk s site).locked = true → (dieClk s site).ref ≠ 4 →
    (site < siteLH → serviceUp s (hubBundle site) = false ∧ peerFraming s site = none) →
    Leaves (.refLost site) s (fun t => (dieClk t site).ref = 4)) ∧
  (∀ (site : Nat) (s : State), (dieClk s site).locked = false → site < siteLH → s.pkg.present.contains site = true →
    Leaves (.refLost site) s (fun t => t.pkg.heldOut.contains site = true)) ∧
  (∀ (s : State), (dieClk s siteKH).locked = true → (dieClk s siteKH).ref = 4 → Leaves .refclkReturn s (fun t =>
    (dieClk t siteKH).ref = 3 ∧ ((activePll (dieClk s siteKH)).failed = false → (dieClk t siteKH).unlocked = false)))

/-- The rows of the roods complete (spec/07 R217 to R220; spec/13 R385): the next period that begins 2 ROOT cycles later stretched, once; a stretch
denied where 4 of the 64 periods to that one are stretched; the end of a hold; and a change of frequency, by a stop that completes the period in
progress and a restart that keeps the cycle counter.
Choices of the model that it speaks in: log 2, 9. -/
def Obligations.RoodRowsComplete : Prop :=
  (∀ (site id n : Nat) (s : State), (roodsOf site).contains id = true → (dieClk s site).locked = true → (rood s site id).stopped = false →
    (rood s site id).gated = false → n = tripPeriod (site * 16 + id) (rood s site id) →
    Leaves (.droopTrip site id) s (fun t => (rood t site id).cyc = (rood s site id).cyc ∧
      (stretched (rood s site id) n = true → (rood t site id).stretches = (rood s site id).stretches) ∧
      (stretched (rood s site id) n = false → recentStretches (rood s site id) n < 4 →
        (rood t site id).stretches = (n :: (rood s site id).stretches).take 4) ∧
      (stretched (rood s site id) n = false → 4 ≤ recentStretches (rood s site id) n → (rood t site id).stretches = (rood s site id).stretches ∧
        (site < 0x40 ∧ id < 8 → (rood t site id).holdUntil = some (s.now + 10000000))))) ∧
  (∀ (site id h : Nat) (s : State), (rood s site id).holdUntil = some h → h ≤ s.now → Leaves (.roodHoldExpiry site id) s (fun t =>
    (rood t site id).holdUntil = none ∧ (rood t site id).heldDiv = some (limitDiv (rood s site id) (rood s site id).setDiv))) ∧
  (∀ (site id d : Nat) (s : State), site < 0x40 → id < 8 → (rood s site id).heldDiv = some d → (rood s site id).stopped = false →
    (rood s site id).gated = false → Leaves (.roodStop site id) s (fun t => (rood t site id).stopped = true ∧ (rood t site id).loading = some d ∧
      (rood t site id).heldDiv = none ∧ (rood t site id).phase = 0 ∧
      ((rood s site id).phase = 0 → (rood t site id).cyc = (rood s site id).cyc) ∧
      ((rood s site id).phase ≠ 0 → (rood s site id).lead = 0 → (rood t site id).cyc = (rood s site id).cyc + 1))) ∧
  (∀ (site id d : Nat) (s : State), (rood s site id).loading = some d → (rood s site id).stopped = true →
    Leaves (.roodFreq site id) s (fun t => (rood t site id).stopped = false ∧ (rood t site id).div = d ∧ (rood t site id).loading = none ∧
      (rood t site id).cyc = (rood s site id).cyc)) ∧
  (∀ (site id u : Nat) (s : State), site < 0x40 → id < 8 → (rood s site id).ungatedAt = some u → u + 100000 ≤ s.now →
    Leaves (.roodRegate site id) s (fun t => (rood t site id).ungatedAt = none))

/-- The rows of global time complete (spec/07 R226 to R232, R240): marks sent and taken, delays measured, holdover, the sources of the hub and the
messages by which it follows them.
Choices of the model that it speaks in: log 2, 16, 43. -/
def Obligations.GlobalTimeRowsComplete : Prop :=
  (∀ (s : State), (dieClk s siteKH).timeRun = true → s.clk.hub.lastMark ≠ some ((hubGtc s).toNat / 16000) →
    Leaves .timeMarkSend s (fun t => t.clk.hub.mseq = s.clk.hub.mseq + 1 ∧
    t.clk.hub.stepFlag = false ∧ ∀ d, d ∈ markDies s.pkg.part → Out.mgmt d 6 0 [(gtcAfter s siteKH (frameAhead s d)).toNat,
      ofInt 32 (adjustment siteKH (dieClk s siteKH)), s.clk.hub.mseq.toNat, b2n s.clk.hub.stepFlag + 2 * b2n (s.clk.hub.locked && !s.hl.safe.contains 6)] ∈ t.out)) ∧
  (∀ (site dl : Nat) (m : Mark) (latched : Word) (s : State), site ≠ siteKH → m.reserved = 0 → (dieClk s site).timeRun = true →
    (dieClk s site).ref ≠ 2 → (dieClk s site).lastMseq.all (fun q => newer 16 m.mseq q) = true → delayNow s site = some dl →
    Leaves (.timeMarkReceived site m true latched) s (fun t => (dieClk t site).lastMseq = some (m.mseq % 2 ^ 16) ∧
      (dieClk t site).markAt = some s.now ∧ (dieClk t site).rate = m.rate ∧
      ((dieClk s site).stepped = false → (dieClk t site).gtc = m.frameGtc + BitVec.ofNat 64 dl + ((dieClk s site).gtc - latched) ∧
        (dieClk t site).hold = false) ∧
      ((dieClk s site).stepped = true → (dieClk t site).gtc = (dieClk s site).gtc ∧
        (dieClk t site).corr = (m.frameGtc + BitVec.ofNat 64 dl - latched).toInt))) ∧
  (∀ (site rt ta : Nat) (l16 : Bool) (s : State), site ≠ siteKH → (dieClk s site).timeRun = true → Leaves (.delayEcho site rt ta l16) s (fun t =>
    if l16 then (dieClk t site).delay16 = some ((rt - ta) / 2) else (dieClk t site).delay17 = some ((rt - ta) / 2))) ∧
  (∀ (site cause : Nat) (s : State), site ≠ siteKH → (dieClk s site).timeRun = true → (dieClk s site).hold = false →
    Leaves (.gtcHoldoverEv site cause) s (fun t => (dieClk t site).hold = true ∧ (dieClk t site).corr = 0)) ∧
  (∀ (a : Nat) (s : State), (dieClk s siteKH).timeRun = true → s.clk.hub.src ≠ primarySrc s → s.clk.hub.primaryLockAt = some a →
    a + 10000000000 ≤ s.now → Leaves (.timeSrcChange true) s (fun t => t.clk.hub.src = primarySrc s ∧ t.clk.hub.locked = true)) ∧
  (∀ (a : Nat) (s : State), (dieClk s siteKH).timeRun = true → s.clk.hub.src ≠ fallbackSrc s → s.clk.hub.primaryLockAt = none →
    (s.clk.hub.primaryLostAt = some a ∧ a + 1000000000 ≤ s.now ∨
      s.clk.hub.primaryLostAt = none ∧ s.clk.hub.startAt = some a ∧ a + 10000000000 ≤ s.now) →
    Leaves (.timeSrcChange false) s (fun t => t.clk.hub.src = fallbackSrc s ∧ t.clk.hub.locked = s.clk.hub.fallbackLocked)) ∧
  (∀ (m : PtpMsg) (t4 : Nat) (off : Int) (s : State), (dieClk s siteKH).timeRun = true → m.port ≤ 15 → m.domain = bitsN (cfgEff s 4 0) 24 8 →
    m.transport = bitsN (cfgEff s 4 0) 12 4 → m.kind = .delayResp t4 → slavePort s = some m.port → ptpOffset s (ptpOf s m.port) t4 = some off →
    s.clk.hub.src = 2 → (primarySrc s = 2 ∨ fallbackSrc s = 2) → s.hl.safe.contains 6 = false →
    Leaves (.ptpMessage m) s (fun t => t.clk.hub.locked = true ∧ t.clk.hub.srcTime = ((gtcPtp s (hubGtc s) : Int) + off).toNat ∧ t.clk.hub.srcAt = s.now ∧
      (dieClk t siteKH).hold = false ∧
      if (s.clk.hub.everLocked = false ∨ off < -16000000 ∨ 16000000 < off) ∧ anyJob s = false then
        (dieClk t siteKH).gtc = (dieClk s siteKH).gtc + BitVec.ofInt 64 off ∧ t.clk.hub.stepFlag = true
      else (dieClk t siteKH).gtc = (dieClk s siteKH).gtc ∧ (dieClk t siteKH).corr = off)) ∧
  (∀ (m : PtpMsg) (s : State), (dieClk s siteKH).timeRun = true → m.port ≤ 15 → m.domain = bitsN (cfgEff s 4 0) 24 8 →
    m.transport = bitsN (cfgEff s 4 0) 12 4 → Leaves (.ptpMessage m) s (fun t =>
      (∀ d, m.kind = .announce d → (ptpOf t m.port).master = some d) ∧
      (∀ t1 rx, m.kind = .sync (some t1) rx → slavePort s = some m.port → (ptpOf t m.port).t1 = some t1 ∧
        (ptpOf t m.port).t2 = some (gtcPtp s rx) ∧ (ptpOf t m.port).t3 = some (gtcPtp s (hubGtc s)) ∧ Out.ptp m.port 1 [] ∈ t.out) ∧
      (∀ x rx, m.kind = .delayReq x rx → slavePort s ≠ some m.port → s.clk.hub.src ≤ 1 → Out.ptp m.port 2 [x, gtcPtp s rx] ∈ t.out))) ∧
  (∀ (master : Nat) (s : State), (dieClk s siteKH).timeRun = true → s.clk.hub.src = 1 → (primarySrc s = 1 ∨ fallbackSrc s = 1) →
    s.hl.safe.contains 6 = false → s.hl.linkUp = true →
    (∀ a, s.clk.hub.ptmAt = some a → a + 1000000 ≤ s.now) → Leaves (.ptmDialogue true master) s (fun t => t.clk.hub.locked = true ∧
      t.clk.hub.srcTime = ((gtcPtp s (hubGtc s) : Int) + (ptpGtc s (16 * master) - (hubGtc s).toNat)).toNat ∧ t.clk.hub.srcAt = s.now ∧
      (dieClk t siteKH).hold = false ∧ t.clk.hub.ptmAt = some s.now)) ∧
  (∀ (k : Nat) (c : Ctr) (s : State), s.pkg.power < 2 → mfind s.obs.ctrs k = some c → Leaves .counterExtensionPoll s (fun t =>
    mfind t.obs.ctrs k = some { raw := c.raw, prev := c.raw, ext := c.ext + (c.raw - c.prev).zeroExtend 64 } ∧ t.obs.lastPoll = s.now))

/-- The rows of the two management processors complete (spec/14 R409 to R415; spec/12 R365): heartbeats, takeover, return, watchdog and drill move
control and TERM as the spec says.
Choices of the model that it speaks in: log 2, 41. -/
def Obligations.FailoverRowsComplete : Prop :=
  (∀ (s : State), s.pkg.power ≠ 3 → (s.mp.activeB = true ∨ s.mp.standbyReset = false) → (s.mp.activeB = true → s.mp.running = true) →
    s.mp.hbBat + 500000 ≤ s.now →
    Leaves (.mpHeartbeat true) s (fun t => t.mp.hbB = s.mp.hbB + 1 ∧ t.mp.hbA = s.mp.hbA)) ∧
  (∀ (s : State), s.pkg.power ≠ 3 → (s.mp.activeB = false ∨ s.mp.standbyReset = false) → (s.mp.activeB = false → s.mp.running = true) →
    s.mp.hbAat + 500000 ≤ s.now →
    Leaves (.mpHeartbeat false) s (fun t => t.mp.hbA = s.mp.hbA + 1 ∧ t.mp.hbB = s.mp.hbB)) ∧
  (∀ (s : State), s.mp.standbyOk = true → s.mp.running = true → hbAt s s.mp.activeB + 5000000 ≤ s.now → Leaves .mpTakeover s (fun t => t.mp.activeB = !s.mp.activeB ∧
    t.mp.term = s.mp.term + 1 ∧ t.mp.standbyOk = false ∧ t.mp.takeoverAt = some s.now ∧ t.mp.formerReset = false ∧ t.mp2.lostCtlAt = some s.now)) ∧
  (∀ (s : State), s.mp.standbyOk = true → s.mp.running = true → hbAt s (!s.mp.activeB) + 5000000 ≤ s.now → Leaves .standbyFault s (fun t => t.mp.standbyOk = false ∧ t.mp.standbyReset = true ∧
    t.mp.activeB = s.mp.activeB ∧ t.mp.term = s.mp.term)) ∧
  (∀ (s : State), s.mp.formerReset = false → s.mp.running = true → (∀ x, s.mp.takeoverAt = some x → x + 2000000 ≤ s.now) → Leaves .takeoverResetTimer s (fun t => t.mp.formerReset = true ∧
    ∀ d, d ∈ s.pkg.present → siteUp s d = true → mfind t.mp.ctrlTerm d = some s.mp.term)) ∧
  (∀ (pass : Bool) (s : State), s.mp.running = true → s.mp.standbyOk = false → s.mp.standbyReset = true → s.mp.selfFails < 3 → s.pkg.power ≠ 2 →
    (∀ x, s.mp.selfFailAt = some x → x + 60000000000 ≤ s.now) →
    Leaves (.standbyReady pass) s (fun t => t.mp.standbyOk = pass ∧
      if pass then t.mp2.standbySince = some s.now ∧ t.mp.selfFails = s.mp.selfFails else t.mp.selfFails = s.mp.selfFails + 1)) ∧
  (∀ (z : Nat) (s : State), s.mp.running = true → s.mp.standbyOk = true → s.mp2.lostCtlAt.isSome = true → s.mp2.noReturn = false →
    s.mp2.standbySince = some z → z + 10000000000 ≤ s.now →
    Leaves .mpReturn s (fun t => t.mp.activeB = !s.mp.activeB ∧ t.mp.term = s.mp.term + 1 ∧ t.mp.standbyOk = true ∧ t.mp2.lostCtlAt = none)) ∧
  (∀ (s : State), s.mp.standbyOk = false → s.mp.running = true → hbAt s s.mp.activeB + 50000000 ≤ s.now → Leaves .mpWatchdog s (fun t => t.mp.activeB = s.mp.activeB ∧
    t.mp.term = s.mp.term + 1 ∧ t.mp.takeoverAt = some s.now)) ∧
  (∀ (r : Req) (site ms : Nat) (s : State), Reaches 0x0A02 r s → TicketFree s → s.mp.standbyOk = true → s.upd.activation = none → s.mp2.drill = none →
    Leaves (.mpDrill r 0 site ms) s (fun t => t.mp.activeB = !s.mp.activeB ∧ t.mp.term = s.mp.term + 1 ∧ t.mp2.drill.isSome = true ∧
      Accepted 0x0A02 r s t)) ∧
  (∀ (site : Nat) (s : State), running s = true → ctrlOn s site = true → s.mp2.ctrlDown.contains site = false → mfind s.mp2.episodes site = none →
    mget s.mp2.ctrlSeen 0 site + 1000000 ≤ s.now →
    Leaves (.controllerUnresponsive site) s (fun t => t.mp2.ctrlDown.contains site = true ∧ mfind t.mp2.episodes site = some s.now)) ∧
  (∀ (site us : Nat) (s : State), running s = true → s.mp2.ctrlDown.contains site = true →
    s.upd.activation.bind (·.unit) ≠ some site → us ≤ 100000 → identFails s site = none →
    Leaves (.ctrlRestart site us true) s (fun t => t.mp2.ctrlDown.contains site = false ∧ mfind t.obs.trace site = none))

/-- The rows of the power budget complete (spec/13 R379 to R383, R391): grants and what answers them, the budget, phases lost and thermal caps.
Choices of the model that it speaks in: log 16, 34, 42. -/
def Obligations.PowerBudgetRowsComplete : Prop :=
  (∀ (n w : Nat) (s : State), running s = true → (n, w) ∈ targets s → (∀ x, s.pwr.dividedAt = some x → x + 1000000000 ≤ s.now) →
    Leaves .budgetRecompute s (fun t =>
    (w < (diePower s n).acct → (∀ q, (diePower s n).decrease = some (w, q) → (diePower s n).rise = none) →
      (diePower t n).decrease.any (fun d => d.1 == w) = true ∧ (diePower t n).acct = (diePower s n).acct) ∧
    ((diePower s n).acct < w → (diePower s n).decrease.map (·.1) ≠ some w →
      (diePower t n).rise = some w ∧ (diePower t n).acct = (diePower s n).acct ∨ (diePower t n).acct = w))) ∧
  (∀ (n w q : Nat) (s : State), stackUp s n = true → Leaves (.grant n w q) s (fun t => (diePower t n).grant = w ∧
    (w < (diePower s n).grant → Out.mgmt siteKH 2 (mget s.mp.ctrlTerm 0 (siteKC n)).toNat [n, q] ∈ t.out))) ∧
  (∀ (n q w : Nat) (s : State), (diePower s n).decrease = some (w, q) → (diePower s n).rise = none →
    Leaves (.grantAck n q) s (fun t => (diePower t n).decrease = none ∧ (diePower t n).acct = w)) ∧
  (∀ (n w g : Nat) (s : State), running s = true → stackUp s n = true → w ≤ unallocated s →
    g = ((diePower s n).decrease.map (·.1)).getD (diePower s n).acct + w → g ≤ ceilingW s n → Leaves (.request n w) s (fun t =>
    (diePower t n).acct = (diePower s n).acct + w ∧ Out.mgmt (siteKC n) 1 s.mp.term.toNat [g, s.pwr.grantSeq.toNat] ∈ t.out ∧
    t.pwr.grantSeq = s.pwr.grantSeq + 1)) ∧
  (∀ (n w : Nat) (s : State), running s = true → stackUp s n = true → (diePower s n).rise = none →
    Leaves (.returnWatts n w) s (fun t => (diePower t n).acct =
      max ((diePower s n).acct - w) (((diePower s n).decrease.map (·.1)).getD 0))) ∧
  (∀ (r : Req) (s : State), Reaches 0x0B01 r s → argN r 0 ≤ tdp s.pkg.part → Leaves (.powerBudget r) s (fun t =>
    t.pwr.budget = max (argN r 0) (floorW s.pkg.part) ∧ AnsweredOk 0x0B01 r [] s t)) ∧
  (∀ (site kind ph : Nat) (s : State), s.pkg.power ≠ 3 → Leaves (.pwrPhaseLost site kind ph) s (fun t =>
    mget t.pwr.phases (0, 1) (site * 16 + kind) = ((mget s.pwr.phases (0, 1) (site * 16 + kind)).1 + 1, ph))) ∧
  (∀ (n : Nat) (s : State), s.pkg.power < 2 → n < 12 → stackUp s n = true → kcThrottled s n = true → (diePower s n).capAt + 10000000 ≤ s.now →
    Leaves (.thermalCapStep (siteKC n)) s (fun t => (diePower t n).cap = max 140 ((diePower s n).cap - 38))) ∧
  (∀ (n : Nat) (s : State), s.pkg.power < 2 → n < 12 → stackUp s n = true → kcThrottled s n = false → (diePower s n).cap < 380 →
    (diePower s n).capAt + 10000000 ≤ s.now →
    s.aon.inletTrip = false → s.aon.vinTrip = false → (mget s.pwr.cool {} 3).on = false →
    Leaves (.thermalCapStep (siteKC n)) s (fun t => (diePower t n).cap = min 380 ((diePower s n).cap + 38)))

/-- The housekeeping round and the restart of a unit complete (spec/13 R389 to R396): the hub's round takes the coolant's readings and the largest
draw of the last second, a stack's round its own draw, and a stack fenced for temperature returns.
Choices of the model that it speaks in: log 9, 35. -/
def Obligations.HousekeepingRowsComplete : Prop :=
  (∀ (r : Round) (s : State), s.pkg.power < 2 → s.pkg.starting = false → siteUp s siteKH = true → s.mp2.ctrlDown.contains siteKH = false →
    (∀ x, mfind s.pwr.roundAt siteKH = some x → x + 1000000 ≤ s.now) →
    (∀ x, x ∈ r.temps → x.all (fun v => decide (v < 1840)) = true) → Leaves (.housekeepingRound siteKH r) s (fun t => t.pwr.inlet = r.inlet ∧ t.pwr.outlet = r.outlet ∧
      t.pwr.pFlow = r.pFlow ∧ t.pwr.hFlow = heatFlow r.power (r.outlet - r.inlet) r.pFlow ∧ r.draw ≤ t.pwr.nonKc)) ∧
  (∀ (site : Nat) (s : State), running s = true → site < 0x40 → (neighbours s site).all (coolFor s) = true →
    identFails s site = none → (dieClk s (siteKC (site - 0x20))).stepped = true →
    mfind s.rel.stackF (site - 0x20) = some 8 → joined s (site - 0x20) 12 = true → mfind s.rel.tileF ((site - 0x20) / 3) = none →
    Leaves (.thermalRestart site true) s (fun t => mfind t.rel.stackF (site - 0x20) = none ∧ t.rel.tileF = s.rel.tileF))

/-- The rows of the always-on domain, the control lands and the power states complete (spec/13 R384 to R388, R397; spec/17 R467 to R471): power
applied and removed, the trips, and the wake input; what survives OFF is the flash, the fuses and the always-on domain, which goes only with
VIN12. POWER_STATE reaches RUN, IDLE or DEEP, and from DEEP it begins a wake that WAKE ends.
Choices of the model that it speaks in: log 2, 36. -/
def Obligations.PowerRowsComplete : Prop :=
  (∀ (s : State), s.aon.up = false → Leaves .alwaysOnDomainUp s (fun t => t.pins.vin12 = true ∧ t.aon.up = true ∧ t.aon.gtc = 0)) ∧
  (∀ (s : State), Leaves .vin12Removal s (fun t => t.pkg.power = 3 ∧ t.aon = {} ∧ t.pins.vin12 = false ∧ t.pins.pwrgd = false ∧
    t.upd.flash = s.upd.flash ∧ t.fuses = s.fuses)) ∧
  (∀ (s : State), Leaves .pwrgdFall s (fun t => t.pkg.power = 3 ∧ t.pins.pwrgd = false ∧ t.aon.up = s.aon.up ∧ t.upd.flash = s.upd.flash ∧
    t.fuses = s.fuses)) ∧
  (∀ (s : State), Leaves .hwrstAssert s (fun t => t.pkg.power = 3 ∧ t.pins.hwrst = true ∧ t.aon.holdOff = false ∧ t.aon.up = s.aon.up ∧
    t.upd.flash = s.upd.flash ∧ t.fuses = s.fuses)) ∧
  (∀ (s : State), s.aon.up = true → s.aon.inletTrip = false → Leaves .coolantInletTrip s (fun t => t.aon.inletTrip = true ∧
    (s.pkg.power < 2 → ∀ n, n < stacksOf s.pkg.part → (diePower t n).cap = 140))) ∧
  (∀ (s : State), s.aon.up = true → s.pkg.power ≤ 3 → s.pkg.power ≠ 2 → Leaves .hotSpotTrip s (fun t => t.pkg.power = 3 ∧ t.aon.latchHot = true ∧ t.aon.holdOff = true)) ∧
  (∀ (s : State), s.aon.up = true → s.aon.vinTrip = false → Leaves .vin12WindowTrip s (fun t => t.aon.vinTrip = true ∧ t.aon.latchVin = true ∧
    t.aon.vinTripAt = s.now ∧ (s.pkg.power < 2 → ∀ n, n < stacksOf s.pkg.part → (diePower t n).cap = 140))) ∧
  (∀ (s : State), s.aon.vinTrip = true → s.pkg.power < 2 → s.aon.vinTripAt + 10000000 ≤ s.now → Leaves .vin12TripTimeout s (fun t => t.pkg.power = 3)) ∧
  (∀ (vin : Bool) (s : State), Leaves (.comparatorClear vin) s (fun t => if vin then t.aon.vinTrip = false else t.aon.inletTrip = false)) ∧
  (∀ (s : State), s.aon.up = true → s.pkg.power < 2 → Leaves .wakeInEdge s (fun t => t.aon.wakeCount = s.aon.wakeCount + 1 ∧ t.pkg = s.pkg)) ∧
  (∀ (s : State), s.aon.up = true → s.pkg.power = 2 → Leaves .wakeInEdge s (fun t => t.aon.wakeCause = 2 ∧ t.aon.report = s.aon.report ++ [(3, 2)] ∧ t.pkg.transition.isSome = true)) ∧
  (∀ (r : Req) (edge : Bool) (storeBad : List Nat) (s : State), Reaches 0x0B00 r s → TicketFree s → s.pkg.transition = none → s.pkg.power < 2 → argN r 0 < 2 →
    Leaves (.powerState r edge storeBad) s (fun t => t.pkg.power = argN r 0 ∧ Accepted 0x0B00 r s t)) ∧
  (∀ (r : Req) (storeBad : List Nat) (s : State), Reaches 0x0B00 r s → TicketFree s → s.pkg.transition = none → s.pkg.power < 2 → anyJob s = false → argN r 0 = 2 →
    Leaves (.powerState r false storeBad) s (fun t => t.pkg.power = 2 ∧ t.pkg.transition = none ∧ Accepted 0x0B00 r s t)) ∧
  (∀ (r : Req) (edge : Bool) (storeBad : List Nat) (s : State), Reaches 0x0B00 r s → TicketFree s → s.pkg.transition = none → s.pkg.power = 2 → argN r 0 < 2 →
    Leaves (.powerState r edge storeBad) s (fun t => t.pkg.power = 2 ∧ t.pkg.transition = some (s.mp.nextTicket.toNat, argN r 0) ∧ t.aon.wakeCause = 1 ∧
      Accepted 0x0B00 r s t)) ∧
  (∀ (f : StartFind) (tk k : Nat) (s : State), s.pkg.transition = some (tk, k) → s.pkg.power = 2 → wakeHeld s = false → s.pkg.waitingPower = [] →
    f.silent = [] → Leaves (.wake f) s (fun t => t.pkg.power = k ∧ t.pkg.transition = none ∧ t.mp.standbyOk = true ∧ t.pkg.defCal = calDefaults s f.calBad))

/-- The start of the package, and recovery mode (spec/15 R428, R440; spec/17 R467 to R469): the straps are sampled at the start moment, the package
stays in OFF where a latch or production test mode holds it, and enters recovery where the flash cannot be read; an image is taken by mailbox and
installed where it is good. Where nothing holds it the package starts: with a hub that fails its identity checks it enters recovery with cause 0 and
names the die and the check; with dies that pass them it runs the image that the ROM chooses, or enters recovery with cause 1 where it finds none.
Choices of the model that it speaks in: log 9, 13, 37. -/
def Obligations.StartAndRecoveryRowsComplete : Prop :=
  (∀ (tm a1 a0 : Bool) (f : StartFind) (s : State), s.aon.up = true → s.pkg.power = 3 → (s.aon.holdOff = true ∨ tm = true) →
    Leaves (.packageStart tm a1 a0 f) s (fun t => t.pkg.power = 3 ∧ t.pins.pwrgd = true ∧ t.pins.hwrst = false ∧ t.pins.testSampled = tm ∧
      t.pins.smbAddr = 0x48 + 2 * b2n a1 + b2n a0)) ∧
  (∀ (a1 a0 : Bool) (f : StartFind) (s : State), s.aon.up = true → s.pkg.power = 3 → s.aon.holdOff = false → f.flashGood = false →
    Leaves (.packageStart false a1 a0 f) s (fun t => t.pkg.power = 0 ∧ t.pkg.recovery = true ∧ t.pkg.recCause = 1 ∧ t.pkg.flashBad = true ∧
      t.mp.running = true ∧ t.pins.smbAddr = 0x48 + 2 * b2n a1 + b2n a0)) ∧
  (∀ (a1 a0 : Bool) (f : StartFind) (site n : Nat) (s : State), s.aon.up = true → s.pkg.power = 3 → s.aon.holdOff = false → f.flashGood = true →
    f.sdImage = none → hubFault s = some (site, n) → Leaves (.packageStart false a1 a0 f) s (fun t => t.pkg.power = 0 ∧ t.pkg.recovery = true ∧
      t.pkg.recCause = 0 ∧ t.pkg.recFault = some (site, n) ∧ t.mp.running = true ∧ t.pins.pwrgd = true)) ∧
  (∀ (a1 a0 : Bool) (f : StartFind) (s s1 : State), s.aon.up = true → s.pkg.power = 3 → s.aon.holdOff = false → f.flashGood = true →
    f.selfFail = false → f.sdImage = none → f.silent = [] → (governing s).all (fun g => !g.2.rolling) = true → s1 = romBegins (strapped false a1 a0 s) →
    hubFault s1 = none → (∀ x, x ∈ sitesOf s1.pkg.part → identFails s1 x = none) → (∀ b m, (romBank s1).1 = some (b, m) → m.rb ≤ rbCount s) →
    Leaves (.packageStart false a1 a0 f) s (fun t => t.pkg.power = 0 ∧ t.pkg.part = s1.pkg.part ∧ t.pins = s1.pins ∧ t.mp.running = true ∧
      match (romBank s1).1 with
      | none => t.pkg.recovery = true ∧ t.pkg.recCause = 1
      | some (_, m) => t.pkg.recovery = false ∧ t.pkg.present = sitesOf s1.pkg.part ∧ t.upd.version = m.version ∧ t.pwr.budget = tdp s1.pkg.part)) ∧
  (∀ (r : Req) (s : State), Reaches 0x0D00 r s → s.pkg.recovery = true → 0 < argN r 0 → argN r 0 ≤ 50331648 →
    Leaves (.rcvBegin r) s (fun t => t.upd.rcvLen = some (argN r 0) ∧ t.upd.rcvImage = [] ∧ AnsweredOk 0x0D00 r [] s t)) ∧
  (∀ (r : Req) (len : Nat) (s : State), Reaches 0x0D01 r s → s.pkg.recovery = true → s.upd.rcvLen = some len → 0 < argN r 1 → argN r 1 ≤ 44 →
    argN r 0 + argN r 1 ≤ len → Leaves (.rcvData r) s (fun t =>
      t.upd.rcvImage = putImage s.upd.rcvImage (argN r 0) (((List.range 11).flatMap (fun i => leBytes 4 (argN r (2 + i)))).take (argN r 1)) ∧
      AnsweredOk 0x0D01 r [] s t)) ∧
  (∀ (r : Req) (f : StartFind) (n : Nat) (img : List Byte) (s : State), Reaches 0x0D02 r s → s.pkg.recovery = true → r.chan = .pcie →
    s.hp.m2hFull = false → s.pkg.flashBad = false → s.upd.rcvLen = some n →
    img = (s.upd.rcvImage ++ List.replicate (n - s.upd.rcvImage.length) 0xFF#8).take n →
    Leaves (.rcvEnd r f) s (fun t => t.hp.m2hFull = true ∧ match (installImage img s).1 with
      | .inl v => t.hp.m2hMw = answerWords 0x0D02 r.tag stOK 0 0 [BitVec.ofNat 32 v]
      | .inr d => t.hp.m2hMw = answerWords 0x0D02 r.tag stFailed d 0 [])) ∧
  (∀ (r : Req) (f : StartFind) (img : List Byte) (s : State), Reaches 0x0D03 r s → s.pkg.recovery = true → r.chan = .pcie → s.hp.m2hFull = false →
    s.pkg.flashBad = false → f.sdImage = some img → Leaves (.rcvFromSd r f) s (fun t => t.hp.m2hFull = true ∧ match (installImage img s).1 with
      | .inl v => t.hp.m2hMw = answerWords 0x0D03 r.tag stOK 0 0 [BitVec.ofNat 32 v]
      | .inr d => t.hp.m2hMw = answerWords 0x0D03 r.tag stFailed d 0 []))

/-- The update rows complete (spec/15 R430 to R439): an image staged or turned away, an activation begun, the reloads of a roll, and the lock.
Choices of the model that it speaks in: log 9, 10. -/
def Obligations.UpdateRowsComplete : Prop :=
  (∀ (r : Req) (sd : Option (List Byte)) (ok : Bool) (s : State), Reaches 0x0C00 r s → TicketFree s → s.upd.activation = none → s.mp2.drill = none →
    updRefusal s = none → Leaves (.updStage r sd ok) s (fun t => t.upd.activation = none ∧
      match sd.bind (fun img => parseManifest img (kcRevs s)) with
      | none => t.upd.staged = none ∧ bankOf t (1 - s.upd.bankActive) = [] ∧ Accepted 0x0C00 r s t
      | some m => match manifestRefusal s m with
        | some d => t.upd.staged = s.upd.staged ∧ AnsweredBad 0x0C00 r stRefused d s t
        | none => t.upd.staged = (if sigOk m && hashesOk (sd.getD []) m && ok then some m.version else none) ∧ Accepted 0x0C00 r s t)) ∧
  (∀ (r : Req) (s : State), Reaches 0x0C01 r s → TicketFree s → s.upd.activation = none → s.mp2.drill = none → updRefusal s = none →
    s.upd.staged.isSome = true → s.upd.log.length + 64 ≤ 4096 → Leaves (.updActivate r) s (fun t =>
      match (parseManifest (bankOf s (1 - s.upd.bankActive)) (kcRevs s)).bind (manifestRefusal s) with
      | some d => t.upd.activation = none ∧ AnsweredBad 0x0C01 r stRefused d s t
      | none => match authBank s (bankOf s (1 - s.upd.bankActive)) with
        | none => t.upd.activation = none ∧ AnsweredBad 0x0C01 r stState 0x0A s t
        | some m => Accepted 0x0C01 r s t ∧
          let a : Activation := { ticket := s.mp.nextTicket.toNat, oldVersion := s.upd.version, newVersion := m.version }
          t.upd.activation = some { a with unit := rollNext s a })) ∧
  (∀ (pass : Bool) (fuseFails : Option Nat) (a : Activation) (u : Nat) (s : State), s.upd.activation = some a →
    (a.unit.isSome = true ∨ updRefusal s = none) → u = a.unit.getD ((rollNext s a).getD 0x103) →
    Leaves (.activationReloadDone pass fuseFails) s (fun t => match authBank s (bankOf s s.upd.bankActive) with
    | none => t.upd.activation = none
    | some m => (pass = false → t.upd.activation = none) ∧ (u < 0x100 → identFails s u ≠ none → t.upd.activation = none) ∧
      (pass = true → (u < 0x100 → identFails s u = none) → match rollNext s { a with done := a.done ++ [u] } with
        | none => t.upd.activation = none ∧ t.upd.version = m.version
        | some v => ∃ x, t.upd.activation = some { a with done := a.done ++ [u], unit := x } ∧ (x = none ∨ x = some v)))) ∧
  (∀ (r : Req) (s : State), Reaches 0x0C02 r s → s.upd.activation = none → Leaves (.updLock r) s (fun t =>
    t.upd.flash.settings.lock = bitN (argN r 0) 0 ∧ AnsweredOk 0x0C02 r [] s t)) ∧
  (∀ (r : Req) (s : State), Reaches 0x0C03 r s → TicketFree s → attestSize s ≤ argN r 10 → inHbm s.pkg.part (addrArg r 8) (attestSize s) = true →
    Leaves (.attest r) s (fun t => t.upd = s.upd ∧ Accepted 0x0C03 r s t ∧
      let body := attestBody ((r.args.take 8).flatMap (fun w => leBytes 4 w.toNat)) s
      ((∀ l, l ∈ linesOf (addrArg r 8) (attestSize s) → lineFenced s (placeOf s l) = false ∧ findOf s.mem.flips l = none ∧
        lineCut s 12 l = false) → getBs t.mem.m (addrArg r 8) body.length = body)))

/-- The control rows of a core complete (spec/02 R57; spec/07 R235): each issues the word that stands at the program counter, and goes on, waits,
branches or ends. A branch is taken to a word of the schedule.
Choices of the model that it speaks in: log 1, 7, 8. -/
def Obligations.ControlRowsComplete : Prop :=
  (∀ (c : Nat) (w : BitVec 64) (s r : State), Issues c w .nop s r → NotLast c r → Leaves (.nop c w) s (fun t => Goes c r t (coreCtx r c))) ∧
  (∀ (c pt : Nat) (w : BitVec 64) (p : Part) (s r : State), Issues c w .endPlan s r → coreParts r c = some pt → part r pt = some p → p.plan = 2 →
    Leaves (.endInstr c w) s (fun t => (coreAt t c).cond = .ended ∧ coreCtx t c = coreCtx r c ∧
      ((∀ q, q ∈ p.named → q.1 ≠ c → (coreAt r q.1).cond = .ended) → part t pt = some { p with plan := 3 }) ∧
      ((∃ q, q ∈ p.named ∧ q.1 ≠ c ∧ (coreAt r q.1).cond ≠ .ended) → part t pt = some p))) ∧
  (∀ (c d : Nat) (w : BitVec 64) (s r : State), Issues c w (.rdcyc d) s r → NotLast c r → Leaves (.rdcyc c w) s (fun t =>
    Goes c r t { coreCtx r c with g := mset (coreCtx r c).g d (BitVec.ofNat 64 (issueCycle r c)) })) ∧
  (∀ (c d : Nat) (w : BitVec 64) (s r : State), Issues c w (.rdgtc d) s r → NotLast c r → Leaves (.rdgtc c w) s (fun t => ∃ g v : BitVec 64,
    (g = gtcAfter r (coreSite c) 2 ∨ g = gtcAfter r (coreSite c) 3) ∧
    v = (if g.toNat < (mget r.clk.lastGtc 0 c).toNat then mget r.clk.lastGtc 0 c else g) ∧
    Goes c r t { coreCtx r c with g := mset (coreCtx r c).g d v } ∧ mget t.clk.lastGtc 0 c = v)) ∧
  (∀ (c : Nat) (w : BitVec 64) (s r : State), Issues c w (.waitcyc 0) s r → NotLast c r → Leaves (.waitcyc c w) s (fun t =>
    Goes c r t (coreCtx r c))) ∧
  (∀ (c n : Nat) (w : BitVec 64) (s r : State), Issues c w (.waitcyc n) s r → n ≠ 0 → Leaves (.waitcyc c w) s (fun t =>
    Waits c t (.cycles n) (coreCtx r c))) ∧
  (∀ (c n : Nat) (s : State), (coreAt s c).cond = .issuing → (coreAt s c).wait = .cycles n → NotLast c s →
    Leaves (.waitcycExpiry c) s (fun t => Goes c s t (coreCtx s c) ∧ (coreAt t c).nextCyc = (coreAt s c).nextCyc + n)) ∧
  (∀ (c : Nat) (w : BitVec 64) (off : Int) (s r : State), Issues c w (.br off) s r → inSchedule (coreAt r c) off = true →
    Leaves (.br c w) s (fun t => Jumps c r t off (coreCtx r c))) ∧
  (∀ (c a : Nat) (w : BitVec 64) (off : Int) (s r : State), Issues c w (.beqz a off) s r →
    (getG r c a = 0 → inSchedule (coreAt r c) off = true → Leaves (.beqz c w) s (fun t => Jumps c r t off (coreCtx r c))) ∧
    (getG r c a ≠ 0 → NotLast c r → Leaves (.beqz c w) s (fun t => Goes c r t (coreCtx r c)))) ∧
  (∀ (c a : Nat) (w : BitVec 64) (off : Int) (s r : State), Issues c w (.bnez a off) s r →
    (getG r c a ≠ 0 → inSchedule (coreAt r c) off = true → Leaves (.bnez c w) s (fun t => Jumps c r t off (coreCtx r c))) ∧
    (getG r c a = 0 → NotLast c r → Leaves (.bnez c w) s (fun t => Goes c r t (coreCtx r c)))) ∧
  (∀ (c a : Nat) (w : BitVec 64) (off : Int) (s r : State), Issues c w (.loop a off) s r →
    (getG r c a ≠ 1 → inSchedule (coreAt r c) off = true → Leaves (.loopInstr c w) s (fun t =>
      Jumps c r t off { coreCtx r c with g := mset (coreCtx r c).g a (getG r c a - 1) })) ∧
    (getG r c a = 1 → NotLast c r → Leaves (.loopInstr c w) s (fun t => Goes c r t { coreCtx r c with g := mset (coreCtx r c).g a 0 })))

/-- The scalar rows that write registers complete (spec/02 R57, R74, R480; spec/08 R245, R251): the destination register takes the function's value,
and nothing else of the context changes. CSRW writes SR_SEED alone, which clears the generator's counter.
Choices of the model that it speaks in: log 1. -/
def Obligations.ScalarRowsComplete : Prop :=
  (∀ (c d a b x imm : Nat) (f : SaluFn) (w : BitVec 64) (s r : State), Issues c w (.salu f d a b x imm) s r → NotLast c r →
    Leaves (.salu c w) s (fun t => Goes c r t { coreCtx r c with
      g := mset (coreCtx r c).g d (saluVal f (getG r c a) (getG r c b) (getG r c x) imm) })) ∧
  (∀ (c d imm : Nat) (w : BitVec 64) (s r : State), Issues c w (.simm false d imm) s r → NotLast c r →
    Leaves (.simm c w) s (fun t => Goes c r t { coreCtx r c with g := mset (coreCtx r c).g d (BitVec.ofNat 64 imm) })) ∧
  (∀ (c d imm : Nat) (w : BitVec 64) (s r : State), Issues c w (.simm true d imm) s r → NotLast c r →
    Leaves (.simm c w) s (fun t => Goes c r t { coreCtx r c with
      g := mset (coreCtx r c).g d (BitVec.ofNat 64 ((getG r c d).toNat % 2 ^ 32 + imm * 2 ^ 32)) })) ∧
  (∀ (c d i : Nat) (w : BitVec 64) (s r : State), Issues c w (.csrr d i) s r → NotLast c r → Leaves (.csrr c w) s (fun t =>
    Goes c r t { coreCtx r c with g := mset (coreCtx r c).g d (csrVal r c i) })) ∧
  (∀ (c a : Nat) (w : BitVec 64) (s r : State), Issues c w (.csrw a 2) s r → NotLast c r → Leaves (.csrw c w) s (fun t =>
    Goes c r t { coreCtx r c with seed := getG r c a, ctr := 0 })) ∧
  (∀ (c a i : Nat) (w : BitVec 64) (s r : State), Issues c w (.csrw a i) s r → i ≠ 2 → NotLast c r → Leaves (.csrw c w) s (fun t =>
    Goes c r t (coreCtx r c))) ∧
  (∀ (c d sem : Nat) (w : BitVec 64) (s r : State), Issues c w (.sread d sem) s r → NotLast c r → Leaves (.sread c w) s (fun t =>
    Goes c r t { coreCtx r c with g := mset (coreCtx r c).g d (BitVec.ofNat 64 (getSem r c sem)) })) ∧
  (∀ (c d slot : Nat) (w : BitVec 64) (s r : State), Issues c w (.bstat d slot) s r → NotLast c r → Leaves (.bstat c w) s (fun t =>
    Goes c r t { coreCtx r c with g := mset (coreCtx r c).g d (getSlot r c slot) }))

/-- Tokens and BRK complete (spec/02 R60 to R62; spec/16 R449): WAITT takes the value of a DONE token and frees it, and otherwise waits; TSTAT reads it;
WAITALL waits while a token is PENDING; BRK halts where a debugger is attached, and else is counted.
Choices of the model that it speaks in: log 1, 2. -/
def Obligations.TokenRowsComplete : Prop :=
  (∀ (c d k : Nat) (v w : BitVec 64) (s r : State), Issues c w (.waitt d k) s r → getTok r c k = .done v → NotLast c r →
    Leaves (.waitt c w) s (fun t => Goes c r t { coreCtx r c with g := mset (coreCtx r c).g d v } ∧ getTok t c k = .free)) ∧
  (∀ (c d k : Nat) (w : BitVec 64) (s r : State), Issues c w (.waitt d k) s r → getTok r c k = .pending →
    Leaves (.waitt c w) s (fun t => Waits c t (.waitt d k) (coreCtx r c))) ∧
  (∀ (c d k : Nat) (v : BitVec 64) (s : State), (coreAt s c).cond = .issuing → (coreAt s c).wait = .waitt d k → getTok s c k = .done v →
    NotLast c s → Leaves (.waittResume c) s (fun t => Goes c s t { coreCtx s c with g := mset (coreCtx s c).g d v } ∧ getTok t c k = .free)) ∧
  (∀ (c d k : Nat) (v w : BitVec 64) (s r : State), Issues c w (.tstat d k) s r → getTok r c k = .done v → NotLast c r →
    Leaves (.tstat c w) s (fun t => Goes c r t { coreCtx r c with g := mset (coreCtx r c).g d v } ∧ getTok t c k = .done v)) ∧
  (∀ (c d k : Nat) (w : BitVec 64) (s r : State), Issues c w (.tstat d k) s r → getTok r c k = .pending → NotLast c r →
    Leaves (.tstat c w) s (fun t => Goes c r t { coreCtx r c with g := mset (coreCtx r c).g d 0 } ∧ getTok t c k = .pending)) ∧
  (∀ (c : Nat) (w : BitVec 64) (s r : State), Issues c w .waitall s r → anyPending (coreAt r c) = false → NotLast c r →
    Leaves (.waitall c w) s (fun t => Goes c r t (coreCtx r c))) ∧
  (∀ (c : Nat) (w : BitVec 64) (s r : State), Issues c w .waitall s r → anyPending (coreAt r c) = true →
    Leaves (.waitall c w) s (fun t => Waits c t .waitall (coreCtx r c))) ∧
  (∀ (c : Nat) (s : State), (coreAt s c).cond = .issuing → (coreAt s c).wait = .waitall → anyPending (coreAt s c) = false → NotLast c s →
    Leaves (.waitallResume c) s (fun t => Goes c s t (coreCtx s c))) ∧
  (∀ (c : Nat) (w : BitVec 64) (s r : State), Issues c w .brk s r → (coreAt r c).debugger = false → NotLast c r →
    Leaves (.brk c w) s (fun t => Goes c r t (coreCtx r c))) ∧
  (∀ (c : Nat) (w : BitVec 64) (s r : State), Issues c w .brk s r → (coreAt r c).debugger = true →
    Leaves (.brk c w) s (fun t => (coreAt t c).cond = .brk ∧ coreCtx t c = coreCtx r c))

/-- The scratch and cluster memory rows complete (spec/02 R42, R57; spec/04 R117): an access in range and aligned takes the little-endian bytes, or
stores them. A cluster memory access enters its cluster's pipeline, a scalar load to sample 7 cycles and a vector load 10 cycles after its issue,
a scalar store to commit 8 and a vector store 11 cycles after it.
Choices of the model that it speaks in: log 1, 11. -/
def Obligations.MemoryRowsComplete : Prop :=
  (∀ (c n d a p : Nat) (off : Int) (w : BitVec 64) (e : Ecc) (s r : State), Issues c w (.slsLoad n d a off) s r → NotLast c r →
    p = effAddr (getG r c a) off → scrFault (coreAt r c) n p n = none → badWords r.mem.m (scrBase c + p) n e.bad = [] →
    Leaves (.slsLoad c w e) s (fun t =>
      Goes c r t { coreCtx r c with g := mset (coreCtx r c).g d (BitVec.ofNat 64 (leNat (getBs r.mem.m (scrBase c + p) n))) })) ∧
  (∀ (c d a p : Nat) (off : Int) (w : BitVec 64) (e : Ecc) (s r : State), Issues c w (.vlsLd d a off) s r → NotLast c r →
    p = effAddr (getG r c a) off → scrFault (coreAt r c) 64 p 256 = none → badWords r.mem.m (scrBase c + p) 256 e.bad = [] →
    Leaves (.vlsLd c w e) s (fun t =>
      Goes c r t { coreCtx r c with v := mset (coreCtx r c).v d (BitVec.ofNat 2048 (leNat (getBs r.mem.m (scrBase c + p) 256))) })) ∧
  (∀ (c n a b p : Nat) (off : Int) (w : BitVec 64) (e : Ecc) (s r : State), Issues c w (.slsStore n a b off) s r → r.parts = s.parts → NotLast c r →
    p = effAddr (getG r c a) off → scrFault (coreAt r c) n p n = none →
    (n ≠ 4 ∨ e.bad = [] ∧ isPoison r.mem.m (scrBase c + p) = false) →
    Leaves (.slsStore c w e) s (fun t => Goes c r t (coreCtx r c) ∧ getBs t.mem.m (scrBase c + p) n = leBytes n (getG r c b).toNat ∧
      ∀ x, (x < scrBase c + p ∨ scrBase c + p + n ≤ x) → getB t.mem.m x = getB r.mem.m x)) ∧
  (∀ (c a b p : Nat) (off : Int) (w : BitVec 64) (s r : State), Issues c w (.vlsSt a b off) s r → r.parts = s.parts → NotLast c r →
    p = effAddr (getG r c a) off → scrFault (coreAt r c) 64 p 256 = none →
    Leaves (.vlsSt c w) s (fun t => Goes c r t (coreCtx r c) ∧ getBs t.mem.m (scrBase c + p) 256 = leBytes 256 (getV r c b).toNat ∧
      ∀ x, (x < scrBase c + p ∨ scrBase c + p + 256 ≤ x) → getB t.mem.m x = getB r.mem.m x)) ∧
  (∀ (c n d a p : Nat) (off : Int) (w : BitVec 64) (e : Ecc) (s r : State), Issues c w (.scmLoad n d a off) s r → NotLast c r →
    p = effAddr (getG r c a) off → rangeFault cmSize n p n = none →
    Leaves (.scmLoad c w e) s (fun t => Goes c r t (coreCtx r c) ∧ ∃ x : CmLoad,
      (pipeOf t (coreCluster c)).loads = (pipeOf r (coreCluster c)).loads ++ [x] ∧ x.core = c ∧ x.addr = p ∧ x.len = n ∧ x.vec = false ∧
      x.d = d ∧ x.sample = issueCycle r c + 7 ∧ x.data = none)) ∧
  (∀ (c d a p : Nat) (off : Int) (w : BitVec 64) (e : Ecc) (s r : State), Issues c w (.vcmLd d a off) s r → NotLast c r →
    p = effAddr (getG r c a) off → rangeFault cmSize 64 p 256 = none →
    Leaves (.vcmLd c w e) s (fun t => Goes c r t (coreCtx r c) ∧ ∃ x : CmLoad,
      (pipeOf t (coreCluster c)).loads = (pipeOf r (coreCluster c)).loads ++ [x] ∧ x.core = c ∧ x.addr = p ∧ x.len = 256 ∧ x.vec = true ∧
      x.d = d ∧ x.sample = issueCycle r c + 10 ∧ x.data = none)) ∧
  (∀ (c n a b p : Nat) (off : Int) (w : BitVec 64) (e : Ecc) (s r : State), Issues c w (.scmStore n a b off) s r → NotLast c r →
    p = effAddr (getG r c a) off → rangeFault cmSize n p n = none →
    Leaves (.scmStore c w e) s (fun t => Goes c r t (coreCtx r c) ∧ ∃ x : CmStore,
      (pipeOf t (coreCluster c)).stores = (pipeOf r (coreCluster c)).stores ++ [x] ∧ x.core = c ∧ x.addr = p ∧
      x.bytes = leBytes n (getG r c b).toNat ∧ x.due = issueCycle r c + 8)) ∧
  (∀ (c a b p : Nat) (off : Int) (w : BitVec 64) (s r : State), Issues c w (.vcmSt a b off) s r → NotLast c r →
    p = effAddr (getG r c a) off → rangeFault cmSize 64 p 256 = none →
    Leaves (.vcmSt c w) s (fun t => Goes c r t (coreCtx r c) ∧ ∃ x : CmStore,
      (pipeOf t (coreCluster c)).stores = (pipeOf r (coreCluster c)).stores ++ [x] ∧ x.core = c ∧ x.addr = p ∧
      x.bytes = leBytes 256 (getV r c b).toNat ∧ x.due = issueCycle r c + 11))

/-- The vector rows complete (spec/02 R481 to R484; spec/03 R90, R98, R108, R109): the destination takes the lanes that the function gives, the flags
that they raise are set, and stochastic rounding takes its draws from the core's generator. The flags are set the latency of R58 after the issue.
Choices of the model that it speaks in: log 1. -/
def Obligations.VectorRowsComplete : Prop :=
  (∀ (c d a b x : Nat) (fn : VfFn) (rz : Bool) (w : BitVec 64) (s r : State), Issues c w (.vf false fn rz d a b x) s r → fn ≠ .bcast → NotLast c r →
    Leaves (.vf32 c w) s (fun t => Goes c r t { coreCtx r c with
      v := mset (coreCtx r c).v d (packLanes 32 ((vfLanes .fp32 fn rz (getV r c a) (getV r c b) (getV r c x)).map (·.1))) } ∧
      FlagsIn c r 4 (flagsOf (vfLanes .fp32 fn rz (getV r c a) (getV r c b) (getV r c x))) r t)) ∧
  (∀ (c d a b x : Nat) (w : BitVec 64) (s r : State), Issues c w (.vf false .bcast false d a b x) s r → NotLast c r →
    Leaves (.vf32 c w) s (fun t => Goes c r t { coreCtx r c with
      v := mset (coreCtx r c).v d (packLanes 32 (List.replicate 64 (getG r c a).toNat)) })) ∧
  (∀ (c d a b x : Nat) (fn : VfFn) (rz : Bool) (w : BitVec 64) (s r : State), Issues c w (.vf true fn rz d a b x) s r → fn ≠ .bcast → NotLast c r →
    Leaves (.vf64 c w) s (fun t => Goes c r t { coreCtx r c with
      v := mset (coreCtx r c).v d (packLanes 64 ((vfLanes .fp64 fn rz (getV r c a) (getV r c b) (getV r c x)).map (·.1))) } ∧
      FlagsIn c r 6 (flagsOf (vfLanes .fp64 fn rz (getV r c a) (getV r c b) (getV r c x))) r t)) ∧
  (∀ (c d a b x : Nat) (w : BitVec 64) (s r : State), Issues c w (.vf true .bcast false d a b x) s r → NotLast c r →
    Leaves (.vf64 c w) s (fun t => Goes c r t { coreCtx r c with
      v := mset (coreCtx r c).v d (packLanes 64 (List.replicate 32 (getG r c a).toNat)) })) ∧
  (∀ (c wd d a b sh : Nat) (fn : VintFn) (w : BitVec 64) (s r : State) (va : BitVec 2048) (l : List (Nat × Nat)),
    Issues c w (.vint fn wd d a b sh) s r → NotLast c r →
    va = (if fn = .bcast then packLanes wd (List.replicate (2048 / wd) (getG r c a).toNat) else getV r c a) →
    l = (List.range (2048 / wd)).map (fun i => vintLane fn wd sh (bitsN va.toNat (wd * i) wd) (bitsN (getV r c b).toNat (wd * i) wd)) →
    Leaves (.vint c w) s (fun t => Goes c r t { coreCtx r c with
      v := mset (coreCtx r c).v d (packLanes wd (l.map (·.1))) } ∧
      FlagsIn c r 2 (flagsOf l) r t)) ∧
  (∀ (c sg dg d a n : Nat) (rd : Rnd) (src dst : Fm) (w : BitVec 64) (s r : State) (l : List (Nat × Nat)), Issues c w (.cvt rd src dst sg dg d a) s r →
    NotLast c r → n = (if src = .fp64 ∨ dst = .fp64 then 32 else 64) →
    l = ((elems (getV r c a) (fmWidth src) (sg * n) n).zip (takeDraws c rd n r).1).map (fun p => convert dst rd p.2 (valueOf src p.1)) →
    Leaves (.cvt c w) s (fun t => Goes c r t { coreCtx r c with
      v := mset (coreCtx r c).v d (putElems (getV r c d) (fmWidth dst) (dg * n) (l.map (·.1)))
      ctr := if rd = .stoch then (coreCtx r c).ctr + BitVec.ofNat 128 (ceilDiv n 4) else (coreCtx r c).ctr } ∧
      FlagsIn c r 4 (flagsOf l) r t)) ∧
  (∀ (c dg d a x : Nat) (rd : Rnd) (dst : Fm) (w : BitVec 64) (s r : State) (vs : List (Fv × Nat)) (b0 b1 : List (Nat × Nat) × Nat),
    Issues c w (.block rd dst dg d a x) s r → NotLast c r →
    vs = ((elems (getV r c a) 32 0 64).map (valueOf .fp32)).zip (takeDraws c rd 64 r).1 →
    b0 = blockConv dst rd (vs.take 32) → b1 = blockConv dst rd (vs.drop 32) →
    Leaves (.blockCvt c w) s (fun t => Goes c r t { coreCtx r c with
      v := mset (coreCtx r c).v d (putElems (getV r c d) (fmWidth dst) (dg * 64) ((b0.1 ++ b1.1).map (·.1)))
      g := mset (coreCtx r c).g x (BitVec.ofNat 64 (b0.2 + 256 * b1.2))
      ctr := if rd = .stoch then (coreCtx r c).ctr + 16 else (coreCtx r c).ctr } ∧ FlagsIn c r 4 (flagsOf (b0.1 ++ b1.1)) r t)) ∧
  (∀ (c d a : Nat) (fn : RedFn) (dbl rz : Bool) (w : BitVec 64) (s r : State) (f : Fm) (v : Nat × Nat), Issues c w (.vred fn dbl rz d a) s r →
    NotLast c r → f = (if dbl then Fm.fp64 else Fm.fp32) →
    v = redTree f fn rz (if dbl then 5 else 6) (lanesOf (fmWidth f) (getV r c a)) 0 →
    Leaves (.vred c w) s (fun t => Goes c r t { coreCtx r c with
      g := mset (coreCtx r c).g d (BitVec.ofNat 64 v.1) } ∧ FlagsIn c r 8 v.2 r t))

/-- The tensor rows complete (spec/02 R59, R67 to R72; spec/03 R99 to R103, R106, R111): TMMA and TSLICE enter the queue, or stall the scalar unit where
it is full; the executing one writes its tile as its occupancy ends, and its flags are set as its result is ready; TZERO clears a tile and
sets its mode; TSTORE writes the tile to scratch.
Choices of the model that it speaks in: log 1, 12, 20. -/
def Obligations.TensorRowsComplete : Prop :=
  (∀ (c t0 : Nat) (int : Bool) (w : BitVec 64) (e : Ecc) (s r y : State), Issues c w (.tzero int t0) s r →
    y = awaitTile c t0 e (issued c (.tzero int t0) r) →
    stillRuns y c = true → NotLast c y → Leaves (.tzero c w e) s (fun t => Goes c y t { coreCtx y c with
      tiles := mset (coreCtx y c).tiles t0 { int := int, els := [] } })) ∧
  (∀ (c td ga gb nch : Nat) (fa fb : Fm) (mxa mxb acc : Bool) (x : TOp) (w : BitVec 64) (s r : State),
    Issues c w (.tmma td fa fb ga gb nch mxa mxb acc) s r →
    x = { slice := false, td := td, fmtA := fmId fa, fmtB := fmId fb, a := (getG r c ga).toNat, b := (getG r c gb).toNat, nch := nch,
          mxa := mxa, mxb := mxb, acc := acc } → tensorFault (coreAt r c) x = none →
    ((coreAt r c).queue.length < 5 → NotLast c r → Leaves (.tmma c w) s (fun t => Goes c r t (coreCtx r c) ∧
      (coreAt t c).queue = (coreAt r c).queue ++ [x])) ∧
    (5 ≤ (coreAt r c).queue.length → Leaves (.tmma c w) s (fun t => Waits c t (.tensor x) (coreCtx r c)))) ∧
  (∀ (c td shift ga gb nch : Nat) (ua ub acc : Bool) (x : TOp) (w : BitVec 64) (s r : State),
    Issues c w (.tslice td shift ua ub ga gb nch acc) s r →
    x = { slice := true, td := td, a := (getG r c ga).toNat, b := (getG r c gb).toNat, nch := nch, acc := acc, shift := shift, ua := ua, ub := ub } →
    tensorFault (coreAt r c) x = none →
    ((coreAt r c).queue.length < 5 → NotLast c r → Leaves (.tslice c w) s (fun t => Goes c r t (coreCtx r c) ∧
      (coreAt t c).queue = (coreAt r c).queue ++ [x])) ∧
    (5 ≤ (coreAt r c).queue.length → Leaves (.tslice c w) s (fun t => Waits c t (.tensor x) (coreCtx r c)))) ∧
  (∀ (c ts gd a : Nat) (f : Option (Fm × Rnd)) (zero : Bool) (w : BitVec 64) (e : Ecc) (s r y : State) (x : Tile) (n : Nat) (o : List Byte × Nat),
    Issues c w (.tstore ts gd f zero) s r → y = awaitTile c ts e (issued c (.tstore ts gd f zero) r) →
    stillRuns y c = true → NotLast c y → y.parts = s.parts →
    x = getTile y c ts → a = (getG y c gd).toNat → o = storeBytes x f (takeDraws c ((f.map (·.2)).getD .near) 128 y).1 →
    n = (match f with | none => if x.int then 1024 else 2048 | some q => 128 * fmWidth q.1 / 8) →
    scrFault (coreAt y c) 64 a n = none → (f.isSome && x.int) = false →
    Leaves (.tstore c w e) s (fun t => getBs t.mem.m (scrBase c + a) o.1.length = o.1 ∧
      (∀ z, (z < scrBase c + a ∨ scrBase c + a + o.1.length ≤ z) → getB t.mem.m z = getB y.mem.m z) ∧
      Goes c y t { coreCtx y c with
        tiles := if zero then mset (coreCtx y c).tiles ts { x with els := [] } else (coreCtx y c).tiles
        ctr := if (f.map (·.2)).getD .near = .stoch then (coreCtx y c).ctr + 32 else (coreCtx y c).ctr } ∧ FlagsIn c r 6 o.2 y t)) ∧
  (∀ (c : Nat) (e : Ecc) (x : TOp) (rest : List TOp) (s : State) (o : List (BitVec 128) × Nat), (coreAt s c).queue = x :: rest → (coreAt s c).wait = .none →
    badWords s.mem.m (scrBase c + x.a) (operandBytes (fmD x.fmtA) 16 x.nch x.mxa) (badIn e x.a (operandBytes (fmD x.fmtA) 16 x.nch x.mxa)) = [] →
    badWords s.mem.m (scrBase c + x.b) (operandBytes (fmD x.fmtB) 8 x.nch x.mxb) (badIn e x.b (operandBytes (fmD x.fmtB) 8 x.nch x.mxb)) = [] →
    o = (if x.slice then tsliceEls s.mem.m c x (tileEls (getTile s c x.td)) else tmmaEls s.mem.m c x (tileEls (getTile s c x.td))) →
    Leaves (.tensorQueueAdvance c e) s (fun t => (coreAt t c).queue = rest ∧ getTile t c x.td = { getTile s c x.td with els := o.1 } ∧
      (coreAt t c).unready = (coreAt s c).unready ++ [(x.td, o.2)])) ∧
  (∀ (c f t0 : Nat) (rest : List (Nat × Nat)) (s : State), (coreAt s c).unready = (t0, f) :: rest → Leaves (.tensorResultReady c) s (fun t =>
    (coreAt t c).unready = rest ∧ coreCtx t c = { coreCtx s c with flags := (coreCtx s c).flags ||| BitVec.ofNat 64 (f % 128) }))

/-- The transfer rows complete (spec/02 R61 to R66; spec/09 R271): VCX, HMX and DPOST make a token PENDING and enter their queue; the completion makes it
DONE with its status, 1 where all went well. A VCX has then copied its bytes.
Choices of the model that it speaks in: log 1, 2, 12. -/
def Obligations.TransferRowsComplete : Prop :=
  (∀ (c tok gs gv gl : Nat) (toSlice : Bool) (sem : Option Nat) (w : BitVec 64) (s r : State), Issues c w (.vcx toSlice tok gs gv gl sem) s r →
    NotLast c r → xferFault r c 128 tok (getG r c gs).toNat (getG r c gv).toNat (getG r c gl).toNat (some (2 ^ 21)) = none →
    Leaves (.vcx c w) s (fun t => Goes c r t (coreCtx r c) ∧ getTok t c tok = .pending ∧ (coreAt t c).vcx = (coreAt r c).vcx ++
      [{ toScr := !toSlice, tok := tok, scr := (getG r c gs).toNat, far := (getG r c gv).toNat, len := (getG r c gl).toNat, sem := sem }])) ∧
  (∀ (c tok gs ga gl : Nat) (toFar : Bool) (sem : Option Nat) (x : Xfer) (w : BitVec 64) (s r : State), Issues c w (.hmx toFar tok gs ga gl sem) s r →
    NotLast c r → xferFault r c 64 tok (getG r c gs).toNat (getG r c ga).toNat (getG r c gl).toNat none = none →
    x = { toScr := !toFar, tok := tok, scr := (getG r c gs).toNat, far := (getG r c ga).toNat, len := (getG r c gl).toNat, sem := sem } →
    Leaves (.hmx c w) s (fun t => Goes c r t (coreCtx r c) ∧ getTok t c tok = .pending ∧
      (∃ l, (coreAt t c).hmx = (coreAt r c).hmx ++ [{ x with reqs := l }]) ∧
      ∀ p q, (coreParts r c).bind (part r) = some p → q ∈ hmxRuns r c p x →
        ∃ g h b, Out.packet (if toFar then 1 else 2) (coreStack c) q.2.2 g h b ∈ t.out)) ∧
  (∀ (c src dst : Nat) (e : Ecc) (x : Xfer) (rest : List Xfer) (s : State), (coreAt s c).vcx = x :: rest →
    (mget s.mem.vcs {} (physOf s c)).testing = false →
    src = (if x.toScr then slBase c + x.far else scrBase c + x.scr) → dst = (if x.toScr then scrBase c + x.scr else slBase c + x.far) →
    badWords s.mem.m src x.len e.bad = [] →
    Leaves (.vcxCompletion c e) s (fun t => (coreAt t c).vcx = rest ∧ getTok t c x.tok = .done 1 ∧
      (∀ n, x.sem = some n → getSem t c n = min 65535 (getSem s c n + 1)))) ∧
  (∀ (c : Nat) (e : Ecc) (x : Xfer) (rest : List Xfer) (s : State), (coreAt s c).vcx = x :: rest →
    (mget s.mem.vcs {} (physOf s c)).testing = false → x.sem.all (fun n => decide (getSem s c n < 65535)) = true →
    badWords s.mem.m (if x.toScr then slBase c + x.far else scrBase c + x.scr) x.len e.bad = [] →
    Leaves (.vcxCompletion c e) s (fun t =>
      getBs t.mem.m (if x.toScr then scrBase c + x.scr else slBase c + x.far) x.len =
        getBs s.mem.m (if x.toScr then slBase c + x.far else scrBase c + x.scr) x.len)) ∧
  (∀ (c tok : Nat) (e : Ecc) (fs : List LineFind) (x : Xfer) (p : Part) (s : State), (coreAt s c).hmx.find? (fun x => x.tok == tok) = some x →
    (coreParts s c).bind (part s) = some p → Leaves (.hmxCompletion c tok e fs) s (fun t =>
      (coreAt t c).hmx.find? (fun x => x.tok == tok) = none ∧ (∃ v, v < 16 ∧ getTok t c tok = .done (BitVec.ofNat 64 v)))) ∧
  (∀ (c tok : Nat) (e : Ecc) (fs : List LineFind) (x : Xfer) (p : Part) (s : State), (coreAt s c).hmx.find? (fun x => x.tok == tok) = some x →
    (coreParts s c).bind (part s) = some p → x.toScr = true → (∀ i, i < x.len / 64 → mfind x.got i = some 1) →
    Leaves (.hmxCompletion c tok e fs) s (fun t => getTok t c tok = .done 1)) ∧
  (∀ (c tok : Nat) (e : Ecc) (fs : List LineFind) (x : Xfer) (p : Part) (bs : List Byte) (bad : List Nat) (s y z : State),
    (coreAt s c).hmx.find? (fun x => x.tok == tok) = some x → (coreParts s c).bind (part s) = some p → x.toScr = true → x.len = 64 → x.got = [] →
    x.sem.all (fun n => decide (getSem s c n < 65535)) = true →
    y = setCore s c { coreAt s c with hmx := (coreAt s c).hmx.filter (fun y => y.tok != tok) } →
    reaches y p false x.far = true → (epOfAddr y x.far = coreStack c ∨ reachesEp y (coreStack c) (epOfAddr y x.far) = true) →
    readDpaQ x.far fs (if dpaOf y.pkg.part x.far == .hbm then {} else eccOf e x.far x.far) y = (.data bs, bad, z) →
    Leaves (.hmxCompletion c tok e fs) s (fun t => getTok t c tok = .done 1 ∧ getBs t.mem.m (scrBase c + x.scr) 64 = bs)) ∧
  (∀ (c queue tok gs a : Nat) (sem : Option Nat) (hub : Bool) (w : BitVec 64) (e : Ecc) (s r : State),
    Issues c w (.dpost queue tok gs sem hub) s r → a = (getG r c gs).toNat → scrFault (coreAt r c) 64 a 64 = none → getTok r c tok = .free →
    badWords r.mem.m (scrBase c + a) 64 e.bad = [] → Leaves (.dpost c w e) s (fun t => getTok t c tok = .pending ∧
      Waits c t (.dpost { tok := tok, sem := sem, hub := hub, queue := queue, desc := getBs r.mem.m (scrBase c + a) 64,
                          reach := (rood r (coreSite c) 8).cyc.toNat }) (coreCtx r c))) ∧
  (∀ (c : Nat) (d : DPostOp) (s r y : State), (coreAt s c).wait = .dpost d → r = pastReach c d s → acceptPost c d r = some y →
    ((coreAt s c).cond = .issuing → NotLast c s → Leaves (.dpostResume c) s (fun t => Goes c s t (coreCtx s c))) ∧
    ((coreAt s c).cond ≠ .issuing → Leaves (.dpostResume c) s (fun t => (coreAt t c).wait = .none ∧ (coreAt t c).cond = (coreAt s c).cond)) ∧
    (d.hub = false → Leaves (.dpostResume c) s (fun t => mget (dieEng t (coreStack c)).queues [] d.queue =
      mget (dieEng s (coreStack c)).queues [] d.queue ++ [{ core := c, tok := d.tok, sem := d.sem, desc := d.desc }]))) ∧
  (∀ (st h : Nat) (x : Handle) (v : BitVec 64) (s : State), mfind (dieEng s st).handles h = some x → x.comp = some v →
    Leaves (.descriptorCompletion st h) s (fun t => mfind (dieEng t st).handles h = none ∧
      getTok t x.core x.tok = .done (if joinStatus (v.toNat % 16) x.localSt = v.toNat % 16 then v
        else BitVec.ofNat 64 (joinStatus (v.toNat % 16) x.localSt))))

/-- The semaphore rows complete (spec/08 R244 to R248): counts are set, raised and taken, an increase stopping at 65,535; SWAIT waits while the count is
below N; a remote post is outstanding until it is delivered, and the ninth waits.
Choices of the model that it speaks in: log 1, 2. -/
def Obligations.SemaphoreRowsComplete : Prop :=
  (∀ (c sem n : Nat) (w : BitVec 64) (s r : State), Issues c w (.sinit sem n) s r → NotLast c r → Leaves (.sinit c w) s (fun t =>
    Goes c r t { coreCtx r c with sems := mset (coreCtx r c).sems sem (BitVec.ofNat 16 n) })) ∧
  (∀ (c sem n : Nat) (w : BitVec 64) (s r : State), Issues c w (.spost sem n) s r → NotLast c r → Leaves (.spost c w) s (fun t =>
    Goes c r t { coreCtx r c with sems := mset (coreCtx r c).sems sem (BitVec.ofNat 16 (min 65535 (getSem r c sem + n))) })) ∧
  (∀ (c sem n : Nat) (w : BitVec 64) (s r : State), Issues c w (.swait sem n) s r →
    (n ≤ getSem r c sem → NotLast c r → Leaves (.swait c w) s (fun t =>
      Goes c r t { coreCtx r c with sems := mset (coreCtx r c).sems sem (BitVec.ofNat 16 (getSem r c sem - n)) })) ∧
    (getSem r c sem < n → Leaves (.swait c w) s (fun t => Waits c t (.swait sem n) (coreCtx r c)))) ∧
  (∀ (c sem n : Nat) (s : State), (coreAt s c).cond = .issuing → (coreAt s c).wait = .swait sem n → n ≤ getSem s c sem → NotLast c s →
    Leaves (.swaitResume c) s (fun t =>
      Goes c s t { coreCtx s c with sems := mset (coreCtx s c).sems sem (BitVec.ofNat 16 (getSem s c sem - n)) })) ∧
  (∀ (c d sem n : Nat) (w : BitVec 64) (s r : State), Issues c w (.stry d sem n) s r → NotLast c r →
    (n ≤ getSem r c sem → Leaves (.stry c w) s (fun t => Goes c r t { coreCtx r c with
      g := mset (coreCtx r c).g d 1
      sems := mset (coreCtx r c).sems sem (BitVec.ofNat 16 (getSem r c sem - n)) })) ∧
    (getSem r c sem < n → Leaves (.stry c w) s (fun t => Goes c r t { coreCtx r c with g := mset (coreCtx r c).g d 0 }))) ∧
  (∀ (c a sem n u : Nat) (p : Part) (w : BitVec 64) (s r : State), Issues c w (.spostr a sem n) s r → (getG r c a).toNat ≤ 4095 → bitN (getG r c a).toNat 4 = false →
    (coreParts r c).bind (part r) = some p → coreOfField p (getG r c a).toNat = some u → (mfind p.named u).isSome = true →
    (postsOf r c < 8 → NotLast c r → Leaves (.spostr c w) s (fun t => Goes c r t (coreCtx r c) ∧
      t.sync.posts = r.sync.posts ++ [{ src := c, target := u, sem := sem, n := n, seq := r.cores.seq }] ∧
      (coreStack c ≠ coreStack u → ∃ pt, coreParts r c = some pt ∧ Out.packet 6 (coreStack c) (coreStack u) 0 [0, pt]
        (barrierBytes 3 sem false false p.run (fieldOfCore p u) n none 0) ∈ t.out))) ∧
    (8 ≤ postsOf r c → Leaves (.spostr c w) s (fun t => Waits c t (.spostr u sem n) (coreCtx r c)))) ∧
  (∀ (c u sem n : Nat) (s : State), (coreAt s c).cond = .issuing → (coreAt s c).wait = .spostr u sem n → postsOf s c < 8 → NotLast c s →
    Leaves (.spostrResume c) s (fun t => Goes c s t (coreCtx s c) ∧
      t.sync.posts = s.sync.posts ++ [{ src := c, target := u, sem := sem, n := n, seq := s.cores.seq }])) ∧
  (∀ (src target : Nat) (p : RPost) (s y : State), s.sync.posts.find? (fun p => p.src == src && p.target == target) = some p →
    y = flushStores src p.seq s →
    Leaves (.post src target) s (fun t => getSem t target p.sem = min 65535 (getSem y target p.sem + p.n) ∧ t.sync.posts = s.sync.posts.erase p))

/-- The barrier rows complete (spec/08 R249 to R256, R261): a slot is configured, an arrival inverts its SENSE and raises OUT and is on its way to the
cluster's combiner, a combiner counts its arrivals and a release goes down and lowers OUT, and the stalemate of a die is recorded.
Choices of the model that it speaks in: log 1, 2, 16. -/
def Obligations.BarrierRowsComplete : Prop :=
  (∀ (c a slot : Nat) (p : Part) (w : BitVec 64) (s r : State), Issues c w (.bcfg a slot) s r → (coreParts r c).bind (part r) = some p →
    bcfgBad p c (getG r c a) = false →
    (slOut (getSlot r c slot) = 0 → NotLast c r → Leaves (.bcfg c w) s (fun t => Goes c r t { coreCtx r c with
      slots := mset (coreCtx r c).slots slot (putField (getSlot r c slot) 14 50 ((getG r c a).toNat / 2 ^ 14)) })) ∧
    (slOut (getSlot r c slot) ≠ 0 → Leaves (.bcfg c w) s (fun t => Waits c t (.bcfg slot (getG r c a)) (coreCtx r c)))) ∧
  (∀ (c slot pt : Nat) (p : Part) (w : BitVec 64) (s r : State), Issues c w (.barr slot) s r → coreParts r c = some pt → part r pt = some p →
    slCmask (getSlot r c slot) ≠ 0 →
    (slOut (getSlot r c slot) ≠ 2 → NotLast c r → Leaves (.barr c w) s (fun t => Goes c r t { coreCtx r c with
        slots := mset (coreCtx r c).slots slot (arrivedSlot (getSlot r c slot)) } ∧
      t.sync.arrivals = r.sync.arrivals ++ [arrivalOf pt p c slot r])) ∧
    (slOut (getSlot r c slot) = 2 → Leaves (.barr c w) s (fun t => Waits c t (.barr slot false) (coreCtx r c)))) ∧
  (∀ (c slot : Nat) (w : BitVec 64) (s r : State), Issues c w (.bwait slot) s r →
    (slOut (getSlot r c slot) = 0 → NotLast c r → Leaves (.bwait c w) s (fun t => Goes c r t (coreCtx r c))) ∧
    (slOut (getSlot r c slot) ≠ 0 → Leaves (.bwait c w) s (fun t => Waits c t (.bwait slot) (coreCtx r c)))) ∧
  (∀ (c slot pt : Nat) (p : Part) (w : BitVec 64) (s r : State), Issues c w (.bar slot) s r → coreParts r c = some pt → part r pt = some p →
    slCmask (getSlot r c slot) ≠ 0 →
    (slOut (getSlot r c slot) ≠ 2 → Leaves (.bar c w) s (fun t => Waits c t (.bar slot) { coreCtx r c with
        slots := mset (coreCtx r c).slots slot (arrivedSlot (getSlot r c slot)) } ∧
      t.sync.arrivals = r.sync.arrivals ++ [arrivalOf pt p c slot r])) ∧
    (slOut (getSlot r c slot) = 2 → Leaves (.bar c w) s (fun t => Waits c t (.barr slot true) (coreCtx r c)))) ∧
  (∀ (lv unit slot sender k : Nat) (a : Arrival) (p : Part) (s : State),
    s.sync.arrivals.find? (fun a => a.level == levelOf lv && a.unit == unit && a.slot == slot && a.sender == sender) = some a →
    a.core.all (fun c => !s.sync.posts.any (fun q => q.src == c && decide (q.seq < a.seq))) = true →
    part s a.pt = some p → a.level ≠ .fabric → a.run = p.run.toNat → k = combKey a.pt a.level a.unit a.slot a.sense →
    (combOf s k).skip.contains a.sender = false → (combOf s k).cfg.all (fun v => levelCfg a.level v == levelCfg a.level a.cfg) = true →
    Leaves (.arrive lv unit slot sender) s (fun t => (combOf t k).arrived = addOnce (combOf s k).arrived a.sender ∧
      (combOf t k).cfg = some ((combOf s k).cfg.getD a.cfg))) ∧
  (∀ (lv unit slot k : Nat) (rl : Release) (p : Part) (w : BitVec 64) (s : State),
    s.sync.releases.find? (fun r => r.level == levelOf lv && r.unit == unit && r.slot == slot) = some rl → part s rl.pt = some p →
    rl.level = .cluster → rl.run = p.run.toNat → k = combKey rl.pt .cluster rl.unit rl.slot rl.sense → (combOf s k).cfg = some w →
    (∀ c, c ∈ expected s rl.pt p .cluster rl.unit w → (coreAt s c).wait = .none) →
    Leaves (.release lv unit slot) s (fun t => combOf t k = { ({} : Combiner) with skip := (combOf s k).skip } ∧
      ∀ c, c ∈ expected s rl.pt p .cluster rl.unit w → slOut (getSlot s c rl.slot) ≠ 0 → oldestSense (getSlot s c rl.slot) = rl.sense →
        getSlot t c rl.slot =
          putField (putField (getSlot s c rl.slot) 11 2 (slOut (getSlot s c rl.slot) - 1)) 0 10 (slPly (getSlot s c rl.slot) + 1))) ∧
  (∀ (pt st g : Nat) (p : Part) (s : State), part s pt = some p → mfind s.sync.quiet (pt * 16 + st) = some g →
    g + cfgEff s 8 pt % 2 ^ 14 * 16000000 ≤ (gtcOf s (siteKC st)).toNat → bitN (cfgEff s 8 pt) 14 = true → safeState s 5 pt = false → p.plan = 2 →
    p.named.any (fun q => waitClass (coreAt s q.1) == 9) = false → dieClasses s p st ≠ [] → mfind s.sync.stale (pt * 16 + st) = none →
    (dieClasses s p st).all (fun q => decide (1 ≤ q.2 ∧ q.2 ≤ 8)) = true → (dieClasses s p st).any (fun q => decide (1 ≤ q.2 ∧ q.2 ≤ 5)) = true →
    Leaves (.stalemate pt st) s (fun t => mfind t.sync.stale (pt * 16 + st) = some { classes := dieClasses s p st }))

/-- The descriptor engines complete (spec/02 R66; spec/09 R264, R271, R274, R282): a descriptor is accepted at the hub and takes the next DSEQ of its
pair, its data goes out packet by packet, a hub queue's head leaves with a credit, and a completion value waits at its handle.
Choices of the model that it speaks in: log 2, 16, 27. -/
def Obligations.DescriptorRowsComplete : Prop :=
  (∀ (p : OPkt) (x : Handle) (s : State), FromHub 3 p s → mfind (dieEng s p.dst).handles p.tag = some x → x.comp = none →
    Leaves (.comp p) s (fun t => ∃ y, mfind (dieEng t p.dst).handles p.tag = some y ∧ y.core = x.core ∧ y.tok = x.tok ∧ y.sem = x.sem ∧
      y.queue = x.queue ∧ y.comp = some (BitVec.ofNat 64 (fieldAt p.payload 0 8)))) ∧
  (∀ (p : OPkt) (s : State), FromHub 8 p s → Leaves (.hqcredit p) s (fun t =>
    mget (dieEng t p.dst).credits 0 (bitsN p.arg 8 5) = min 64 (mget (dieEng s p.dst).credits 0 (bitsN p.arg 8 5) + bitsN p.arg 16 8))) ∧
  (∀ (p : OPkt) (pt queue : Nat) (s : State), ToHub 1 p s → bitN p.arg 12 = true → queue = bitsN p.arg 13 5 → hubDesc s (hubKey p.src p.tag) = none →
    p.payload.length = 64 → partOfStack s p.src = some pt → (mget s.fab.hqs {} queue).owner = some pt → (mget s.fab.hqs {} queue).descs.length < 64 →
    Leaves (.desc p) s (fun t =>
      (mget t.fab.hqs {} queue).descs = (mget s.fab.hqs {} queue).descs ++ [(p.src, p.tag, p.payload)])) ∧
  (∀ (p : OPkt) (pt pkg ep : Nat) (s : State), ToHub 1 p s → bitN p.arg 12 = false → hubDesc s (hubKey p.src p.tag) = none → p.payload.length = 64 →
    partOfStack s p.src = some pt → postCheck s pt p.payload = none → ((parseDesc p.payload).op = 1 ∨ (parseDesc p.payload).op = 3) →
    (parseDesc p.payload).len ≠ 0 → translate s (job s pt) (parseDesc p.payload).target = some (pkg, ep) →
    Leaves (.desc p) s (fun t => (∃ d, hubDesc t (hubKey p.src p.tag) = some d ∧ d.dstPkg = pkg ∧ d.dstEp = ep ∧
        d.dseq = mget s.fab.dseq 0 (pkg * 16 + pt) ∧ d.len = (parseDesc p.payload).len ∧ d.done = 0) ∧
      mget t.fab.dseq 0 (pkg * 16 + pt) = (mget s.fab.dseq 0 (pkg * 16 + pt) + 1) % 2 ^ 32)) ∧
  (∀ (p : OPkt) (d : HubDesc) (s : State), ToHub 2 p s → hubDesc s (hubKey p.src p.tag) = some d → (d.op = 1 ∨ d.op = 3) →
    p.addr + p.payload.length ≤ d.len → p.addr % payloadMax s = 0 → d.dstPkg ≠ ownPkg s →
    Leaves (.txdata p) s (fun t => hubDesc t (hubKey p.src p.tag) = some { d with done := d.done + 1 } ∧
      Forwarded { type := 1, dstPkg := d.dstPkg, payload := p.payload } t)) ∧
  (∀ (unit pt q h v : Nat) (x : QDesc) (rest : List QDesc) (fs : List LineFind) (ec : Ecc) (s r : State), unit < 12 → r = settleDie unit s →
    partOfStack r unit = some pt → nextQueue r pt (dieEng r unit) = some (q, x, rest) → mfind (dieEng r unit).cur q = none →
    freeHandle (dieEng r unit) = some h → postCheck r pt x.desc = some v →
    Leaves (.descEngineTurn unit fs ec) s (fun t => mget (dieEng t unit).queues [] q = rest ∧ (dieEng t unit).rot = q ∧
      ∃ hd, mfind (dieEng t unit).handles h = some hd ∧ hd.core = x.core ∧ hd.tok = x.tok ∧ hd.comp = some (BitVec.ofNat 64 v))) ∧
  (∀ (unit pt q h : Nat) (x : QDesc) (rest : List QDesc) (fs : List LineFind) (ec : Ecc) (s r : State), unit < 12 → r = settleDie unit s →
    partOfStack r unit = some pt → nextQueue r pt (dieEng r unit) = some (q, x, rest) → mfind (dieEng r unit).cur q = none →
    freeHandle (dieEng r unit) = some h → postCheck r pt x.desc = none →
    Leaves (.descEngineTurn unit fs ec) s (fun t => Out.packet 7 unit 12 h [1, q, 0] x.desc ∈ t.out ∧ (dieEng t unit).rot = q ∧
      ∃ hd, mfind (dieEng t unit).handles h = some hd ∧ hd.core = x.core ∧ hd.tok = x.tok ∧ hd.comp = none)) ∧
  (∀ (unit pt q h off mask : Nat) (x : QDesc) (rest : List QDesc) (fs : List LineFind) (ec : Ecc) (bs : List Byte) (s r y : State),
    unit < 12 → r = settleDie unit s → partOfStack r unit = some pt → nextQueue r pt (dieEng r unit) = some (q, x, rest) →
    mfind (dieEng r unit).cur q = some (h, off) →
    readRange unit ((parseDesc x.desc).laddr + off) (min (payloadMax r) ((parseDesc x.desc).len - off)) fs ec r = (bs, mask, y) →
    Leaves (.descEngineTurn unit fs ec) s (fun t =>
      Out.packet 7 unit 12 h [2, off, mask, dChan (parseDesc x.desc),
        b2n (decide ((parseDesc x.desc).len ≤ off + min (payloadMax r) ((parseDesc x.desc).len - off)))] bs ∈ t.out ∧ (dieEng t unit).rot = q ∧
      (off + payloadMax r < (parseDesc x.desc).len → mfind (dieEng t unit).cur q = some (h, off + payloadMax r)) ∧
      ((parseDesc x.desc).len ≤ off + min (payloadMax r) ((parseDesc x.desc).len - off) → mget (dieEng t unit).queues [] q = rest))) ∧
  (∀ (unit q die tag pt : Nat) (bs : List Byte) (rest : List (Nat × Nat × List Byte)) (fs : List LineFind) (ec : Ecc) (s : State), 12 ≤ unit → die < 12 →
    hubNext s = some q → (mget s.fab.hqs {} q).descs = (die, tag, bs) :: rest → (mget s.fab.hqs {} q).off = none →
    (mget s.fab.hqs {} q).owner = some pt → ((parseDesc bs).op = 2 ∨ (parseDesc bs).len = 0) →
    Leaves (.descEngineTurn unit fs ec) s (fun t => Out.packet 7 12 die tag [8, q, 1] [] ∈ t.out ∧ (mget t.fab.hqs {} q).descs = rest))

/-- The die's side of arriving fabric traffic and the hub's completes (spec/09 R274, R282, R283): a die answers each packet with the status of its
access, and data stored in a cluster memory is there; at the hub bytes read for another package leave for it, and the completion of the last
packet of a descriptor commits it.
Choices of the model that it speaks in: log 9, 16. -/
def Obligations.ArrivalRowsComplete : Prop :=
  (∀ (p : OPkt) (s : State), FromHub 4 p s → epFenced s p.dst = false →
    Leaves (.rxdata p) s (fun t => Out.packet 5 p.dst 12 p.tag [(dieWrite p.dst p.part p.addr p.payload p.poison (takePkt p s)).1, 0, p.part] [] ∈ t.out)) ∧
  (∀ (p : OPkt) (cl : Nat) (s : State), FromHub 4 p s → epFenced s p.dst = false → p.poison = 0 → CmWritable s p.part cl p.addr p.payload.length →
    lineCut s p.dst p.addr = false →
    Leaves (.rxdata p) s (fun t => Out.packet 5 p.dst 12 p.tag [1, 0, p.part] [] ∈ t.out ∧ getBs t.mem.m p.addr p.payload.length = p.payload)) ∧
  (∀ (p : OPkt) (fs : List LineFind) (ec : Ecc) (s : State), FromHub 5 p s → epFenced s p.dst = false →
    Leaves (.rxsignal p fs ec) s (fun t => Out.packet 5 p.dst 12 p.tag [if lineCut s p.dst p.addr then 4 else
      (signalAt p.part p.addr (fieldAt p.payload 0 8) false fs ec (takePkt p s)).1, 0, p.part] [] ∈ t.out)) ∧
  (∀ (p : OPkt) (cl : Nat) (fs : List LineFind) (s : State), FromHub 5 p s → epFenced s p.dst = false → CmWritable s p.part cl p.addr 8 →
    lineCut s p.dst p.addr = false → badWords (extTake cl (touchCm cl (takePkt p s))).mem.m p.addr 8 [] = [] → p.part ≠ enginePart s →
    Leaves (.rxsignal p fs {}) s (fun t => Out.packet 5 p.dst 12 p.tag [1, 0, p.part] [] ∈ t.out ∧
      getNum t.mem.m p.addr 8 = (getNum (extTake cl (touchCm cl (takePkt p s))).mem.m p.addr 8 + fieldAt p.payload 0 8) % 2 ^ 64)) ∧
  (∀ (p : OPkt) (n mask : Nat) (fs : List LineFind) (ec : Ecc) (q : Part) (bs : List Byte) (s y : State), FromHub 6 p s →
    epFenced s p.dst = false → n = bitsN p.arg 8 16 → n ≤ 4096 → part s p.part = some q → rangeReaches s q false p.addr n = true →
    rangeFenced (takePkt p s) p.dst p.addr n = false → readRange p.dst p.addr n fs ec (takePkt p s) = (bs, mask, y) →
    Leaves (.rxread p fs ec) s (fun t => Out.packet 7 p.dst 12 p.tag [7, 0, mask] bs ∈ t.out)) ∧
  (∀ (p : OPkt) (pkg pt jobId dseq pkt npkt off ep a : Nat) (s : State), ToHub 7 p s →
    mfind s.fab.works p.tag = some (.read pkg pt jobId dseq pkt npkt off ep a p.payload.length) → pkg ≠ ownPkg s →
    Leaves (.rddata p) s (fun t => Forwarded { type := 3, dstPkg := pkg, payload := p.payload } t)) ∧
  (∀ (p : OPkt) (pt jobId dseq pkt npkt off ep a k : Nat) (d : HubDesc) (s : State), ToHub 7 p s →
    mfind s.fab.works p.tag = some (.read (ownPkg s) pt jobId dseq pkt npkt off ep a p.payload.length) →
    s.fab.descs.find? (fun q => q.2.job == jobId && q.2.op == 2 && q.2.dstPkg == ownPkg s && q.2.dseq == dseq) = some (k, d) →
    d.hq = none → d.src < 12 → canAsk s d.src = true →
    Leaves (.rddata p) s (fun t => ∃ tag f, Out.packet 7 12 d.src tag (4 :: (d.laddr + off) :: p.poison :: f) p.payload ∈ t.out)) ∧
  (∀ (p : OPkt) (pkg pt jobId dseq pkt k : Nat) (r : RxDesc) (s : State), PacketTaken 5 p s → p.dst = 12 →
    mfind s.fab.works p.tag = some (.data pkg pt jobId dseq pkt) → pkg ≠ ownPkg s → k = ctxKey pkg pt → (ctxOf s k).low = dseq →
    (ctxOf s k).descs = [(dseq, r)] → r.reads = [] → r.left = none → r.repl = none → r.sig = none → r.got = [] → r.npkt = 1 →
    Leaves (.completion p) s (fun t => (ctxOf t k).low = (dseq + 1) % 2 ^ 32 ∧ (ctxOf t k).descs = [] ∧
      Forwarded { type := 4, dstPkg := pkg } t))

/-- Fabric packets that arrive complete (spec/09 R274, R279, R282 to R286, R297, R298): a packet new to its stream takes its SEQ there and has its effect: data
goes to the die of its endpoint or, for the hub, is stored and commits its descriptor, a read is asked for or performed and answered, a completion ends
its descriptor, a barrier message reaches the partition's combiner, a management message is taken once, and an ACK releases the packets that it covers.
Choices of the model that it speaks in: log 9, 16, 24, 27. -/
def Obligations.FabricPacketRowsComplete : Prop :=
  (∀ (p : FabPkt) (a : Arr) (grp pt k : Nat) (s : State), p.type = 1 → 1 ≤ p.npkt → TakenNew p a s → partOfJob s p.job = some pt → (job s pt).state = 1 →
    bitN p.flags 1 = false → bitN p.flags 2 = false → bitN p.flags 4 = false → epPresent s p.dstEp = true → epFenced s p.dstEp = false →
    canAsk s p.dstEp = true → 2 ≤ p.chan → p.srcPkg ≠ ownPkg s → k = ctxKey p.srcPkg pt → (ctxOf s k).descs = [] → (ctxOf s k).low = p.dseq →
    Leaves (.fabData p a grp) s (fun t => SeqTaken p a s t ∧ (ctxOf t k).low = p.dseq ∧
      ∃ tag, mfind t.fab.works tag = some (.data p.srcPkg pt p.job p.dseq p.pkt) ∧
        Out.packet 7 12 p.dstEp tag [4, p.addr, p.poison, p.chan, p.flags % 2, pt] p.payload ∈ t.out)) ∧
  (∀ (p : FabPkt) (a : Arr) (grp pt cl k : Nat) (s : State), p.type = 1 → TakenNew p a s → partOfJob s p.job = some pt → (job s pt).state = 1 →
    bitN p.flags 1 = false → bitN p.flags 2 = false → bitN p.flags 4 = false → p.dstEp = 12 → epFenced s 12 = false → lineCut s 12 p.addr = false →
    2 ≤ p.chan → p.npkt = 1 → p.srcPkg ≠ ownPkg s → k = ctxKey p.srcPkg pt → (ctxOf s k).descs = [] → (ctxOf s k).low = p.dseq → p.poison = 0 →
    CmWritable s pt cl p.addr p.payload.length → EngineSettled s →
    Leaves (.fabData p a grp) s (fun t => SeqTaken p a s t ∧ getBs t.mem.m p.addr p.payload.length = p.payload ∧
      (ctxOf t k).low = (p.dseq + 1) % 2 ^ 32 ∧ Forwarded { type := 4, dstPkg := p.srcPkg } t)) ∧
  (∀ (p : FabPkt) (a : Arr) (pt k : Nat) (q : Part) (s : State), p.type = 2 → TakenNew p a s → partOfJob s p.job = some pt →
    (job s pt).state = 1 → bitN p.flags 2 = false → bitN p.flags 4 = false → epPresent s p.dstEp = true → epFenced s p.dstEp = false → 2 ≤ p.chan →
    p.npkt = 1 → p.srcPkg ≠ ownPkg s → k = ctxKey p.srcPkg pt → (ctxOf s k).descs = [] → (ctxOf s k).low = p.dseq → part s pt = some q →
    0 < p.arg → p.arg ≤ 1024 → rangeReaches s q false p.addr p.arg = true → rangeFenced s p.dstEp p.addr p.arg = false →
    Leaves (.fabRead p a) s (fun t => SeqTaken p a s t ∧
      (canAsk s p.dstEp = true → ∃ tag, mfind t.fab.works tag = some (.read p.srcPkg pt p.job p.dseq 0 1 0 p.dstEp p.addr p.arg) ∧
        Out.packet 7 12 p.dstEp tag [6, p.addr, p.arg, p.chan] [] ∈ t.out) ∧
      (p.dstEp = 12 → (ctxOf t k).low = (p.dseq + 1) % 2 ^ 32 ∧ Forwarded { type := 4, dstPkg := p.srcPkg } t))) ∧
  (∀ (p : FabPkt) (a : Arr) (k : Nat) (d : HubDesc) (s : State), p.type = 3 → TakenNew p a s → bitN p.flags 4 = false →
    s.fab.descs.find? (fun q => q.2.job == p.job && q.2.op == 2 && q.2.dstPkg == p.srcPkg && q.2.dseq == p.dseq) = some (k, d) →
    (d.hq = none → d.src < 12 → canAsk s d.src = true → Leaves (.fabReadData p a) s (fun t => SeqTaken p a s t ∧
      ∃ tag, mfind t.fab.works tag = some (.got k p.payload.length) ∧
        Out.packet 7 12 d.src tag [4, d.laddr + p.addr, p.poison, 3, p.flags % 2, d.pt] p.payload ∈ t.out)) ∧
    ((d.hq.isSome = true ∨ 12 ≤ d.src) → d.localDone = false → Leaves (.fabReadData p a) s (fun t => SeqTaken p a s t ∧
      ∃ e, hubDesc t k = some e ∧ e.done = d.done + p.payload.length ∧
        e.status = joinStatus d.status (dieWrite 12 d.pt (d.laddr + p.addr) p.payload p.poison s).1))) ∧
  (∀ (p : FabPkt) (a : Arr) (k : Nat) (d : HubDesc) (s : State), p.type = 4 → TakenNew p a s → bitN p.flags 4 = false →
    s.fab.descs.find? (fun q => q.2.job == p.job && ((q.2.op != 4 && q.2.dstPkg == p.srcPkg && q.2.dseq == p.dseq) ||
      (q.2.op == 4 && mfind q.2.waitFor p.srcPkg == some p.dseq))) = some (k, d) → (d.op = 1 ∨ d.op = 3) →
    joinStatus (p.arg % 16) d.status = p.arg % 16 →
    Leaves (.fabComplete p a) s (fun t => SeqTaken p a s t ∧ hubDesc t k = none ∧ (d.src < 12 →
      Out.packet 7 12 d.src d.tag [3, p.arg % 2 ^ 64] (leBytes 8 (p.arg % 2 ^ 64)) ∈ t.out))) ∧
  (∀ (p : FabPkt) (a : Arr) (pt slot k : Nat) (sense : Bool) (q : Part) (g : GroupEnt) (s : State), p.type = 6 → TakenNew p a s →
    partOfJob s p.job = some pt → (job s pt).state = 1 → bitN p.flags 4 = false → part s pt = some q →
    groupOf s pt (fieldAt p.payload 10 2) = some g → fieldAt p.payload 0 1 = 1 → slot = fieldAt p.payload 1 1 % 16 →
    sense = bitN (fieldAt p.payload 2 1) 0 → (g.children.map (·.1)).contains p.srcPkg = true → k = combKey pt .fabric 0 slot sense →
    (combOf s k).skip.contains p.srcPkg = false → (combOf s k).cfg = none → barrierPayloadBad p.payload = false →
    Leaves (.fabBarrier p a) s (fun t => SeqTaken p a s t ∧ (combOf t k).arrived = addOnce (combOf s k).arrived p.srcPkg)) ∧
  (∀ (p : FabPkt) (a : Arr) (m : FmMsg) (n : Nat) (ms : List Nat) (s : State), p.type = 7 → TakenNew p a s →
    s.mp.running = true → s.pkg.recovery = false → m.payload.length ≤ 4096 →
    ¬ (0x0810 ≤ (reqOf (.fm m.srcPkg m.fmSeq) m.words m.payload).1 ∧ (reqOf (.fm m.srcPkg m.fmSeq) m.words m.payload).1 ≤ 0x0811) →
    fmSender s m = true → seqTake s.pod.fmNewest s.pod.fmMarks m.fmSeq = some (n, ms) →
    Leaves (.fabMgmt p a m false) s (fun t => SeqTaken p a s t ∧ t.pod.fmNewest = some n ∧ t.pod.fmMarks = ms)) ∧
  (∀ (p : FabPkt) (a : Arr) (cum sack stream : Nat) (s : State), p.type = 5 → a.port < 16 → (portOf s a.port).mode ≠ 0 →
    (portOf s a.port).link = true → frameBad p a s = false → p.payload.length = 1032 → fieldAt p.payload 6 1 = stream → stream < 2 →
    fieldAt p.payload 7 1 = 0 →
    p.seq = 0 → cum = fieldAt p.payload 0 4 → sack = fieldAt p.payload 8 1024 → (peerOf s p.srcPkg).waiting = [] →
    (s.pod.podState = 0 ∨ (peerOf s p.srcPkg).failed = false) →
    Leaves (.fabAck p a) s (fun t => (peerOf t p.srcPkg).failed = false ∧
      ∃ l, (unackedOf (peerOf t p.srcPkg) stream).map (·.p.seq) =
        ((unackedOf (peerOf s p.srcPkg) stream).filter (fun u => !covered cum sack u.p.seq)).map (·.p.seq) ++ l)) ∧
  (∀ (pkg stream z : Nat) (s : State), stream < 2 → (rxOf (peerOf s pkg) stream).since = some z → z + 1000 ≤ s.now →
    (∀ (port : Nat), portNow s { type := 5, chan := 3, srcPkg := ownPkg s, dstPkg := pkg, payload := ackBytes (rxOf (peerOf s pkg) stream) stream } = some port →
      Leaves (.ackSendTimeout pkg stream) s (fun t =>
        rxOf (peerOf t pkg) stream = { rxOf (peerOf s pkg) stream with ce := 0, arrivals := 0, since := none, due := false } ∧
        Forwarded { type := 5, dstPkg := pkg, payload := ackBytes (rxOf (peerOf s pkg) stream) stream } t)) ∧
    (portNow s { type := 5, chan := 3, srcPkg := ownPkg s, dstPkg := pkg, payload := ackBytes (rxOf (peerOf s pkg) stream) stream } = none →
      Leaves (.ackSendTimeout pkg stream) s (fun t => rxOf (peerOf t pkg) stream = { rxOf (peerOf s pkg) stream with due := true })))

/-- The rows of the fabric's senders and ports complete (spec/09 R281, R286 to R292, R304): a packet is sent again until its ninth expiry, which marks the
path FAILED; a FAILED path is probed; the rate rises; a pause is honoured; frames leave; a port drains, loses and regains its link; and a
telemetry record is kept among the newest 4,096.
Choices of the model that it speaks in: log 2, 11, 16. -/
def Obligations.FabricPortRowsComplete : Prop :=
  (∀ (pkg stream seq : Nat) (u : Unacked) (s : State), (unackedOf (peerOf s pkg) stream).find? (fun u => u.p.seq == seq) = some u →
    (peerOf s pkg).failed = false → u.held = false → mgmtStopped s stream = false → u.sentAt + ackTimer s ≤ s.now →
    (∀ (port : Nat), u.tries < 8 → rateHeld s (peerOf s pkg) (classOf u.p) = false → port ∈ portsFor s pkg →
      classOpen (portOf s port) (classOf u.p) = true → Leaves (.retransmitTimeout pkg stream seq) s (fun t => (peerOf t pkg).failed = false ∧
        ∃ v, v ∈ unackedOf (peerOf t pkg) stream ∧ v.p = (reread u.p s).1 ∧ v.tries = u.tries + 1 ∧ v.sentAt = s.now)) ∧
    (u.tries < 8 → portsFor s pkg ≠ [] → (∀ k, k ∈ portsFor s pkg → classOpen (portOf s k) (classOf u.p) = false) →
      Leaves (.retransmitTimeout pkg stream seq) s (fun t => ∃ v, v ∈ unackedOf (peerOf t pkg) stream ∧ v.p = u.p ∧ v.tries = u.tries ∧ v.held = true)) ∧
    (8 ≤ u.tries → (s.pod.podState = 0 ∨ s.pod.role ≠ 1) → Leaves (.retransmitTimeout pkg stream seq) s (fun t =>
      (peerOf t pkg).failed = true ∧ unackedOf (peerOf t pkg) stream = unackedOf (peerOf s pkg) stream))) ∧
  (∀ (pkg i port : Nat) (u : Unacked) (s : State), (peerOf s pkg).failed = true → (∀ x, (peerOf s pkg).probeAt = some x → x + 1000000 ≤ s.now) →
    oldestOf (peerOf s pkg) (if mgmtStopped s 1 then [0] else [0, 1]) = some (i, u) → rateHeld s (peerOf s pkg) (classOf u.p) = false →
    port ∈ portsFor s pkg → classOpen (portOf s port) (classOf u.p) = true → Leaves (.pathProbe pkg) s (fun t => (peerOf t pkg).failed = true ∧
      (peerOf t pkg).probeAt = some s.now ∧ ∃ v, v ∈ unackedOf (peerOf t pkg) i ∧ v.p = (reread u.p s).1 ∧ v.tries = u.tries + 1)) ∧
  (∀ (pkg : Nat) (s : State), (peerOf s pkg).ceAt + 10000 ≤ s.now → Leaves (.rateIncrease pkg) s (fun t => (peerOf t pkg).rate = min 25600000 ((peerOf s pkg).rate + 256000))) ∧
  (∀ (port prio : Nat) (s : State), port < 16 → prio < 7 → pfcEn s prio = true → Leaves (.pfcPauseReceived port prio true) s (fun t =>
    bitN (portOf t port).paused prio = true)) ∧
  (∀ (port prio : Nat) (s : State), port < 16 → prio < 7 → pfcEn s prio = true → Leaves (.pfcPauseReceived port prio false) s (fun t =>
    bitN (portOf t port).paused prio = false)) ∧
  (∀ (port prio : Nat) (pause : Bool) (s : State), port < 16 → prio < 8 → (pfcEn s prio = false ∨ prio = 7) →
    Leaves (.pfcPauseReceived port prio pause) s (fun t => portOf t port = portOf s port)) ∧
  (∀ (port : Nat) (q : Nat × Nat) (s : State), (portOf s port).queue.find? (fun q => !bitN (portOf s port).paused (prioOf q.1)) = some q →
    (portOf s port).link = true → EngineSettled s → Leaves (.egressFrameSent port) s (fun t =>
      (∃ l, (portOf t port).queue = (portOf s port).queue.erase q ++ l) ∧ (mget t.fab.tel {} port).tx = (mget s.fab.tel {} port).tx + q.2)) ∧
  (∀ (port since cause : Nat) (s : State), (portOf s port).draining = some (since, cause) →
    ((portOf s port).queue = [] ∨ since + 50000 ≤ s.now) → Leaves (.drainComplete port) s (fun t =>
    (portOf t port).draining = none ∧ (portOf t port).drained = true ∧ (portOf t port).link = false ∧ (portOf t port).queue = [])) ∧
  (∀ (port : Nat) (s : State), (portOf s port).link = true → Leaves (.ethLinkDown port) s (fun t =>
    (portOf t port).link = false ∧ (portOf t port).queue = [])) ∧
  (∀ (port : Nat) (s : State), port < 16 → (portOf s port).mode ≠ 0 → (portOf s port).link = false → s.pkg.power < 2 →
    ((portOf s port).drained = false ∨ (portOf s port).drainCause = 1) → (mget s.pho.cws {} port).failed = false → Leaves (.ethLinkUp port) s (fun t =>
      (portOf t port).link = true ∧ (portOf t port).drained = false)) ∧
  (∀ (port : Nat) (s : State), running s = true → port < 16 → (∀ x, (mget s.fab.tel {} port).lastAt = some x → x + 1000000 ≤ s.now) →
    Leaves (.telemetryRecord port) s (fun t =>
    (mget t.fab.tel {} port).tx = 0 ∧ (mget t.fab.tel {} port).rx = 0 ∧ ∃ l, (mget t.fab.tel {} port).ring = l ++ [telBytes port s])) ∧
  (∀ (id cause : Nat) (l : List Nat) (j : MgrJob) (s : State), mgrJob s id = some j → j.tearing = some (cause, l) → mgrActs s = true → j.tearAt + 10000000 ≤ s.now →
    Leaves (.teardownReportTimeout id) s (fun t => mgrJob t id = none))

/-- The worker commands complete (spec/09 R265 to R267, R293, R295, R299, R300, R305; spec/12 R368, R369): the tables take the entries, a job's record is
set, activated and torn down, the fence table takes a generation that advances by one and is in doubt after any other, and the rest
of the pod's state follows.
Choices of the model that it speaks in: log 17, 24, 25. -/
def Obligations.WorkerCommandsComplete : Prop :=
  (∀ (r : Req) (e : AddrEnt) (s : State), Reaches 0x0800 r s → parseAddr ((List.range 8).flatMap (fun i => leBytes 4 (argN r (1 + i)))) = some e →
    Leaves (.fabAddrWrite r) s (fun t => mfind t.fab.addrs (argN r 0 % 2 ^ 16) = some e ∧ AnsweredOk 0x0800 r [] s t)) ∧
  (∀ (r : Req) (s : State), Reaches 0x0801 r s → argN r 1 ≠ 0 → argN r 1 ≤ 1024 → argN r 0 + argN r 1 ≤ 2 ^ 20 →
    r.payload.length = 4 * argN r 1 → Leaves (.fabRankWrite r) s (fun t => AnsweredOk 0x0801 r [] s t ∧ ∀ i, i < argN r 1 →
      mfind (if rankHeld s (argN r 0 + i) then t.fab.heldRanks else t.fab.ranks) (argN r 0 + i) =
        some (BitVec.ofNat 32 (fieldAt r.payload (4 * i) 4) &&& 0xFFFF801F#32))) ∧
  (∀ (r : Req) (gs : List GroupEnt) (s : State), Reaches 0x0802 r s → argN r 1 ≠ 0 → argN r 1 ≤ 28 → argN r 0 + argN r 1 ≤ 16384 →
    r.payload.length = 144 * argN r 1 → gs.length = argN r 1 →
    (∀ i, i < argN r 1 → parseGroup ((r.payload.drop (144 * i)).take 144) = some (gs.getD i {})) →
    Leaves (.fabGroupWrite r) s (fun t => AnsweredOk 0x0802 r [] s t ∧ ∀ i, i < argN r 1 →
      mfind t.fab.groups (argN r 0 + i) = some (gs.getD i {}))) ∧
  (∀ (r : Req) (s : State), Reaches 0x0803 r s → argN r 0 ≠ 0 → argN r 1 ≤ 11 → argN r 3 ≠ 0 → argN r 2 + argN r 3 ≤ 2 ^ 20 →
    argN r 4 + argN r 5 ≤ 16384 → argN r 6 ≠ 0 → argN r 6 ≤ 65536 → (part s (argN r 1)).isSome = true → holdsJob s (argN r 1) = false →
    peersSum s + argN r 6 ≤ 131072 → Leaves (.fabJobSet r) s (fun t => AnsweredOk 0x0803 r [] s t ∧ job t (argN r 1) =
      { id := argN r 0, rankBase := argN r 2, rankCount := argN r 3, groupBase := argN r 4, groupCount := argN r 5, peers := argN r 6,
        epoch := argN r 7, state := 0, written := true })) ∧
  (∀ (r : Req) (pt : Nat) (s : State), Reaches 0x0804 r s → partOfJob s (argN r 0) = some pt → (job s pt).written = true →
    Leaves (.fabJobActivate r) s (fun t => AnsweredOk 0x0804 r [] s t ∧ job t pt = { job s pt with state := 1, written := false })) ∧
  (∀ (r : Req) (pt : Nat) (s : State), Reaches 0x0805 r s → partOfJob s (argN r 0) = some pt → ((job s pt).state ≠ 0 ∨ (job s pt).written = true) →
    Leaves (.fabTeardown r) s (fun t => AnsweredOk 0x0805 r [1] s t ∧ job t pt = {})) ∧
  (∀ (r : Req) (s : State), Reaches 0x0805 r s → partOfJob s (argN r 0) = none →
    Leaves (.fabTeardown r) s (fun t => AnsweredOk 0x0805 r [1] s t ∧ t.jobs = s.jobs)) ∧
  (∀ (r : Req) (s : State), Reaches 0x0806 r s → argN r 0 = (s.fab.fence.gen.toNat + 1) % 2 ^ 32 → bitN (argN r 1) 16 = true →
    Leaves (.fabFence r) s (fun t => AnsweredOk 0x0806 r [] s t ∧ t.fab.fence.gen = s.fab.fence.gen + 1 ∧
      t.fab.fence.pkgs.contains (argN r 1 % 2 ^ 16) = !bitN (argN r 1) 17)) ∧
  (∀ (r : Req) (s : State), Reaches 0x0806 r s → argN r 0 = (s.fab.fence.gen.toNat + 1) % 2 ^ 32 → bitN (argN r 1) 16 = false →
    argN r 1 % 2 ^ 16 = ownPkg s → bitN (argN r 1) 17 = false → Leaves (.fabFence r) s (fun t => AnsweredOk 0x0806 r [] s t ∧
      t.fab.fence.eps = s.fab.fence.eps ||| argN r 2 % 2 ^ 13)) ∧
  (∀ (r : Req) (s : State), Reaches 0x0806 r s → argN r 0 ≠ (s.fab.fence.gen.toNat + 1) % 2 ^ 32 → argN r 0 ≠ s.fab.fence.gen.toNat →
    Leaves (.fabFence r) s (fun t => AnsweredOk 0x0806 r [] s t ∧ t.fab.fence.doubt = true)) ∧
  (∀ (r : Req) (s : State), Reaches 0x0807 r s → Leaves (.fabEpoch r) s (fun t => AnsweredOk 0x0807 r [] s t ∧
    t.fab.epoch = BitVec.ofNat 32 (argN r 0))) ∧
  (∀ (r : Req) (s : State), Reaches 0x0808 r s → argN r 0 ≤ 4 → Leaves (.fabPodState r) s (fun t => AnsweredOk 0x0808 r [] s t ∧
    t.pod.podState = argN r 0)) ∧
  (∀ (r : Req) (s : State), Reaches 0x080B r s → Leaves (.fabDrainNotice r) s (AnsweredOk 0x080B r [] s)) ∧
  (∀ (r : Req) (s : State), Reaches 0x0809 r s → Leaves (.fabHeartbeat r) s (fun t => AnsweredOk 0x0809 r [healthW s, coresW s] s t ∧
    t.pod.lastHeartbeat = some s.now ∧ t.pod.managerLost = false)) ∧
  (∀ (r : Req) (pkg q : Nat) (s : State), Reaches 0x080A r s → r.chan = .fm pkg q → mapsOpen s = true → Leaves (.fabMapReq r) s (fun t =>
    Out.answer r.chan (answerWords 0x080A r.tag stOK (detailOf s 0) 0 []) (congestionMap s) ∈ t.out)) ∧
  (∀ (pkg gen eps : Nat) (pkgs : List Nat) (s : State), s.pod.role ≠ 1 → s.fab.fence.doubt = true →
    Leaves (.fenceBitmapResend pkg gen eps pkgs) s (fun t =>
      t.fab.fence = { pkgs := pkgs, eps := eps % 2 ^ 13, gen := BitVec.ofNat 32 gen, doubt := false })) ∧
  (∀ (pkg gen eps : Nat) (pkgs : List Nat) (s : State), s.pod.role = 1 → mgrActs s = true → s.pod.outstanding.length < 256 →
    s.pod.waitSend = [] → Leaves (.fenceBitmapResend pkg gen eps pkgs) s (fun t => Out.worker pkg s.pod.ownFmSeq.toNat 0x0806 [s.fab.fence.gen.toNat, 0, 0]
      (fmWire s s.pod.ownFmSeq.toNat 0x0806 [s.fab.fence.gen.toNat, 0, 0] (s.fab.fence.pkgs.flatMap (fun p => leBytes 2 p))) ∈ t.out))

/-- The pod and job rows complete (spec/09 R299 to R302, R305; spec/12 R370, R375, R377, R489): reports at the manager, the pod's membership, epoch and state,
the launch and the end of a job.
Choices of the model that it speaks in: log 17, 24 to 26. -/
def Obligations.PodAndJobRowsComplete : Prop :=
  (∀ (r : Req) (s : State), Reaches 0x0810 r s → bitN (argN r 3) 0 = true → 5 ≤ mget s.pod.missed 0 (argN r 0) → mgrActs s = true →
    argN r 0 ≠ ownPkg s → argN r 0 < 2 ^ 16 →
    Leaves (.fabPathReport r) s (fun t => AnsweredOk 0x0810 r [] s t ∧ t.fab.fence.pkgs.contains (argN r 0) = true)) ∧
  (∀ (r : Req) (s : State), Reaches 0x0810 r s → (bitN (argN r 3) 0 = false ∨ mget s.pod.missed 0 (argN r 0) < 5) →
    Leaves (.fabPathReport r) s (fun t => AnsweredOk 0x0810 r [] s t ∧ t.fab.fence = s.fab.fence)) ∧
  (∀ (r : Req) (s : State), Reaches 0x0811 r s → (mgrJob s (argN r 0)).isSome = true → Leaves (.jobEndFwd r) s (fun t =>
    AnsweredOk 0x0811 r [] s t ∧ ∀ j, mgrJob t (argN r 0) = some j → j.tearing.isSome = true)) ∧
  (∀ (r : Req) (fs : List LineFind) (bs : List Byte) (z s : State), Reaches 0x0700 r s → TicketFree s → s.pod.role = 1 →
    bufIn s (addrArg r 1) (argN r 3) = true → bufRead (addrArg r 1) (argN r 3) fs (begun 0x0700 r s) = (.data bs, z) → podCheck bs = none →
    Leaves (.podForm r fs) s (fun t => Accepted 0x0700 r s t ∧ t.pod.podState = 1 ∧ t.pod.podId = BitVec.ofNat 16 (argN r 0) ∧
      t.pod.members = (podEntries bs).map (·.1) ∧ t.fab.epoch = s.fab.epoch + 1)) ∧
  (∀ (r : Req) (fs : List LineFind) (bs : List Byte) (z s : State), Reaches 0x0703 r s → TicketFree s → s.pod.role = 1 →
    bufIn s (addrArg r 1) 48 = true → bufRead (addrArg r 1) 48 fs (begun 0x0703 r s) = (.data bs, z) → podCheck bs = none →
    Leaves (.capAdd r fs) s (fun t => Accepted 0x0703 r s t ∧ t.pod.members = addOnce s.pod.members (argN r 0) ∧
      t.fab.epoch = s.fab.epoch + 1)) ∧
  (∀ (r : Req) (s : State), Reaches 0x0704 r s → TicketFree s → s.pod.role = 1 → s.pod.members.contains (argN r 0 % 2 ^ 16) = true →
    bitN (argN r 0) 21 = true → s.fab.mgr.jobs.any (fun q => ranksThere q.2 (argN r 0 % 2 ^ 16) none) = false →
    Leaves (.capRemove r) s (fun t => Accepted 0x0704 r s t ∧ t.pod.members.contains (argN r 0 % 2 ^ 16) = false)) ∧
  (∀ (r : Req) (s : State), Reaches 0x0705 r s → TicketFree s → argN r 0 ≤ 4 → s.pod.role = 1 → Leaves (.podState r) s (fun t =>
    Accepted 0x0705 r s t ∧ t.pod.podState = argN r 0)) ∧
  (∀ (r : Req) (s : State), Reaches 0x0706 r s → TicketFree s → s.pod.role = 1 → bufIn s (addrArg r 1) 1536 = true → mapsOpen s = true →
    argN r 0 ≠ ownPkg s → s.pod.members.contains (argN r 0) = true → mgrActs s = true →
    s.pod.outstanding.length < 256 → s.pod.waitSend = [] → Leaves (.fabMap r) s (fun t => Accepted 0x0706 r s t ∧
      Out.worker (argN r 0) s.pod.ownFmSeq.toNat 0x080A [] (fmWire s s.pod.ownFmSeq.toNat 0x080A [] []) ∈ t.out)) ∧
  (∀ (r : Req) (z s : State), Reaches 0x0706 r s → TicketFree s → s.pod.role = 1 → bufIn s (addrArg r 1) 1536 = true → mapsOpen s = true →
    argN r 0 = ownPkg s → bufWrite (addrArg r 1) (congestionMap s) (begun 0x0706 r s) = (none, z) →
    Leaves (.fabMap r) s (Accepted 0x0706 r s)) ∧
  (∀ (r : Req) (fs : List LineFind) (bs : List Byte) (d : JobDesc) (self : Bool) (rb gb : Nat) (y z s : State), Reaches 0x0701 r s → TicketFree s →
    bufIn s (addrArg r 0) (argN r 2) = true → argN r 2 ≠ 0 → bufRead (addrArg r 0) (argN r 2) fs (begun 0x0701 r s) = (.data bs, z) →
    parseJob bs = .inl d → self = (s.pod.podState == 0 && (rankPkgs d.ranks).all (fun p => p == ownPkg s)) →
    y = (if self then writeAddr 0 { valid := true, epoch := z.fab.epoch.toNat } z else z) →
    (self = true ∨ s.pod.podState = 3 ∧ s.pod.role = 1) → (rankPkgs d.ranks).any (fun p => (addrOf y p).isNone) = false →
    (∀ m, m ∈ d.members → m % 2 ^ 16 = ownPkg s → (part s (bitsN m 16 4)).isSome = true ∧ holdsJob s (bitsN m 16 4) = false) →
    peersSum s + d.members.length ≤ 131072 →
    firstFit (2 ^ 20) d.ranks.length (s.fab.mgr.jobs.map (fun q => (q.2.rankBase, q.2.rankCount))) = some rb →
    firstFit 16384 d.groups.length (s.fab.mgr.jobs.map (fun q => (q.2.groupBase, q.2.groupCount))) = some gb →
    Leaves (.jobLaunch r fs) s (fun t => Accepted 0x0701 r s t ∧
      t.fab.mgr.nextJob = if s.fab.mgr.nextJob + 1 < 2 ^ 32 then s.fab.mgr.nextJob + 1 else 1)) ∧
  (∀ (r : Req) (s : State), Reaches 0x0702 r s → TicketFree s → (mgrJob s (argN r 0)).isSome = true → mgrActs s = true →
    Leaves (.jobEnd r) s (fun t => Accepted 0x0702 r s t ∧ ∀ j, mgrJob t (argN r 0) = some j → j.tearing.isSome = true)) ∧
  (∀ (r : Req) (s : State), Reaches 0x0702 r s → TicketFree s → mgrJob s (argN r 0) = none → (partOfJob s (argN r 0)).isSome = true →
    s.pod.role ≠ 1 → s.pod.podState ≠ 0 → Leaves (.jobEnd r) s (fun t => Accepted 0x0702 r s t ∧
      Out.worker s.pod.managerPkg.toNat s.pod.ownFmSeq.toNat 0x0811 [argN r 0, chanCode r.chan, r.tag]
        (fmWire s s.pod.ownFmSeq.toNat 0x0811 [argN r 0, chanCode r.chan, r.tag] []) ∈ t.out))

/-- The manager's role and the Ethernet port commands complete (spec/09 R277, R281; spec/12 R376; spec/14 R417 to R419): heartbeats go to every member, a
silent one is fenced, the lease ends, the role is taken and returned, and a port is configured, drained and returned.
Choices of the model that it speaks in: log 2, 16, 26. -/
def Obligations.ManagerRowsComplete : Prop :=
  (∀ (p : Nat) (s : State), s.pod.role = 1 → s.pod.podState ≠ 0 → leaseLive s = true → s.mp.running = true →
    (∀ x, s.pod.hbSentAt = some x → x + 1000000 ≤ s.now) →
    (∀ m, m ∈ addOnce s.pod.members s.pod.standbyPkg.toNat → mget s.pod.missed 0 m < 5) →
    p ∈ addOnce s.pod.members s.pod.standbyPkg.toNat → p ≠ ownPkg s → s.fab.fence.pkgs.contains p = false →
    s.pod.outstanding.length + s.pod.waitSend.length + (addOnce s.pod.members s.pod.standbyPkg.toNat).length ≤ 256 →
    Leaves .fmHeartbeatSend s (fun t => ∃ q w, Out.worker p q 0x0809 [s.pod.fmTerm.toNat] w ∈ t.out)) ∧
  (∀ (p : Nat) (s : State), s.pod.role = 1 → s.pod.podState ≠ 0 → leaseLive s = true → s.mp.running = true →
    (∀ x, s.pod.hbSentAt = some x → x + 1000000 ≤ s.now) →
    p ∈ addOnce s.pod.members s.pod.standbyPkg.toNat → p ≠ ownPkg s → p < 2 ^ 16 → 5 ≤ mget s.pod.missed 0 p →
    (∀ m, m ∈ addOnce s.pod.members s.pod.standbyPkg.toNat → m ≠ p → mget s.pod.missed 0 m < 5) →
    Leaves .fmHeartbeatSend s (fun t => t.fab.fence.pkgs.contains p = true)) ∧
  (∀ (s : State), s.pod.role = 1 → leaseLive s = false → Leaves .fmLeaseExpiry s (fun t => t.pod.leaseHeld = false)) ∧
  (∀ (held : List HeldCmd) (s : State), s.pod.role = 2 → s.mp.running = true → managerSilent s = true →
    Leaves (.fmTakeover held) s (fun t => t.pod.role = 1 ∧ t.pod.fmTerm = s.pod.fmTerm + 1 ∧ t.pod.managerPkg = s.pod.pkgId ∧
      t.pod.standbyPkg = s.pod.managerPkg)) ∧
  (∀ (s : State), s.pod.role = 2 → s.mp.running = true → s.pod2.formerManager = true → s.pod2.noReturn = false →
    readyToReturn s = true →
    Leaves .fmReturn s (fun t => t.pod.role = 1 ∧ t.pod.fmTerm = s.pod.fmTerm + 1 ∧ t.pod2.formerManager = false)) ∧
  (∀ (r : Req) (s : State), Reaches 0x0503 r s → bitsN (argN r 0) 4 2 ≠ 3 → Leaves (.ethPortCfg r) s (fun t => AnsweredOk 0x0503 r [] s t ∧
    (portOf t (argN r 0 % 16)).mode = bitsN (argN r 0) 4 2 ∧
    (portOf t (argN r 0 % 16)).nextHop = BitVec.ofNat 48 (argN r 1 + 2 ^ 32 * (argN r 2 % 2 ^ 16)) ∧
    (bitsN (argN r 0) 4 2 ≠ (portOf s (argN r 0 % 16)).mode → (portOf t (argN r 0 % 16)).link = false))) ∧
  (∀ (r : Req) (s : State), Reaches 0x0504 r s → bitN (argN r 0) 8 = false → (portOf s (argN r 0 % 16)).draining = none →
    (portOf s (argN r 0 % 16)).drained = false → Leaves (.ethPortDrain r) s (fun t => AnsweredOk 0x0504 r [] s t ∧
      (portOf t (argN r 0 % 16)).draining = some (s.now, 0))) ∧
  (∀ (r : Req) (s : State), Reaches 0x0504 r s → bitN (argN r 0) 8 = true →
    ((portOf s (argN r 0 % 16)).draining.isSome = true ∨ (portOf s (argN r 0 % 16)).drained = true) →
    Leaves (.ethPortDrain r) s (fun t => AnsweredOk 0x0504 r [] s t ∧ (portOf t (argN r 0 % 16)).draining = none ∧
      (portOf t (argN r 0 % 16)).drained = false))

/-- The rows that look after the memories complete (spec/04 R118 to R123, R126, R132 to R137, R490): the scrubbers and the patrol advance, a vertical
channel's beats are replayed and its lanes tested, and rows and channels of HBM4 are spared or fenced.
Choices of the model that it speaks in: log 2, 9, 28. -/
def Obligations.MemoryUpkeepRowsComplete : Prop :=
  (∀ (kind unit : Nat) (corr : Bool) (s : State), kind ≤ 2 →
    isPoison s.mem.m (arrayBase kind unit + 8 * (mget s.mem.scrubs {} (scrubKey kind unit)).pos) = false →
    Leaves (.sramScrub kind unit corr false) s (fun t => (mget t.mem.scrubs {} (scrubKey kind unit)).pos =
      if arrayWords kind ≤ (mget s.mem.scrubs {} (scrubKey kind unit)).pos + 1 then 0 else (mget s.mem.scrubs {} (scrubKey kind unit)).pos + 1)) ∧
  (∀ (kind unit : Nat) (corr : Bool) (s : State), kind ≤ 1 → unit < 1536 → (mget s.mem.scrubs {} (scrubKey kind unit)).pos < arrayWords kind →
    mfind s.mem.lastBad unit = none → Leaves (.sramScrub kind unit corr true) s (fun t => mfind t.mem.lastBad unit = some s.now)) ∧
  (∀ (kind unit : Nat) (s : State), kind ≤ 2 → Leaves (.sramScrubTimeout kind unit) s (fun t =>
    (mget t.mem.scrubs {} (scrubKey kind unit)).slow = true)) ∧
  (∀ (p : Nat) (again : Bool) (s : State), (vcOf s p).state ≠ 3 → (vcOf s p).testing = false →
    ((if again then (vcOf s p).tries + 1 else 1) ≤ 3 → Leaves (.vcBeatReplay p again) s (fun t =>
      (vcOf t p).tries = (if again then (vcOf s p).tries + 1 else 1) ∧ (vcOf t p).replays.head? = some s.now)) ∧
    (again = true → 3 ≤ (vcOf s p).tries → Leaves (.vcBeatReplay p again) s (fun t => (vcOf t p).due = true))) ∧
  (∀ (p : Nat) (s : State), (vcOf s p).due = true → (vcOf s p).state ≠ 3 → Leaves (.laneTest p) s (fun t =>
    (vcOf t p).testing = true ∧ (vcOf t p).due = false)) ∧
  (∀ (p : Nat) (ctrl : Bool) (failed : List Nat) (spare : LaneFind) (s : State), (vcOf s p).testing = true →
    (ctrl = true → isFenced s p = false → Leaves (.laneTestDone p ctrl failed spare) s (fun t => (vcOf t p).state = 3 ∧ mfind t.cores.fenced p = some 1)) ∧
    (ctrl = false → (∀ i, i < 8 → failed.getD i 0 = 0) → Leaves (.laneTestDone p ctrl failed spare) s (fun t =>
      vcOf t p = { vcOf s p with testing := false })) ∧
    (ctrl = false → (vcOf s p).state < 2 → (∃ i, i < 8 ∧ failed.getD i 0 ≠ 0) →
      (∀ i, i < 8 → failed.getD i 0 ≤ (vcOf s p).spares.getD i 0) →
      Leaves (.laneTestDone p ctrl failed spare) s (fun t => (vcOf t p).state = 1 ∧
        (vcOf t p).spares = (List.range 8).map (fun i => (vcOf s p).spares.getD i 0 - failed.getD i 0))) ∧
    (ctrl = false → (vcOf s p).state < 2 → (∃ i, i < 4 ∧ (vcOf s p).spares.getD i 0 < failed.getD i 0) →
      (∀ i, i < 8 → 4 ≤ i → failed.getD i 0 ≤ (vcOf s p).spares.getD i 0) →
      Leaves (.laneTestDone p ctrl failed spare) s (fun t => (vcOf t p).state = 2 ∧ (vcOf t p).half = 1))) ∧
  (∀ (p : Nat) (s : State), (vcOf s p).state ≠ 3 → (vcOf s p).testing = false → Leaves (.vlaneRecal p) s (fun t =>
    vcOf t p = { vcOf s p with recals := (vcOf s p).recals + 1 })) ∧
  (∀ (m : Nat) (fs : List LineFind) (s : State), m < hbmStacks s.pkg.part → s.pkg.power < 2 → Leaves (.hbmPatrolRead m fs) s (fun t =>
    (stackAt t m).patrol = if stackLines ≤ (stackAt s m).patrol + 1 then 0 else (stackAt s m).patrol + 1)) ∧
  (∀ (m row : Nat) (fs : List LineFind) (s : State), (stackAt s m).due.contains row = true → row < spareMark →
    (stackAt s m).retired.contains (row / 2 ^ 21) = false → (stackAt s m).heat.contains (row / 2 ^ 21) = false →
    rowWaits (stackAt s m) row = false → repairsUsed (stackAt s m) row < 2 →
    Leaves (.hbmRowSparing m row fs) s (fun t => (stackAt t m).due.contains row = false ∧ (stackAt t m).spared.contains row = true ∧
      (stackAt t m).logRows.contains (if rowOnSpare (stackAt s m) row then spareMark + row else row) = true)) ∧
  (∀ (m row : Nat) (fs : List LineFind) (s : State), (stackAt s m).due.contains row = true →
    (stackAt s m).retired.contains (row / 2 ^ 21) = false → (stackAt s m).heat.contains (row / 2 ^ 21) = false →
    rowWaits (stackAt s m) row = false → 2 ≤ repairsUsed (stackAt s m) row →
    Leaves (.hbmRowSparing m row fs) s (fun t => (stackAt t m).due.contains row = false ∧
      ((stackAt s m).spare ≠ .free → (stackAt t m).fencedRows.contains row = true) ∧
      ((stackAt s m).spare = .free → ∃ k, (stackAt t m).spare = .copying k ∧ k.chan = row / 2 ^ 21 ∧ k.trigger = 1 ∧ k.mark = 0 ∧
        k.heldRows.contains row = true))) ∧
  (∀ (m row : Nat) (fs : List LineFind) (s : State), (stackAt s m).due.contains row = true →
    (stackAt s m).retired.contains (row / 2 ^ 21) = false → (stackAt s m).heat.contains (row / 2 ^ 21) = false →
    rowWaits (stackAt s m) row = true → Leaves (.hbmRowSparing m row fs) s (fun t => (stackAt t m).due.contains row = false ∧
      ∃ k, (stackAt t m).spare = .copying k ∧ k.heldRows.contains row = true)) ∧
  (∀ (m : Nat) (fs : List LineFind) (k : Copy) (s : State), (stackAt s m).spare = .copying k →
    (k.mark + 1 < chanLines → Leaves (.hbmChannelCopyLine m fs) s (fun t => ∃ k', (stackAt t m).spare = .copying k' ∧ k'.chan = k.chan ∧
      k'.mark = k.mark + 1)) ∧
    (chanLines ≤ k.mark + 1 → Leaves (.hbmChannelCopyLine m fs) s (fun t => (stackAt t m).spare = .inUse k.chan ∧
      (stackAt t m).logSpared = some k.chan))) ∧
  (∀ (m : Nat) (s : State), (stackAt s m).spare = .free → Leaves (.hbmSpareFailed m) s (fun t => (stackAt t m).spare = .failed none ∧
    (stackAt t m).logFailed = true)) ∧
  (∀ (m : Nat) (k : Copy) (s : State), (stackAt s m).spare = .copying k → Leaves (.hbmSpareFailed m) s (fun t =>
    (stackAt t m).spare = .failed none ∧ ∀ row, row ∈ k.heldRows → (stackAt t m).fencedRows.contains row = true)) ∧
  (∀ (m ch : Nat) (s : State), (stackAt s m).spare = .inUse ch → Leaves (.hbmSpareFailed m) s (fun t =>
    (stackAt t m).spare = .failed (some ch) ∧ (stackAt t m).retired.contains ch = true)) ∧
  (∀ (m : Nat) (s : State), (stackAt s m).spare = .free → Leaves (.hbmSpareTest m true) s (fun t => stackAt t m = stackAt s m) ∧
    Leaves (.hbmSpareTest m false) s (fun t => (stackAt t m).spare = .failed none)) ∧
  (∀ (m ch : Nat) (s : State), m < hbmStacks s.pkg.part → ch < 32 → s.pkg.power < 2 → (stackAt s m).spare = .free →
    (stackAt s m).retired.contains ch = false → Leaves (.hbmInterfaceError m ch false) s (fun t =>
      ∃ k, (stackAt t m).spare = .copying k ∧ k.chan = ch ∧ k.trigger = 2 ∧ k.mark = 0)) ∧
  (∀ (m ch : Nat) (s : State), Leaves (.hbmInterfaceError m ch true) s (fun t => stackAt t m = stackAt s m)) ∧
  (∀ (r : Req) (s : State), Reaches 0x0300 r s → argN r 0 < hbmStacks s.pkg.part → Leaves (.memStatus r) s (AnsweredOk 0x0300 r
    ([cfgEff s 3 (argN r 0 / 4), maskOf ((stackAt s (argN r 0)).retired ++ (stackAt s (argN r 0)).heat),
      (match (stackAt s (argN r 0)).spare with
        | .free => 0
        | .copying k => 1 + 4 * k.chan
        | .inUse c => 2 + 4 * c
        | .failed c => 3 + 4 * c.getD 0),
      (stackAt s (argN r 0)).fencedRows.length, (granules s (argN r 0)).length].map (BitVec.ofNat 32)) s)) ∧
  (∀ (r : Req) (z s : State), Reaches 0x0301 r s → TicketFree s → argN r 0 < hbmStacks s.pkg.part →
    inHbm s.pkg.part (addrArg r 1) (argN r 3) = true →
    bufWrite (addrArg r 1) (((granules s (argN r 0)).take (argN r 3 / 8)).flatMap (fun x => leBytes 8 x)) (begun 0x0301 r s) = (none, z) →
    Leaves (.memGranules r) s (fun t => Accepted 0x0301 r s t ∧ Ended s t stOK)) ∧
  (∀ (r : Req) (s : State), Reaches 0x0302 r s → 6 ≤ argN r 1 → argN r 1 ≤ 72 → argN r 0 < tilesOf s.pkg.part →
    Leaves (.memScrub r) s (fun t => AnsweredOk 0x0302 r [] s t ∧
      cfgEff t 3 (argN r 0) = (cfgEff s 3 (argN r 0) / 128 * 128 + argN r 1) % 2 ^ 64))

/-- The partition and plan commands complete (spec/02 R44 to R52; spec/04 R125; spec/12 R368, R371): a partition is formed, dissolved, reported and given
windows, an overlay and its stalemate window, which are held for its job boundary; a plan is loaded, started, stopped and unloaded, and its
boundary is passed.
Choices of the model that it speaks in: log 17, 29. -/
def Obligations.PartitionAndPlanRowsComplete : Prop :=
  (∀ (r : Req) (st mode owner : Nat) (s : State), Reaches 0x0100 r s → argN r 0 < stacksOf s.pkg.part → st = bitsN (argN r 1) 0 12 →
    mode = bitsN (argN r 1) 16 4 → owner = bitsN (argN r 1) 20 2 → 1 ≤ mode → mode ≤ 4 → owner ≠ 3 → st ≠ 0 →
    (∀ n, n ∈ onesOf 12 st → siteAbsent s (siteKC n) = false ∧ siteUp s (siteKC n) = true ∧ partOfStack s n = none ∧
      mfind s.rel.stackF n = none ∧ (dieClk s (siteKC n)).stepped = true) →
    part s (argN r 0) = none → testHolds s st = false →
    Leaves (.partForm r) s (fun t => AnsweredOk 0x0100 r [] s t ∧ part t (argN r 0) = some { stackSet := st, mode := mode, owner := owner })) ∧
  (∀ (r : Req) (p : Part) (s : State), Reaches 0x0101 r s → argN r 0 < stacksOf s.pkg.part → part s (argN r 0) = some p → p.plan ≤ 1 →
    holdsJob s (argN r 0) = false → Leaves (.partDissolve r) s (fun t => AnsweredOk 0x0101 r [] s t ∧ part t (argN r 0) = none)) ∧
  (∀ (r : Req) (p : Part) (pt w : Nat) (s : State), Reaches 0x0102 r s → pt = bitsN (argN r 0) 0 4 → w = bitsN (argN r 0) 8 4 →
    pt < stacksOf s.pkg.part → part s pt = some p →
    (bitN (argN r 0) 18 = true → Leaves (.partWindow r) s (fun t => AnsweredOk 0x0102 r [] s t ∧
      part t pt = some { p with heldWins := p.heldWins ++ [(w, none)] })) ∧
    (bitN (argN r 0) 18 = false → addrArg r 1 % 2 ^ 21 = 0 → addrArg r 3 % 2 ^ 21 = 0 → Leaves (.partWindow r) s (fun t =>
      AnsweredOk 0x0102 r [] s t ∧ part t pt = some { p with heldWins := p.heldWins ++
        [(w, some { base := addrArg r 1, len := addrArg r 3, rd := bitN (argN r 0) 16, wr := bitN (argN r 0) 17 })] }))) ∧
  (∀ (r : Req) (p : Part) (pt mode : Nat) (s : State), Reaches 0x0103 r s → pt = bitsN (argN r 0) 0 4 → mode = bitsN (argN r 0) 16 4 →
    pt < stacksOf s.pkg.part → part s pt = some p → 1 ≤ mode → mode ≤ 4 → Leaves (.partOverlay r) s (fun t => AnsweredOk 0x0103 r [] s t ∧
      part t pt = some { p with heldOverlay := some mode })) ∧
  (∀ (r : Req) (p : Part) (h : Bool) (z s : State), Reaches 0x0104 r s → argN r 0 < stacksOf s.pkg.part → part s (argN r 0) = some p →
    cfgWrite true 8 (argN r 0) (argN r 1) 2 s = .done z h → Leaves (.partStalemate r) s (fun t => AnsweredOk 0x0104 r [] s t ∧
      cfgItem t 8 (argN r 0) = cfgItem z 8 (argN r 0))) ∧
  (∀ (r : Req) (p : Part) (s : State), Reaches 0x0105 r s → argN r 0 < stacksOf s.pkg.part → part s (argN r 0) = some p → p.plan ≤ 1 →
    holdsJob s (argN r 0) = false → Leaves (.partApply r) s (fun t => AnsweredOk 0x0105 r [] s t ∧ ∃ q, part t (argN r 0) = some q ∧
      q.heldWins = [] ∧ q.heldOverlay = none ∧ q.mode = p.heldOverlay.getD p.mode ∧
      q.windows = p.heldWins.foldl (fun w x => match x.2 with | none => mdel w x.1 | some y => mset w x.1 y) p.windows)) ∧
  (∀ (r : Req) (p : Part) (s : State), Reaches 0x0106 r s → argN r 0 < stacksOf s.pkg.part → part s (argN r 0) = some p →
    Leaves (.partReport r) s (AnsweredOk 0x0106 r ([p.stackSet + p.mode * 2 ^ 12 + p.plan * 2 ^ 16 + (job s (argN r 0)).state * 2 ^ 19 +
      p.run.toNat * 2 ^ 24, 96 * (partStacks p).length - (s.cores.absent.filter (fun c => bitN p.stackSet (coreStack c))).length,
      (job s (argN r 0)).id].map (BitVec.ofNat 32)) s)) ∧
  (∀ (r : Req) (fs : List LineFind) (p : Part) (flags : Nat) (l : List (Nat × List Byte)) (z s : State), Reaches 0x0110 r s → TicketFree s →
    argN r 0 < stacksOf s.pkg.part → part s (argN r 0) = some p → testHolds s p.stackSet = false →
    planFind p (addrArg r 1) fs (begun 0x0110 r s) = (.inr (flags, l), z) → (l.map (·.1)).Nodup → EngineIdle s →
    (∀ q, q ∈ l → q.2.length ≤ 524288) →
    Leaves (.planLoad r fs) s (fun t => Accepted 0x0110 r s t ∧ (∃ q, part t (argN r 0) = some q ∧ q.plan = 1 ∧ q.resetCtx = bitN flags 0) ∧
      ∀ q, q ∈ l → (coreAt t q.1).words = q.2.length / 8 ∧ (coreAt t q.1).cond = .idle ∧
        getBs t.mem.m (scrBase q.1 + 524288 - q.2.length) q.2.length = q.2)) ∧
  (∀ (r : Req) (p : Part) (s : State), Reaches 0x0111 r s → argN r 0 < stacksOf s.pkg.part → part s (argN r 0) = some p → p.plan = 1 →
    unstepped s p = false → testHolds s p.stackSet = false → Leaves (.planStart r) s (fun t => AnsweredOk 0x0111 r [] s t ∧
      (∃ q, part t (argN r 0) = some q ∧ q.plan = 2 ∧ q.run = p.run + 1 ∧ q.runs = if argN r 1 = 0 then none else some (argN r 1)) ∧
      ∀ q, q ∈ p.named → (coreAt t q.1).cond = .issuing ∧ (coreCtx t q.1).pc = 0 ∧ (coreAt t q.1).wait = .none)) ∧
  (∀ (r : Req) (p : Part) (s : State), Reaches 0x0112 r s → argN r 0 < stacksOf s.pkg.part → part s (argN r 0) = some p →
    Leaves (.planStop r) s (fun t => AnsweredOk 0x0112 r [] s t ∧ ∃ q, part t (argN r 0) = some q ∧ q.plan = if p.plan = 2 then 4 else p.plan)) ∧
  (∀ (r : Req) (p : Part) (s : State), Reaches 0x0113 r s → argN r 0 < stacksOf s.pkg.part → part s (argN r 0) = some p → p.plan = 1 →
    Leaves (.planUnload r) s (fun t => AnsweredOk 0x0113 r [] s t ∧ part t (argN r 0) = some { p with plan := 0, named := [], runs := none })) ∧
  (∀ (pt : Nat) (spares : List (Nat × LaneFind)) (p : Part) (s : State), part s pt = some p → (p.plan = 4 ∨ p.plan = 3 ∧ p.runs = some 1) →
    tokensSettled s p = true → Leaves (.planBoundary pt spares) s (fun t => ∃ q, part t pt = some q ∧ q.plan ≤ 1)) ∧
  (∀ (pt : Nat) (spares : List (Nat × LaneFind)) (p : Part) (s : State), part s pt = some p → p.plan = 3 → p.runs = none → tokensSettled s p = true →
    p.left = false → p.retire = [] → s.cores.toSpare = [] → Leaves (.planBoundary pt spares) s (fun t => ∃ q, part t pt = some q ∧ q.plan = 2 ∧
      q.run = p.run + 1))

/-- The context and synchronisation commands complete (spec/02 R75, R76, R80; spec/08 R259; spec/12 R368; spec/16 R449): a context is saved in its layout,
restored and reset, a core is retired, synchronisation objects are read and written, and a debugger is attached and detached.
Choices of the model that it speaks in: log 17, 30. -/
def Obligations.ContextAndSyncCommandsComplete : Prop :=
  (∀ (r : Req) (es el : Ecc) (c : Nat) (z s : State), Reaches 0x0200 r s → TicketFree s → CoreNamed s (argN r 0) c → badArea s r = none →
    coreIdle s c = true → argN r 1 = 0 → bufWrite (addrArg r 2) (ctxBytes s c) (begun 0x0200 r s) = (none, z) →
    Leaves (.ctxSave r es el) s (fun t => Accepted 0x0200 r s t ∧ Ended s t stOK ∧ t.mem = z.mem ∧ t.cores = s.cores)) ∧
  (∀ (r : Req) (fs : List LineFind) (c : Nat) (l : List (Nat × List Byte)) (k : Ctx) (z s : State), Reaches 0x0201 r s → TicketFree s →
    CoreNamed s (argN r 0) c → badArea s r = none → coreIdle s c = true → ctxGather r fs (begun 0x0201 r s) = ((none, l), z) →
    ctxParse (mget l [] 2) = some k →
    Leaves (.ctxRestore r fs) s (fun t => Accepted 0x0201 r s t ∧ Ended s t stOK ∧ coreCtx t c = k ∧
      (∀ bs, mfind l 4 = some bs → bs.length = 524288 → getBs t.mem.m (scrBase c) 524288 = bs) ∧
      (∀ bs, mfind l 6 = some bs → bs.length = 2097152 → getBs t.mem.m (slBase c) 2097152 = bs))) ∧
  (∀ (r : Req) (c : Nat) (s : State), Reaches 0x0202 r s → CoreNamed s (argN r 0) c → coreIdle s c = true → Leaves (.ctxReset r) s (fun t =>
    AnsweredOk 0x0202 r [] s t ∧ coreCtx t c = {})) ∧
  (∀ (r : Req) (f : LaneFind) (c : Nat) (s : State), Reaches 0x0203 r s → TicketFree s → CoreNamed s (argN r 0) c → isFenced s (spareOf c) = false →
    spareUsed s (spareOf c) = false → (laneCase (vcOf s (spareOf c)) f = .clean ∨ laneCase (vcOf s (spareOf c)) f = .repair) →
    coreIdle s c = true → Leaves (.coreRetire r f) s (fun t => Accepted 0x0203 r s t ∧
      physOf t c = spareOf c ∧ coreCtx t c = coreCtx s c)) ∧
  (∀ (r : Req) (f : LaneFind) (c pt : Nat) (p : Part) (s : State), Reaches 0x0203 r s → TicketFree s → CoreNamed s (argN r 0) c →
    isFenced s (spareOf c) = false → spareUsed s (spareOf c) = false → coreParts s c = some pt → part s pt = some p → 3 ≤ p.plan →
    Leaves (.coreRetire r f) s (fun t => Accepted 0x0203 r s t ∧
      part t pt = some { p with retire := p.retire ++ [(c, s.mp.nextTicket.toNat)] })) ∧
  (∀ (r : Req) (c n : Nat) (s : State), Reaches 0x0210 r s → CoreNamed s (argN r 1) c → n = bitsN (argN r 2) 0 5 →
    (argN r 0 = 0 → Leaves (.syncRead r) s (AnsweredOk 0x0210 r (wordsOf 2 (getSem s c n)) s)) ∧
    (argN r 0 = 1 → n ≤ 15 → Leaves (.syncRead r) s (AnsweredOk 0x0210 r (wordsOf 2 (getSlot s c n).toNat) s))) ∧
  (∀ (r : Req) (pt st cl n : Nat) (p : Part) (s : State), Reaches 0x0210 r s → argN r 0 = 2 → pt = bitsN (argN r 1) 0 4 →
    st = bitsN (argN r 1) 8 4 → cl = bitsN (argN r 1) 5 3 → n = bitsN (argN r 2) 0 5 → n ≤ 15 → pt < stacksOf s.pkg.part → st < 12 →
    part s pt = some p → bitN p.stackSet st = true → Leaves (.syncRead r) s (AnsweredOk 0x0210 r (wordsOf 2
      (combOf s (combKey pt .cluster (st * 8 + cl) n (bitN (argN r 2) 8))).arrived.length) s)) ∧
  (∀ (r : Req) (c n v : Nat) (s : State), Reaches 0x0211 r s → debugEn s = true → CoreNamed s (argN r 1) c → argN r 0 = 0 →
    n = bitsN (argN r 2) 0 5 → argN r 3 = 0 → v = argN r 4 + 2 ^ 32 * argN r 5 → v ≤ 65535 →
    Leaves (.syncWrite r) s (fun t => AnsweredOk 0x0211 r (wordsOf 2 (getSem s c n)) s t ∧ getSem t c n = v)) ∧
  (∀ (r : Req) (c n v : Nat) (s : State), Reaches 0x0211 r s → debugEn s = true → CoreNamed s (argN r 1) c → argN r 0 = 1 →
    n = bitsN (argN r 2) 0 5 → n ≤ 15 → argN r 3 = 3 → v = argN r 4 + 2 ^ 32 * argN r 5 → v ≤ 1023 →
    Leaves (.syncWrite r) s (fun t => AnsweredOk 0x0211 r (wordsOf 2 (getSlot s c n).toNat) s t ∧ slPly (getSlot t c n) = v ∧
      slOut (getSlot t c n) = slOut (getSlot s c n))) ∧
  (∀ (r : Req) (c : Nat) (p : Part) (s : State), Reaches 0x0212 r s → debugEn s = true → CoreNamed s (argN r 0) c →
    (coreParts s c).bind (part s) = some p → p.mode = 4 →
    (argN r 1 = 0 → Leaves (.debugCtl r) s (fun t => AnsweredOk 0x0212 r [] s t ∧ (coreAt t c).debugger = true)) ∧
    (argN r 1 = 1 → Leaves (.debugCtl r) s (fun t => AnsweredOk 0x0212 r [] s t ∧ (coreAt t c).debugger = false)) ∧
    (argN r 1 = 2 → (coreAt s c).cond = .brk → (coreAt s c).wait = .none → NotLast c s → Leaves (.debugCtl r) s (fun t =>
      AnsweredOk 0x0212 r [] s t ∧ Goes c s t (coreCtx s c))))

/-- The pips and the hub queues complete (spec/02 R66; spec/11 R341, R342; spec/12 R368).
Choices of the model that it speaks in: log 17, 30. -/
def Obligations.PipAndQueueCommandsComplete : Prop :=
  (∀ (r : Req) (k c : Nat) (s : State), Reaches 0x0500 r s → k = bitsN (argN r 0) 0 5 → k ≠ 31 → bitN (argN r 0) 8 = false →
    CoreNamed s (argN r 1) c → (coreParts s c).isSome = true → Leaves (.pipInBind r) s (fun t => AnsweredOk 0x0500 r [] s t ∧
      mfind t.hp.pipIn k = some (c, argN r 2))) ∧
  (∀ (r : Req) (k : Nat) (s : State), Reaches 0x0500 r s → k = bitsN (argN r 0) 0 5 → k ≠ 31 → bitN (argN r 0) 8 = true →
    Leaves (.pipInBind r) s (fun t => AnsweredOk 0x0500 r [] s t ∧ mfind t.hp.pipIn k = none)) ∧
  (∀ (r : Req) (k : Nat) (s : State), Reaches 0x0501 r s → k = bitsN (argN r 0) 0 5 → k ≠ 31 → bitN (argN r 0) 8 = false →
    addrArg r 1 % 8 = 0 → inHbm s.pkg.part (addrArg r 1) 8 = true → s.hp.pipOut.any (fun q => q.1 != k && q.2 == addrArg r 1) = false →
    Leaves (.pipOutBind r) s (fun t => AnsweredOk 0x0501 r [] s t ∧ mfind t.hp.pipOut k = some (addrArg r 1))) ∧
  (∀ (r : Req) (k : Nat) (s : State), Reaches 0x0501 r s → k = bitsN (argN r 0) 0 5 → k ≠ 31 → bitN (argN r 0) 8 = true →
    Leaves (.pipOutBind r) s (fun t => AnsweredOk 0x0501 r [] s t ∧ mfind t.hp.pipOut k = none)) ∧
  (∀ (r : Req) (q pt : Nat) (p : Part) (s : State), Reaches 0x0502 r s → q = bitsN (argN r 0) 0 5 → pt = bitsN (argN r 0) 8 4 →
    bitN (argN r 0) 12 = false → bitN (argN r 0) 13 = false → pt < stacksOf s.pkg.part → part s pt = some p →
    (mget s.fab.hqs {} q).open_ = 0 → (mget s.fab.hqs {} q).descs = [] → (mget s.fab.hqs {} q).owner = none → holdsJob s pt = false →
    Leaves (.hqAssign r) s (fun t => AnsweredOk 0x0502 r [] s t ∧ mget t.fab.hqs {} q = { owner := some pt } ∧
      ∀ d, d < 12 → mget (dieEng t d).credits 0 q = if (partStacks p).contains d then 64 / (partStacks p).length else 0)) ∧
  (∀ (r : Req) (q : Nat) (s : State), Reaches 0x0502 r s → q = bitsN (argN r 0) 0 5 → bitsN (argN r 0) 8 4 = 0 → bitN (argN r 0) 12 = true →
    bitN (argN r 0) 13 = false → (mget s.fab.hqs {} q).open_ = 0 → (mget s.fab.hqs {} q).descs = [] → (mget s.fab.hqs {} q).owner = none →
    holdsJob s (enginePart s) = false → Leaves (.hqAssign r) s (fun t => AnsweredOk 0x0502 r [] s t ∧
      mget t.fab.hqs {} q = { owner := some 12 })) ∧
  (∀ (r : Req) (q o : Nat) (s : State), Reaches 0x0502 r s → q = bitsN (argN r 0) 0 5 → bitsN (argN r 0) 8 4 = 0 → bitN (argN r 0) 12 = false →
    bitN (argN r 0) 13 = true → (mget s.fab.hqs {} q).open_ = 0 → (mget s.fab.hqs {} q).descs = [] → (mget s.fab.hqs {} q).owner = some o →
    holdsJob s (if o = 12 then enginePart s else o) = false → Leaves (.hqAssign r) s (fun t => AnsweredOk 0x0502 r [] s t ∧
      mget t.fab.hqs {} q = {}))

/-- Records to the request engine complete (spec/10 R312 to R317, R322 to R325): an OPEN takes the lowest free session, a PING is answered and renews its
session, a CLOSE ends its session, and an INFER or UPDATE whose key resolves is put in a batch with its resolution and its deadline.
Choices of the model that it speaks in: log 8, 9, 31. -/
def Obligations.RecordRowsComplete : Prop :=
  (∀ (p : Peer10) (rec : List Byte) (n : Nat) (s : State), RecordTaken s rec 3 → PeerOpen s p → p.session < 2 ^ 20 → p.nonce < 2 ^ 32 → areaOk s = true →
    freeSession 1048576 0 s = some n → sessField s n 0 1 = 0 → LineClean s (sessAddr s n) → EngineSettled s →
    Leaves (.openRec p.host p.ip p.port p.session p.nonce rec []) s (fun t => ∃ nonce, nonce < 2 ^ 32 ∧ nonce ≠ sessField s n 4 4 ∧
      sessBytes t n = newSession p nonce rec (engNow s) ∧
      (ReplyWay s p → ∃ rest, RepliedWith { p with session := n, nonce := nonce } rec 0 (leBytes 4 n ++ leBytes 4 nonce ++ rest) t))) ∧
  (∀ (p : Peer10) (rec : List Byte) (s : State), RecordTaken s rec 5 → PeerOpen s p → SessionHeld s p → EngineSettled s →
    Leaves (.ping p.host p.ip p.port p.session p.nonce rec []) s (fun t => (ReplyWay s p → Replied p rec 0 t) ∧
      sessField t p.session 0x28 8 = engNow s % 2 ^ 64)) ∧
  (∀ (p : Peer10) (rec : List Byte) (s : State), RecordTaken s rec 4 → PeerOpen s p → SessionHeld s p → EngineSettled s →
    Leaves (.closeRec p.host p.ip p.port p.session p.nonce rec []) s (fun t => (ReplyWay s p → Replied p rec 0 t) ∧
      sessField t p.session 0 1 = if sessField s p.session 0x30 4 = 0 then 0 else 2)) ∧
  (∀ (p : Peer10) (rec : List Byte) (w : Nat) (s : State), RecordTaken s rec 1 → PeerOpen s p → KeyAdmitted s p rec w →
    Leaves (.infer p.host p.ip p.port p.session p.nonce rec []) s (Batched s p rec w)) ∧
  (∀ (p : Peer10) (rec : List Byte) (w : Nat) (s : State), RecordTaken s rec 2 → PeerOpen s p → KeyAdmitted s p rec w →
    Leaves (.updateRec p.host p.ip p.port p.session p.nonce rec []) s (Batched s p rec w))

/-- Frames, the host ring, batches and sessions' timers complete (spec/10 R312, R315, R317, R323 to R326): each record of a frame is answered, a frame
that is no request is only counted, the host's ring is taken, a batch closes, goes to its slot and returns with its replies, a request whose deadline
has passed is answered, and an idle session is freed.
Choices of the model that it speaks in: log 2, 8, 31. -/
def Obligations.BatchRowsComplete : Prop :=
  (∀ (port ip peer : Nat) (bs : List Byte) (p : Peer10) (s : State), running s = true → portUp s port = true → 2 ≤ s.eng.state → badFrame bs = false →
    p = ⟨fieldAt bs 4 4, fieldAt bs 8 4, false, ip, peer⟩ → SessionHeld s p →
    (∀ rec, rec ∈ chunks 128 64 (bs.drop 16) → badRecord rec = false ∧ fieldAt rec 0 1 = 5) →
    Leaves (.requestFrame port ip peer bs []) s (fun t => ∀ rec, rec ∈ chunks 128 64 (bs.drop 16) → Replied p rec 0 t)) ∧
  (∀ (port ip peer : Nat) (bs : List Byte) (fs : List LineFind) (s : State), running s = true → portUp s port = true → badFrame bs = true →
    EngineSettled s → Leaves (.requestFrame port ip peer bs fs) s (fun t => t.mem = s.mem ∧ t.eng = s.eng ∧
      (∀ n l f, Out.reply n l f ∈ t.out → Out.reply n l f ∈ s.out) ∧
      (mget t.obs.ctrs {} (ctrKey 0x7003 0)).raw = (mget s.obs.ctrs {} (ctrKey 0x7003 0)).raw + 1)) ∧
  (∀ (fs : List LineFind) (s : State), running s = true → hostEn s = true → s.hp.h2dPending.getLsbD 31 = true → areaOk s = true →
    ringIndex s 0 = ringIndex s 1 → Leaves (.hostRingPip fs) s (fun t => t.hp.h2dPending = s.hp.h2dPending &&& 0x7FFFFFFF#32 ∧ t.mem = s.mem)) ∧
  (∀ (bs rec : List Byte) (p : Peer10) (s : State), running s = true → hostEn s = true → s.hp.h2dPending.getLsbD 31 = true → 2 ≤ s.eng.state →
    s.eng.hostOut = 0 → (ringIndex s 2 + 2 ^ 64 - ringIndex s 3) % 2 ^ 64 < 32768 → ringIndex s 0 = (ringIndex s 1 + 1) % 2 ^ 64 →
    bs = getBs s.mem.m (reqEntry s (ringIndex s 1)) 80 → (∀ i, i < 2 → LineClean s (reqEntry s (ringIndex s 1) + 64 * i)) → badFrame bs = false →
    rec = bs.drop 16 → p = ⟨fieldAt bs 4 4, fieldAt bs 8 4, true, 0, 0⟩ → SessionHeld s p → badRecord rec = false → fieldAt rec 0 1 = 5 →
    LineClean s (ringCtl s 0) → EngineSettled s →
    Leaves (.hostRingPip []) s (fun t => t.hp.h2dPending = s.hp.h2dPending &&& 0x7FFFFFFF#32 ∧ Replied p rec 0 t ∧
      ringIndex t 1 = ringIndex s 0 ∧ ringIndex t 2 = (ringIndex s 2 + 1) % 2 ^ 64)) ∧
  (∀ (s : State), s.eng.openB ≠ [] → s.eng.closedB = none → s.eng.state = 3 → EngineSettled s → closesNow s = true →
    Leaves .batchClose s (fun t => t.eng.openB = [] ∧ t.eng.closedB = some { reqs := s.eng.openB, closedAt := engNow s })) ∧
  (∀ (b : EBatch) (p : Part) (k hq : Nat) (s : State), s.eng.closedB = some b → engineQueue s = some hq → part s (enginePart s) = some p → s.eng.state = 3 → EngineSettled s →
    k = s.eng.next % inflight s → mfind s.eng.slots k = none → b.reqs ≠ [] →
    (∀ q, q ∈ b.reqs → ∀ x, x ∈ s.eng.slots → ∀ r, r ∈ x.2.reqs → fieldAt r.recd 8 8 ≠ fieldAt q.recd 8 8) →
    (∀ q, q ∈ b.reqs → estUs s = 0 ∨ engNow s + 16000 * estUs s ≤ q.deadline) → areaOk s = true → LineClean s (slotAddr s k) →
    s.eng.openB.length < batchMax s →
    Leaves .batchDispatch s (fun t => t.eng.closedB = none ∧ mfind t.eng.slots k = some { b with n := s.eng.next } ∧ t.eng.next = s.eng.next + 1 ∧
      getNum t.mem.m (slotAddr s k) 8 = s.eng.next % 2 ^ 64 ∧ getNum t.mem.m (slotAddr s k + 8) 4 = b.reqs.length % 2 ^ 32)) ∧
  (∀ (b : EBatch) (k : Nat) (rest : List Nat) (s : State), s.eng.returned = k :: rest → mfind s.eng.slots k = some b → s.eng.state = 3 → EngineSettled s →
    areaOk s = true → k < 8 → (∀ e, e ∈ s.eng.cache → e.n < 2 ^ 20) → Leaves (.batchReturn []) s (fun t => mfind t.eng.slots k = none ∧ t.eng.returned = rest ∧
      ∀ i q, b.reqs[i]? = some q → hasReply s q = false → ReplyWay s (peerOfReq q) → SessionKept s q → LineClean s (slotAddr s k + 0x81000 + 64 * i) →
        RepliedWith (peerOfReq q) q.recd
          (if 0x0A ≤ getNum s.mem.m (slotAddr s k + 0x81000 + 64 * i + 1) 1 ∧ getNum s.mem.m (slotAddr s k + 0x81000 + 64 * i + 1) 1 < 0x80 then 9
            else getNum s.mem.m (slotAddr s k + 0x81000 + 64 * i + 1) 1)
          (getBs s.mem.m (slotAddr s k + 0x81000 + 64 * i + 16) 48) t)) ∧
  (∀ (s : State), s.eng.state = 3 → EngineSettled s → (∀ e, e ∈ s.eng.cache → e.n < 2 ^ 20) → Leaves .deadlineMiss s (fun t =>
    (∀ q, q ∈ heldReqs s.eng → q.deadline ≤ engNow s → hasReply s q = false → ReplyWay s (peerOfReq q) → SessionKept s q → Replied (peerOfReq q) q.recd 1 t) ∧
    ∀ q, q ∈ heldReqs t.eng → q.deadline ≤ engNow s → q.answered = true)) ∧
  (∀ (n : Nat) (s : State), 2 ≤ s.eng.state → n < 2 ^ 20 → areaOk s = true → LineClean s (sessAddr s n) → sessField s n 0 1 = 1 →
    sessField s n 0xC 4 ≠ 0 → sessField s n 0x30 4 = 0 → sessField s n 0x28 8 + 16000000 * sessField s n 0xC 4 ≤ engNow s → EngineSettled s →
    Leaves (.sessionIdleTimeout n []) s (fun t => sessField t n 0 1 = 0))

/-- The engine's commands complete (spec/10 R316, R317, R319, R320; spec/12 R368): an entry of the directory is put, deleted and read, a bucket is
cleared, and a session is read and closed; a write of the directory ends at once where the engine holds no request.
Choices of the model that it speaks in: log 8, 17, 31. -/
def Obligations.EngineCommandsComplete : Prop :=
  (∀ (r : Req) (b w : Nat) (bk : List Byte) (s : State), Reaches 0x0600 r s → TicketFree s → keyArg r 2 % 64 = 0 →
    inHbm s.pkg.part (keyArg r 2) (argN r 4) = true → argN r 4 % 64 = 0 → 64 ≤ argN r 4 → argN r 4 ≤ 16777216 → b = bucketOf (keyArg r 0) →
    BucketClean s b → bk = bucketBytes s b → (wayOf bk (keyArg r 0)).or (freeWay bk) = some w → EngineSettled s →
    heldReqs s.eng = [] →
    Leaves (.engDirPut r []) s (fun t => Accepted 0x0600 r s t ∧ Ended s t stOK ∧ getBs t.mem.m (bucketAddr s b + 32 * w) 32 =
      leBytes 8 (keyArg r 0) ++ leBytes 8 (keyArg r 2) ++ leBytes 4 (argN r 4) ++ leBytes 2 1 ++ leBytes 2 (argN r 5) ++
        leBytes 8 ((fieldAt bk (32 * w + 0x18) 8 + 1) % 2 ^ 64))) ∧
  (∀ (r : Req) (b w : Nat) (bk : List Byte) (s : State), Reaches 0x0601 r s → TicketFree s → b = bucketOf (keyArg r 0) →
    BucketClean s b → bk = bucketBytes s b → wayOf bk (keyArg r 0) = some w → EngineSettled s → heldReqs s.eng = [] →
    Leaves (.engDirDelete r []) s (fun t => Accepted 0x0601 r s t ∧ Ended s t stOK ∧ getNum t.mem.m (bucketAddr s b + 32 * w + 0x14) 2 = 0 ∧
      getNum t.mem.m (bucketAddr s b + 32 * w + 0x18) 8 = (fieldAt bk (32 * w + 0x18) 8 + 1) % 2 ^ 64)) ∧
  (∀ (r : Req) (b w : Nat) (bk : List Byte) (s : State), Reaches 0x0602 r s → b = bucketOf (keyArg r 0) → BucketClean s b →
    bk = bucketBytes s b → wayOf bk (keyArg r 0) = some w →
    Leaves (.engDirGet r []) s (AnsweredOk 0x0602 r ((List.range 8).map (fun i => BitVec.ofNat 32 (fieldAt bk (32 * w + 4 * i) 4))) s)) ∧
  (∀ (r : Req) (s : State), Reaches 0x0603 r s → TicketFree s → BucketClean s (argN r 0) → EngineSettled s → heldReqs s.eng = [] →
    Leaves (.engBucketClear r) s (fun t => Accepted 0x0603 r s t ∧ Ended s t stOK ∧
      ∀ k, wayOf (getBs t.mem.m (bucketAddr s (argN r 0)) 128) k = none)) ∧
  (∀ (r : Req) (s : State), Reaches 0x0604 r s → areaOk s = true → LineClean s (sessAddr s (argN r 0)) → sessField s (argN r 0) 0 1 ≤ 2 →
    Leaves (.engSessionRead r []) s (AnsweredOk 0x0604 r ((List.range 13).map (fun i => BitVec.ofNat 32 (sessField s (argN r 0) (4 * i) 4))) s)) ∧
  (∀ (r : Req) (s : State), Reaches 0x0605 r s → areaOk s = true → LineClean s (sessAddr s (argN r 0)) → sessField s (argN r 0) 0 1 = 1 →
    EngineSettled s → Leaves (.engSessionClose r []) s (fun t => AnsweredOk 0x0605 r [] s t ∧
      sessField t (argN r 0) 0 1 = if sessField s (argN r 0) 0x30 4 = 0 then 0 else 2))

/-- The rows of the rings and the identity words complete (spec/05 R147 to R151, R166 to R168): a loop that tracks moves its heater by at most 16 codes toward
its target and holds the interpolated code without light, a ring dark for 1 ms on a healthy line is a mislock, identity words are counted, training frames are
sent, and a mislocked channel recovers where its rings find a resonance, tries again, or is retired.
Choices of the model that it speaks in: log 2, 9, 16, 32, 51. -/
def Obligations.RingRowsComplete : Prop :=
  (∀ (b l cur : Nat) (s : State), (chOf s b l).st ≠ 0 →
    ((chOf s b l).txLoop.st < 2 → (1024 ≤ cur * 20 ∨ (chOf s b l).txLoop.low < 7) → Leaves (.ringLoopUpdate b l 0 cur) s (fun t =>
      ((chOf t b l).tx : Int) = clampI 0 4095 (((chOf s b l).tx : Int) + clampI (-16) 16 (modCorr (chOf s b l).setpt cur)) ∧
      (cur ≤ 4 * (chOf s b l).setpt → (chOf s b l).tx ≤ 4095 → (chOf s b l).tx ≤ (chOf t b l).tx) ∧
      (4 * (chOf s b l).setpt ≤ cur → (chOf t b l).tx ≤ (chOf s b l).tx) ∧
      (chOf t b l).rx = (chOf s b l).rx ∧ (chOf t b l).bias = (chOf s b l).bias)) ∧
    ((chOf s b l).rxLoop.st < 2 → (1024 ≤ cur * 20 ∨ (chOf s b l).rxLoop.low < 7) → Leaves (.ringLoopUpdate b l 1 cur) s (fun t =>
      ((chOf t b l).rx : Int) = clampI 0 4095 (((chOf s b l).rx : Int) + clampI (-16) 16 (filterCorr (chOf s b l).rxLoop cur)) ∧
      (chOf t b l).rxLoop.up = !(chOf s b l).rxLoop.up ∧ (chOf t b l).rxLoop.last = cur ∧
      (chOf t b l).tx = (chOf s b l).tx ∧ (chOf t b l).bias = (chOf s b l).bias))) ∧
  (∀ (b l cur : Nat) (s : State), (chOf s b l).st ≠ 0 → cur * 20 < 1024 → (chOf s b l).txLoop.st ≠ 3 → 7 ≤ (chOf s b l).txLoop.low →
    Leaves (.ringLoopUpdate b l 0 cur) s (fun t => (chOf t b l).txLoop.st = 2 ∧ (chOf t b l).tx = interp (ptTx (entOf s b l)) 4095 (ringTemp s b l 0))) ∧
  (∀ (b l d : Nat) (s : State), (chOf s b l).txLoop.st = 2 → (chOf s b l).txLoop.darkAt = some d → d + 10 ^ 6 ≤ s.now → lineHealthy s b l = true →
    (chOf s b l).st ≠ 9 → (chOf s b l).st ≠ 7 → (chOf s b l).st ≠ 0 →
    Leaves (.ringNoLight b l 0) s (fun t => (chOf t b l).st = 7 ∧ (chOf t b l).attempts = 0)) ∧
  (∀ (b l ring : Nat) (s : State), lineHealthy s b l = false → Leaves (.ringNoLight b l ring) s (fun t => t.pho = s.pho)) ∧
  (∀ (b l n : Nat) (s : State), b < 452 → l < 18 → n < 18 → (chOf s b l).st ≠ 0 → (chOf s b l).st ≠ 9 →
    Leaves (.identityWordReceived b l (identWord b l n)) s (fun t =>
      chOf t b l = { chOf s b l with mism := 0, good := (chOf s b l).good + 1 } ∧
      (n ≠ laneNow s b l → Out.link b 3 [l, laneNow s b l] ∈ t.out))) ∧
  (∀ (b l b' l' n : Nat) (s : State), b' < 452 → l' < 18 → n < 18 → (b' ≠ b ∨ l' ≠ l) → (chOf s b l).st ≠ 0 → (chOf s b l).st ≠ 9 →
    ((chOf s b l).mism = 0 → Leaves (.identityWordReceived b l (identWord b' l' n)) s (fun t =>
      chOf t b l = { chOf s b l with mism := 1, good := 0 })) ∧
    (0 < (chOf s b l).mism → Leaves (.identityWordReceived b l (identWord b' l' n)) s (fun t => (chOf t b l).st = 7))) ∧
  (∀ (b l : Nat) (w : Word32) (s : State), identOk w = false → Leaves (.identityWordReceived b l w) s (fun t => t.pho = s.pho)) ∧
  (∀ (b : Nat) (s : State), (bundleOf s b).lit = true → Leaves (.trainingFrameRequest b) s (fun t => Out.link b 2 (trainFrames s b) ∈ t.out)) ∧
  (∀ (v spc fsr k : Nat) (seen : List Nat), settleCode v spc fsr seen = some k → k ∈ seen ∧ k ≤ 4095 ∧
    (4 * ((k : Int) - v).natAbs ≤ spc ∨ 4 * ((k : Int) - ((v : Int) + fsr)).natAbs ≤ spc ∨ 4 * ((k : Int) - ((v : Int) - fsr)).natAbs ≤ spc)) ∧
  (∀ (b l x y : Nat) (tr rr : List Nat) (s : State), l < 18 → (chOf s b l).st = 7 →
    (if bitN (chOf s b l).rings 0 then settleCode (ringCode s b l 0) (entOf s b l).txSpc (entOf s b l).txFsr tr else some (chOf s b l).tx) = some x →
    (if bitN (chOf s b l).rings 1 then settleCode (ringCode s b l 1) (entOf s b l).rxSpc (entOf s b l).rxFsr rr else some (chOf s b l).rx) = some y →
    2 ≤ (chOf s b l).good →
    (l ≠ 16 → Leaves (.mislockAttemptDone b l tr rr) s (fun t =>
      (chOf t b l).st = 2 ∧ (chOf t b l).lane = l ∧ (chOf t b l).tx = x ∧ (chOf t b l).rx = y)) ∧
    (l = 16 → (bundleOf s b).waiting = [] → Leaves (.mislockAttemptDone b l tr rr) s (fun t => (chOf t b 16).st = 3))) ∧
  (∀ (b l : Nat) (tr rr : List Nat) (s : State), (chOf s b l).st = 7 →
    ((chOf s b l).good < 2 ∨ (bitN (chOf s b l).rings 0 = true ∧ settleCode (ringCode s b l 0) (entOf s b l).txSpc (entOf s b l).txFsr tr = none) ∨
      (bitN (chOf s b l).rings 1 = true ∧ settleCode (ringCode s b l 1) (entOf s b l).rxSpc (entOf s b l).rxFsr rr = none)) →
    Leaves (.mislockAttemptDone b l tr rr) s (fun t =>
      if (chOf s b l).attempts < 2 then (chOf t b l).st = 7 ∧ (chOf t b l).attempts = (chOf s b l).attempts + 1 else (chOf t b l).st = 9))

/-- The rows of calibration complete (spec/05 R156 to R163): a channel falls due, its run begins with its lane on λ16 where that is free, two
measurements that agree are accepted and their means taken, others are rejected and repeated after 100 ms, the lane returns, the store is written at most
once an hour in the 64 bytes of an entry, and a channel is reported and put first.
Choices of the model that it speaks in: log 2, 9, 32. -/
def Obligations.CalibrationRowsComplete : Prop :=
  (∀ (b l : Nat) (s : State), l < 18 → (bundleOf s b).lit = true →
    (64 < max (ringTemp s b l 0 - (chOf s b l).txTemp).natAbs (ringTemp s b l 1 - (chOf s b l).rxTemp).natAbs →
      Leaves (.calDue b l) s (fun t => (chOf t b l).due = max (chOf s b l).due 2)) ∧
    (max (ringTemp s b l 0 - (chOf s b l).txTemp).natAbs (ringTemp s b l 1 - (chOf s b l).rxTemp).natAbs ≤ 64 →
      (chOf s b l).calAt.all (fun x => decide (x + 10 ^ 10 ≤ s.now)) = true →
      Leaves (.calDue b l) s (fun t => (chOf t b l).due = max (chOf s b l).due 1)) ∧
    (∀ (x : Nat), max (ringTemp s b l 0 - (chOf s b l).txTemp).natAbs (ringTemp s b l 1 - (chOf s b l).rxTemp).natAbs ≤ 64 →
      (chOf s b l).calAt = some x → s.now < x + 10 ^ 10 → Leaves (.calDue b l) s (fun t => t.pho = s.pho))) ∧
  (∀ (b l : Nat) (s : State), l < 18 → calAllowed s b l = true → ((chOf s b 16).st = 3 → (bundleOf s b).holder = none ∧ (bundleOf s b).waiting = []) →
    Leaves (.calBegin b l) s (fun t => (chOf t b l).st = 5 ∧ (chOf t b l).run = true ∧ (chOf t b l).txLoop.st = 3 ∧ (chOf t b l).rxLoop.st = 3 ∧
      (l ≠ 16 → (chOf s b 16).st = 3 → (chOf t b 16).st = 4 ∧ (chOf t b 16).lane = l))) ∧
  (∀ (b l : Nat) (m1 m2 : CalMeas) (s : State), (chOf s b l).run = true → (chOf s b l).measured = false →
    (calAgrees m1 m2 = false → Leaves (.calMeasurementDone b l m1 m2) s (fun t => (chOf t b l).measured = true ∧
      (chOf t b l).rejects = (chOf s b l).rejects + 1 ∧ (chOf t b l).retryAt = s.now + 10 ^ 8 ∧ (chOf t b l).tx = (chOf s b l).tx ∧
      (chOf t b l).rx = (chOf s b l).rx ∧ entOf t b l = entOf s b l)) ∧
    (calAgrees m1 m2 = true →
      2 * Int.natAbs ((meanOf m1.tx m2.tx : Int) - ringCode s b l 0) ≤ (entOf s b l).txSpc →
      2 * Int.natAbs ((meanOf m1.rx m2.rx : Int) - ringCode s b l 1) ≤ (entOf s b l).rxSpc →
      Leaves (.calMeasurementDone b l m1 m2) s (fun t => (chOf t b l).tx = meanOf m1.tx m2.tx ∧ (chOf t b l).rx = meanOf m1.rx m2.rx ∧
        (chOf t b l).bias = meanOf m1.bias m2.bias ∧ (chOf t b l).setpt = meanOf m1.setpt m2.setpt ∧ (chOf t b l).measured = true ∧
        (chOf t b l).calAt = some s.now ∧ (chOf t b l).due = 0 ∧ (chOf t b l).rejects = 0 ∧
        (entOf t b l).gen = min ((entOf s b l).gen + 1) 0xFFFFFFFF)) ∧
    (calAgrees m1 m2 = true → (entOf s b l).txSpc < 2 * Int.natAbs ((meanOf m1.tx m2.tx : Int) - ringCode s b l 0) →
      Leaves (.calMeasurementDone b l m1 m2) s (fun t => (chOf t b l).st = 7))) ∧
  (∀ (b l : Nat) (s : State), l < 18 → (chOf s b l).st = 5 → (chOf s b l).measured = true → (chOf s b l).due = 0 →
    Leaves (.calLaneReturn b l) s (fun t => (chOf t b l).run = false ∧ (l ≠ 16 → (chOf t b l).st = 2))) ∧
  (∀ (tile : Nat) (s : State), storeDue s tile = true → Leaves (.calStoreWrite tile true) s (fun t => ∀ k, k ∈ s.pho.dirty → bTile (k / 32) = tile →
    mfind t.pho.stored k = some (entBytes (mget s.pho.ents {} k)) ∧ k ∉ t.pho.dirty ∧ mfind t.pho.storeAt tile = some s.now)) ∧
  (∀ (tile : Nat) (s : State), Leaves (.calStoreWrite tile false) s (fun t => t.pho.stored = s.pho.stored ∧ t.pho.dirty = s.pho.dirty)) ∧
  (∀ (tile : Nat) (ok : Bool) (s : State), storeDue s tile = false → Leaves (.calStoreWrite tile ok) s (fun t => t.pho = s.pho)) ∧
  (∀ (e : CalEnt), e.txFsr < 65536 → e.rxFsr < 65536 → e.txSpc < 65536 → e.rxSpc < 65536 → e.gen < 2 ^ 32 → e.pts.length = 5 →
    (∀ p, p ∈ e.pts → p.1 < 4096 ∧ p.2.1 < 4096 ∧ p.2.2.1 < 1024 ∧ p.2.2.2 < 256) → (entBytes e).length = 64 ∧ entOfBytes (entBytes e) = some e) ∧
  (∀ (r : Req) (b l : Nat) (s : State), Reaches 0x0400 r s → b = bitsN (argN r 0) 0 9 → l = bitsN (argN r 0) 16 5 → b < 452 → l < 18 →
    bundleOn s.pkg.part b = true → Leaves (.phoChannel r) s (AnsweredOk 0x0400 r (wordsOf 2 (chWord s b l)) s)) ∧
  (∀ (r : Req) (b l : Nat) (s : State), Reaches 0x0401 r s → b = bitsN (argN r 0) 0 9 → l = bitsN (argN r 0) 16 5 → b < 452 → l < 18 →
    bundleOn s.pkg.part b = true → calRefused s b l = false → Leaves (.phoCal r) s (fun t => AnsweredOk 0x0401 r [] s t ∧ (chOf t b l).due = 3))

/-- The rows of castling complete (spec/05 R172 to R176): λ16 is switched to the spare where each of its lines is within 1.0 dB of its commissioned power, then
each line is moved with its channels in CASTLING and their lanes on λ16 where that is free, the spare serves after the last one, a spare that fails is given
up, a claim of rank 1 or 2 pauses the line in progress, and a bundle whose comb was replaced comes up again.
Choices of the model that it speaks in: log 2, 9, 32, 51. -/
def Obligations.CastlingRowsComplete : Prop :=
  (∀ (tile c : Nat) (k : Cast) (pow : List Nat) (s : State), (combOfTile s tile c).cast = some k → k.l16 = false →
    (((commOf s tile (spareComb tile c)).zip pow).all (fun q => withinDb q.1 q.2) = true →
      Leaves (.castlingLambda16Switch tile c pow) s (fun t => ∃ line, (combOfTile t tile c).cast = some { k with l16 := true, pow := pow, line := line })) ∧
    (((commOf s tile (spareComb tile c)).zip pow).all (fun q => withinDb q.1 q.2) = false →
      Leaves (.castlingLambda16Switch tile c pow) s (fun t => (combOfTile t tile c).cast = none ∧
        t.pho.spent.contains (tile * 8 + combGroup tile c) = true))) ∧
  (∀ (tile c : Nat) (k : Cast) (s : State), (combOfTile s tile c).cast = some k → k.l16 = true → k.line = false →
    ((∀ b, b ∈ combBundles s.pkg.part tile c → castPaused s b = false) →
      Leaves (.castlingLineMove tile c true) s (fun t => (combOfTile t tile c).cast = some { k with line := true } ∧
        ∀ b, b ∈ combBundles s.pkg.part tile c → (chOf s b (castLine k.moved)).st = 2 → k.moved < 17 →
          (chOf t b (castLine k.moved)).st = 8 ∧ ((chOf s b 16).st = 3 → (bundleOf s b).holder = none → (bundleOf s b).waiting = [] →
            (chOf t b 16).st = 4 ∧ (chOf t b 16).lane = castLine k.moved))) ∧
    (∀ (b : Nat) (pass : Bool), b ∈ combBundles s.pkg.part tile c → castPaused s b = true →
      Leaves (.castlingLineMove tile c pass) s (fun t => t.pho = s.pho))) ∧
  (∀ (tile c : Nat) (k : Cast) (s : State), (combOfTile s tile c).cast = some k → k.l16 = true → k.line = true →
    (k.moved < 16 → Leaves (.castlingLineMove tile c true) s (fun t =>
      (∃ line, (combOfTile t tile c).cast = some { k with moved := k.moved + 1, line := line }) ∧
      ∀ b, b ∈ combBundles s.pkg.part tile c → (chOf s b (castLine k.moved)).st = 8 → (chOf t b (castLine k.moved)).st = 2)) ∧
    (16 ≤ k.moved → Leaves (.castlingLineMove tile c true) s (fun t => (combOfTile t tile c).cast = none ∧ (combOfTile t tile c).onSpare = true)) ∧
    Leaves (.castlingLineMove tile c false) s (fun t => (combOfTile t tile c).cast = none ∧
      t.pho.spent.contains (tile * 8 + combGroup tile c) = true)) ∧
  (∀ (b l b' l' n : Nat) (k : Cast) (s : State), b' < 452 → l' < 18 → n < 18 → (b' ≠ b ∨ l' ≠ l) → l < 18 → l ≠ 16 → 0 < (chOf s b l).mism →
    (chOf s b l).st ≠ 0 → (chOf s b l).st ≠ 7 → (chOf s b l).st ≠ 9 → (combOfTile s (bTile b) (bComb b)).cast = some k →
    Leaves (.identityWordReceived b l (identWord b' l' n)) s (fun t => (combOfTile t (bTile b) (bComb b)).cast = some { k with line := false })) ∧
  (∀ (b : Nat) (bad : List Nat) (cleared : List (Nat × Nat × Nat × Nat)) (s : State), (bundleOf s b).lit = true →
    (combOfTile s (bTile b) (bComb b)).lit = true → (bundleOf s b).st = 3 →
    Leaves (.bundleUp b bad cleared) s (fun t =>
      (∀ l, l < 18 → l ≠ 16 → l ∉ bad → (chOf s b l).st = 1 → (chOf t b l).st = 2 ∧ (chOf t b l).lane = l) ∧
      (∀ l, l < 18 → l ∈ bad → (chOf s b l).st = 1 → (chOf t b l).st = 9) ∧
      (bad = [] → (∀ l, l < 16 → (chOf s b l).st = 1) → (bundleOf t b).st < 3)))

/-- Flits complete (spec/06 R184 to R186, R194): a whole flit with the SEQ expected is accepted and acknowledged, any other draws one NAK, and a NAK has every
flit after the one that it names sent again.
Choices of the model that it speaks in: log 16, 21, 33. -/
def Obligations.FlitRowsComplete : Prop :=
  (∀ (b k : Nat) (svc : Bool) (bs m : List Byte) (corr : Bool) (s : State), bs.length = 256 → bundleOn s.pkg.part b = true →
    (svc = true ∨ isIdle bs = false) → k = linkKey b svc → wholeFlit bs = some (m, corr) → (flitHdr m).kind ≠ 1 →
    ((flitHdr m).seq = (linkOf s k).expect → Leaves (.flitReceived b svc bs) s (fun t => (linkOf t k).expect = ((linkOf s k).expect + 1) % 4096 ∧
      (linkOf t k).nak = false ∧ CtrlSent (mate k) 1 (linkOf s k).expect s t ∧
      (∀ (p : OPkt), (flitHdr m).kind = 2 → asmNeed ⟨(flitHdr m).vc, [(m.drop 7).take 240], 0, 0⟩ ≤ 1 → p = pktOfBodies (flitHdr m).vc [(m.drop 7).take 240] →
        p.op ≠ 6 → p.op ≠ 7 → ∃ g, g ∈ (linkOf t k).arrived ∧ g.pkt = p))) ∧
    ((flitHdr m).seq ≠ (linkOf s k).expect → (linkOf s k).nak = false → Leaves (.flitReceived b svc bs) s (fun t =>
      (linkOf t k).expect = (linkOf s k).expect ∧ (linkOf t k).nak = true ∧
      CtrlSent (mate k) 2 (((linkOf s k).expect + 4095) % 4096) s t)) ∧
    ((flitHdr m).seq ≠ (linkOf s k).expect → (linkOf s k).nak = true → Leaves (.flitReceived b svc bs) s (fun t =>
      (linkOf t k).expect = (linkOf s k).expect ∧ (linkOf t k).naks = (linkOf s k).naks))) ∧
  (∀ (b k : Nat) (svc : Bool) (bs : List Byte) (s : State), bs.length = 256 → bundleOn s.pkg.part b = true → (svc = true ∨ isIdle bs = false) →
    k = linkKey b svc → wholeFlit bs = none → (linkOf s k).nak = false → Leaves (.flitReceived b svc bs) s (fun t =>
      (linkOf t k).expect = (linkOf s k).expect ∧ (linkOf t k).nak = true ∧ CtrlSent (mate k) 2 (((linkOf s k).expect + 4095) % 4096) s t)) ∧
  (∀ (b ack k : Nat) (svc : Bool) (s : State), bundleOn s.pkg.part b = true → k = linkKey b svc →
    Leaves (.nakReceived b svc ack) s (fun t =>
      (linkHeld s k = false → ∃ l, (linkOf t k).wire = l ++ (linkOf s k).wire ∧ ∀ f, f ∈ (linkOf s k).retry → newer 12 f.seq (ack % 4096) = true →
        (∃ g, g ∈ (linkOf t k).retry ∧ g.seq = f.seq ∧ g.body = f.body ∧ g.tries = f.tries + 1) ∧
        ∃ a c n m, flitBytes f.seq a 0 f.vc (kindOf f.head) c n m f.body ∈ l) ∧
      (linkHeld s k = true → (linkOf t k).retry = (linkOf s k).retry.filter (fun f => newer 12 f.seq (ack % 4096)) ∧ (linkOf t k).wire = (linkOf s k).wire) ∧
      ((linkOf s k).waiting = [] → (linkOf t k).retry.map (·.seq) = ((linkOf s k).retry.filter (fun f => newer 12 f.seq (ack % 4096))).map (·.seq)))) ∧
  (∀ (b k : Nat) (svc : Bool) (s : State), k = linkKey b svc → (linkOf s k).nak = true → Leaves (.nakRepeatTimeout b svc) s (fun t =>
    (linkOf t k).nak = true ∧
    (bundleOn s.pkg.part b = true → CtrlSent (mate k) 2 (((linkOf s k).expect + 4095) % 4096) s t)))

/-- Packets on the package complete (spec/06 R188 to R190, R196; spec/08 R238): a WRITE stores its payload, a READ is answered with the bytes, a SIGNAL adds to
its counter, data and completions that come back are entered for their transfer, and a management message is taken in its control term.
Choices of the model that it speaks in: log 16, 27, 33, 34. -/
def Obligations.PackagePacketRowsComplete : Prop :=
  (∀ (p : OPkt) (s : State), PacketTaken 1 p s → endFenced s p.dst = false → bitN p.flags 0 = false → p.poison = 0 → Served s p.addr p.payload.length →
    pktReaches s p true p.addr = true → (dpaOf s.pkg.part p.addr = .hbm → findOf s.mem.flips (p.addr / 64 * 64) = none) →
    Leaves (.write p) s (fun t => getBs t.mem.m p.addr p.payload.length = p.payload ∧ Out.packet 5 p.dst p.src p.tag [1, 0, p.part] [] ∈ t.out ∧
      (∀ x, (x < p.addr ∨ p.addr + p.payload.length ≤ x) → getB t.mem.m x = getB (atMemory p.addr (takePkt p s)).mem.m x) ∧
      t.cores = (atMemory p.addr (takePkt p s)).cores)) ∧
  (∀ (p : OPkt) (s : State), PacketTaken 2 p s → endFenced s p.dst = false → Served s p.addr p.arg → Served s (p.addr / 64 * 64) 64 →
    Unpoisoned (atMemory p.addr (takePkt p s)) p.addr → pktReaches s p false (p.addr / 64 * 64) = true →
    Leaves (.read p [] {}) s (fun t => t.mem.m = (atMemory p.addr (takePkt p s)).mem.m ∧
      Out.packet 3 p.dst p.src p.tag [1, 0, p.part] (getBs (atMemory p.addr (takePkt p s)).mem.m p.addr p.arg) ∈ t.out)) ∧
  (∀ (p : OPkt) (cl : Nat) (s : State), PacketTaken 4 p s → endFenced s p.dst = false → dpaOf s.pkg.part p.addr = .cm cl → cmFenced s cl = false →
    pktReaches s p true p.addr = true → badWords (atMemory p.addr (takePkt p s)).mem.m p.addr 8 [] = [] → EngineSettled s →
    Leaves (.signal p [] {}) s (fun t =>
      getNum t.mem.m p.addr 8 = (getNum (atMemory p.addr (takePkt p s)).mem.m p.addr 8 + p.arg) % 2 ^ 64 ∧ Out.packet 5 p.dst p.src p.tag [1, 0, p.part] [] ∈ t.out)) ∧
  (∀ (p : OPkt) (c : Nat) (q : XReq) (x : Xfer) (s : State), PacketTaken 3 p s → matchTag s p true = some (c, x, q) →
    respStatus p = 1 → 0 < q.n → 0 < p.len → p.len ≤ 64 → p.poison = 0 → mfind x.got q.first = none →
    Leaves (.readData p) s (fun t => getBs t.mem.m (scrBase c + x.scr + 64 * q.first) p.len = p.payload ∧ LineGot t c x.tok q.first 1)) ∧
  (∀ (p : OPkt) (c i : Nat) (q : XReq) (x : Xfer) (s : State), PacketTaken 5 p s → p.dst ≠ 12 → matchTag s p false = some (c, x, q) → i < q.n →
    mfind x.got (q.first + i) = none → Leaves (.completion p) s (fun t => LineGot t c x.tok (q.first + i) (respStatus p))) ∧
  (∀ (p : OPkt) (term kind : Nat) (fields : List Nat) (s : State), PacketTaken 8 p s → p.dst ≠ 12 → siteUp s (epSite p.dst) = true →
    (newer 16 (mget s.mp.ctrlTerm 0 (epSite p.dst)).toNat term = false → Leaves (.mgmt p term kind fields) s (fun t =>
      (mget t.mp.ctrlTerm 0 (epSite p.dst)).toNat = term % 2 ^ 16)) ∧
    (newer 16 (mget s.mp.ctrlTerm 0 (epSite p.dst)).toNat term = true → Leaves (.mgmt p term kind fields) s (fun t =>
      t.mp.ctrlTerm = s.mp.ctrlTerm ∧ t.pwr = s.pwr))) ∧
  (∀ (p : OPkt) (term : Nat) (fields : List Nat) (s : State), PacketTaken 8 p s → p.dst = 12 →
    exec (.mgmt p term 2 fields) s = runEff (fun s => grantAckEff (fields.getD 0 0) (fields.getD 1 0) (takePkt p s)) s ∧
    exec (.mgmt p term 3 fields) s = runEff (fun s => requestEff (fields.getD 0 0) (fields.getD 1 0) (takePkt p s)) s ∧
    exec (.mgmt p term 4 fields) s = runEff (fun s => returnWattsEff (fields.getD 0 0) (fields.getD 1 0) (takePkt p s)) s)

/-- The rows of down ports complete (spec/06 R201 to R207): a reset port begins a handshake with a new epoch, START, the lane test, PROPOSE and CONFIRM lead
through its steps to ACTIVE, a handshake that fails begins again until the third, which fences the port, and a port is reported and retrained.
Choices of the model that it speaks in: log 2, 16, 33. -/
def Obligations.PortRowsComplete : Prop :=
  (∀ (port side : Nat) (s : State), side ≤ 1 → (portSide s port side).state ≠ 3 → portOn s port = true → Leaves (.portPartialReset port side) s (fun t =>
    (portSide t port side).localEp = (portSide s port side).localEp + 1 ∧ (portSide t port side).state = 1 ∧ (portSide t port side).step = 1 ∧
    (∀ (p : PortSide) (m : TrainMsg), p = portSide s port side →
      m = { flags := b2n p.init, epoch := p.localEp + 1, echo := p.peerEp, width := 3, cap := 0, spares := p.sparesUsed } →
      Out.link port 16 [side, leNat (trainBytes 1 m ++ leBytes 4 (trainCrc 1 m).toNat)] ∈ t.out) ∧ (portSide t port side).init = false)) ∧
  (∀ (port side : Nat) (m : TrainMsg) (s : State), side ≤ 1 → (portSide s port side).state ≠ 3 → portOn s port = true →
    trainStale (portSide s port side) 1 m = false → (newer 16 m.epoch.toNat (portSide s port side).peerEp.toNat = true ∨ bitN m.flags 0 = true) →
    Leaves (.start port side m) s (fun t => (portSide t port side).peerEp = m.epoch ∧ (portSide t port side).step = 2 ∧
      (portSide t port side).own = none ∧ (portSide t port side).peer = none ∧ (bitN m.flags 1 = true → (portSide t port side).restart = true))) ∧
  (∀ (port side : Nat) (m : TrainMsg) (s : State), trainStale (portSide s port side) 1 m = true → Leaves (.start port side m) s (fun t =>
    t.xpt.ports = s.xpt.ports)) ∧
  (∀ (port side : Nat) (s : State), (portSide s port side).state = 1 → (portSide s port side).step = 1 → side ≤ 1 →
    Leaves (.startRepeat port side) s (fun t => portSide t port side = { portSide s port side with init := false } ∧
      (∀ (m : TrainMsg), m = trainMsg (portSide s port side) 1 (portSide s port side).cap →
        Out.link port 16 [side, leNat (trainBytes 1 m ++ leBytes 4 m.crc.toNat)] ∈ t.out) ∧
      (∀ q r, r ≤ 1 → (q, r) ≠ (port, side) → portSide t q r = portSide s q r))) ∧
  (∀ (port side : Nat) (failed : List (Nat × Nat)) (s : State), (portSide s port side).state = 1 → (portSide s port side).step = 2 →
    (portSide s port side).peer = none → Leaves (.portLaneTestDone port side failed) s (fun t => (portSide t port side).step = 3 ∧
      (portSide t port side).own = some (proposal failed (portSide s port side).restart (portSide s port side).cap) ∧
      ((∀ g, g < 8 → failed.getD g (0, 0) = (0, 0)) → (portSide s port side).restart = false → (portSide t port side).own = some 3))) ∧
  (∀ (port side : Nat) (m : TrainMsg) (s : State), side ≤ 1 → (portSide s port side).state = 1 → trainStale (portSide s port side) 2 m = false →
    ((portSide s port side).step = 2 → Leaves (.propose port side m) s (fun t => (portSide t port side).peer = some m.width ∧
      (portSide t port side).drive = m.spares ∧ (portSide t port side).step = 2)) ∧
    ((portSide s port side).step = 3 → (portSide s port side).own = some m.width → m.width ≠ 0 → Leaves (.propose port side m) s (fun t =>
      (portSide t port side).step = 4)) ∧
    (∀ (a : Nat), (portSide s port side).step = 3 → (portSide s port side).own = some a → a ≠ m.width → Leaves (.propose port side m) s (fun t =>
      (portSide t port side).step = 1 ∧ (portSide t port side).restart = true ∧ (portSide t port side).cap = lowerWidth a m.width))) ∧
  (∀ (port side : Nat) (m : TrainMsg) (s : State), side ≤ 1 → (portSide s port side).state = 1 → (portSide s port side).step = 4 →
    trainStale (portSide s port side) 3 m = false → (portSide s port side).own = some m.width → Leaves (.confirm port side m) s (fun t =>
      (portSide t port side).state = 2 ∧ (portSide t port side).width = m.width ∧ (portSide t port side).step = 0)) ∧
  (∀ (port side : Nat) (s : State), side ≤ 1 → (portSide s port side).state = 1 → (portSide s port side).step ≠ 0 →
    ((portSide s port 0).fails < 2 → Leaves (.handshakeTimeout port side) s (fun t => (portSide t port 0).fails = (portSide s port 0).fails + 1 ∧
      (portSide t port side).state = 1 ∧ (portSide t port side).step = 1)) ∧
    (2 ≤ (portSide s port 0).fails → Leaves (.handshakeTimeout port side) s (fun t => (portSide t port 0).state = 3 ∧ (portSide t port 1).state = 3))) ∧
  (∀ (port : Nat) (s : State), (portSide s port 0).state = 2 → Leaves (.portFailCountReset port) s (fun t =>
    portSide t port 0 = { portSide s port 0 with fails := 0 })) ∧
  (∀ (port side : Nat) (s : State), side ≤ 1 → (portSide s port side).state = 2 → portOn s port = true → Leaves (.laneMonitorFailure port side) s (fun t =>
    (portSide t port side).localEp = (portSide s port side).localEp + 1 ∧ (portSide t port side).state = 1)) ∧
  (∀ (r : Req) (st p : Nat) (s : State), Reaches 0x0402 r s → st = bitsN (argN r 0) 0 4 → p = bitsN (argN r 0) 8 4 → p < 12 → st < stacksOf s.pkg.part →
    Leaves (.portStatus r) s (AnsweredOk 0x0402 r (wordsOf 2 (portWord s (st * 12 + p))) s)) ∧
  (∀ (r : Req) (st p : Nat) (s : State), Reaches 0x0403 r s → st = bitsN (argN r 0) 0 4 → p = bitsN (argN r 0) 8 4 → p < 12 → st < stacksOf s.pkg.part →
    retrainRefused s (st * 12 + p) = false → portOn s (st * 12 + p) = true → Leaves (.portRetrain r) s (fun t => AnsweredOk 0x0403 r [] s t ∧
      (portSide t (st * 12 + p) 0).localEp = (portSide s (st * 12 + p) 0).localEp + 1 ∧ (portSide t (st * 12 + p) 0).state = 1))

/-- The rows of observation and test complete (spec/16 R446, R451, R453 to R460): a counter is read extended, a test begins and ends with its result word, a
node leaves the test land, and a trace sample moves on to the next core and stalls the one sampled. Of the test access port's instructions the
public ones act, IDCODE shifting the identification out; the boundary instructions act while HWRST# is asserted, and otherwise as BYPASS, as a
private instruction does outside production test mode, in which it stops by name.
Choices of the model that it speaks in: log 2, 9, 40. -/
def Obligations.ObservationRowsComplete : Prop :=
  (∀ (r : Req) (i : CtrInst) (v : Nat) (s : State), Reaches 0x0A00 r s → ctrInst s (argN r 0) (argN r 1) = some i → i.ok = true → i.present = true →
    v = ((extend (mget s.obs.ctrs {} (ctrKey (argN r 0) (argN r 1)))).ext.toNat + if argN r 0 = 2 then waitElapsed s (cwNum (argN r 1)) else 0) % 2 ^ 64 →
    Leaves (.ctrRead r) s (AnsweredOk 0x0A00 r (wordsOf 2 v) s)) ∧
  (∀ (r : Req) (s : State), Reaches 0x0A01 r s → TicketFree s → testBadArg (argN r 1) (argN r 0) (argN r 2) = none →
    ((dieGranular (argN r 1) = true ∧ unitIdle s (argN r 0) = true ∧ testBusy s (argN r 0) = false ∧ siteAbsent s (argN r 0) = false) ∨
      (argN r 1 = 2 ∧ siteAbsent s (argN r 0) = false) ∨
      (kindAtb (argN r 1) = true ∧ (if kindBundle (argN r 1) then bundleOn s.pkg.part (argN r 0) = true else siteAbsent s (argN r 0) = false) ∧
        atbInUse s (testDie { ticket := 0, kind := argN r 1, site := argN r 0, a2 := argN r 2 }) = false)) →
    Leaves (.testRun r) s (fun t => Accepted 0x0A01 r s t ∧
      ({ ticket := s.mp.nextTicket.toNat, kind := argN r 1, site := argN r 0, a2 := argN r 2 } : TestRun) ∈ t.obs.tests)) ∧
  (∀ (r : Req) (s : State), Reaches 0x0A01 r s → TicketFree s → testBadArg (argN r 1) (argN r 0) (argN r 2) = none → kindTrace (argN r 1) = true →
    siteAbsent s (argN r 0) = false → Leaves (.testRun r) s (fun t => Accepted 0x0A01 r s t ∧ Ended s t stOK ∧
      mget t.obs.trace 0 (argN r 0) = if argN r 1 = 0x3F then 0 else mget s.obs.trace 0 (argN r 0) ||| 2 ^ (argN r 1 - 0x30))) ∧
  (∀ (tk v : Nat) (f : TestFind) (x : TestRun) (k : Ticket) (s : State), s.obs.tests.find? (fun t => t.ticket == tk) = some x → kindTrace x.kind = false →
    x.kind ≠ 0x12 → kindAtb x.kind = false →
    v = (if x.kind ≤ 2 then x.found else if x.kind = 3 then (portSide s ((x.site - 0x20) * 12 + x.a2 / 256) 0).width else f.value) →
    mfind s.mp.tickets tk = some k → k.done = false →
    Leaves (.testDone tk f) s (fun t => t.obs.tests = s.obs.tests.filter (fun u => u.ticket != tk) ∧
      ∃ j, mfind t.mp.tickets tk = some j ∧ j.done = true ∧ j.status = stOK ∧ j.words = [BitVec.ofNat 32
        ((if x.preempted then 3 else if f.failed ≠ [] then 1 else if f.skipped then 2 else 0) * 2 ^ 24 + min 255 f.failed.length * 2 ^ 16 +
          v % 2 ^ 16)])) ∧
  (∀ (die bus : Nat) (s : State), (∀ x, mfind s.obs.atb (die * 2 + bus) = some x → x.2 + 10 ^ 10 ≤ s.now) →
    Leaves (.atbDisconnect die bus) s (fun t => mfind t.obs.atb (die * 2 + bus) = none)) ∧
  (∀ (die bus : Nat) (x : Nat × Nat) (s : State), mfind s.obs.atb (die * 2 + bus) = some x → s.now < x.2 + 10 ^ 10 →
    Leaves (.atbDisconnect die bus) s (fun t => mfind t.obs.atb (die * 2 + bus) = some x)) ∧
  (∀ (site i : Nat) (l : List Nat) (s : State), traceOn s site 0 = true → isKC site = true → l = namedOn s (site - 0x20) → l ≠ [] →
    i = mget s.obs.rotation 0 site → (∀ x, mfind s.obs.sampleAt site = some x → x + 10000 ≤ s.now) →
    Leaves (.traceSample site) s (fun t => mget t.obs.rotation 0 site = (i + 1) % l.length ∧ mfind t.obs.sampleAt site = some s.now ∧
      ∀ d, d ∈ l → coreCluster d = coreCluster (l.getD (i % l.length) 0) → issueCycle s d + 2 ≤ (coreAt t d).nextCyc)) ∧
  (∀ (i : Nat) (s : State), i ≤ 2 → Leaves (.jtagInstruction i) s (fun t => t.obs.tap = i ∧ (i = 0 → Out.tap (idcode s) ∈ t.out))) ∧
  (∀ (i : Nat) (s : State), 3 ≤ i → i ≤ 5 → Leaves (.jtagInstruction i) s (fun t => t.obs.tap = if s.pins.hwrst then i else 1)) ∧
  (∀ (i : Nat) (s : State), 5 < i → s.pins.testSampled = false → Leaves (.jtagInstruction i) s (fun t => t.obs.tap = 1)) ∧
  (∀ (i : Nat) (s : State), 5 < i → s.pins.testSampled = true → exec (.jtagInstruction i) s = .refused .privateTestInstruction)

/-- The rows of the guest die complete (spec/14 R420 to R423): a packet that the firewall turns away is counted, one of a partition without a job is
answered BAD_WINDOW, a write, a read and a signal inside the window are carried out, a link loss is counted, the third in an hour fences the guest, and
the link comes up again.
Choices of the model that it speaks in: log 9, 16, 39. -/
def Obligations.GuestRowsComplete : Prop :=
  (∀ (p : OPkt) (fs : List LineFind) (e : Ecc) (s : State), s.guest.linkUp = true → s.guest.fenced = false → running s = true →
    (p.vc = 7 ∨ pktBad p = true ∨ (p.op ≠ 1 ∧ p.op ≠ 2 ∧ p.op ≠ 4)) → Leaves (.guestPacket p fs e) s (fun t =>
      t.guest.violCount = s.guest.violCount + 1 ∧ t.mem = s.mem ∧
      ∀ k tag l f, Out.guest k tag l f ∈ t.out → Out.guest k tag l f ∈ s.out)) ∧
  (∀ (p : OPkt) (fs : List LineFind) (e : Ecc) (s : State), s.guest.linkUp = true → s.guest.fenced = false → running s = true →
    p.vc ≠ 7 → pktBad p = false → p.op = 4 → guestSig s = false → Leaves (.guestPacket p fs e) s (fun t =>
      t.guest.violCount = s.guest.violCount + 1 ∧ t.mem = s.mem ∧ Out.guest 5 p.tag [6, 0] [] ∈ t.out)) ∧
  (∀ (p : OPkt) (fs : List LineFind) (e : Ecc) (s : State), s.guest.linkUp = true → s.guest.fenced = false → running s = true →
    p.vc ≠ 7 → pktBad p = false → (p.op = 1 ∨ p.op = 2) → (job s (guestPart s)).state ≠ 1 → Leaves (.guestPacket p fs e) s (fun t =>
      t.mem = s.mem ∧ Out.guest (if p.op = 2 then 3 else 5) p.tag [6, 0] [] ∈ t.out)) ∧
  (∀ (p : OPkt) (q : Part) (s : State), GuestAdmitted s p → p.op = 1 → p.poison = 0 → part s (guestPart s) = some q → reaches s q true p.addr = true →
    Served s p.addr p.payload.length → (dpaOf s.pkg.part p.addr = .hbm → findOf s.mem.flips (p.addr / 64 * 64) = none) →
    Leaves (.guestPacket p [] {}) s (fun t => t.guest = s.guest ∧
      getBs t.mem.m p.addr p.payload.length = p.payload ∧ Out.guest 5 p.tag [1, 0] [] ∈ t.out)) ∧
  (∀ (p : OPkt) (q : Part) (s : State), GuestAdmitted s p → p.op = 2 → part s (guestPart s) = some q → reaches s q false (p.addr / 64 * 64) = true →
    Served s p.addr p.arg → Served s (p.addr / 64 * 64) 64 → Unpoisoned (atMemory p.addr s) p.addr → Leaves (.guestPacket p [] {}) s (fun t =>
      t.guest = s.guest ∧ t.mem.m = (atMemory p.addr s).mem.m ∧ Out.guest 3 p.tag [1, 0] (getBs (atMemory p.addr s).mem.m p.addr p.arg) ∈ t.out)) ∧
  (∀ (p : OPkt) (q : Part) (cl : Nat) (s : State), GuestAdmitted s p → p.op = 4 → guestSig s = true → part s (guestPart s) = some q →
    reaches s q true p.addr = true → dpaOf s.pkg.part p.addr = .cm cl → cmFenced s cl = false → EngineSettled s → Leaves (.guestPacket p [] {}) s (fun t =>
      getNum t.mem.m p.addr 8 = (getNum (atMemory p.addr s).mem.m p.addr 8 + p.arg) % 2 ^ 64 ∧ Out.guest 5 p.tag [1, 0] [] ∈ t.out)) ∧
  (∀ (s : State), s.guest.linkUp = true → Leaves .guestLinkDown s (fun t => t.guest.linkUp = false ∧ t.guest.losses.head? = some s.now ∧
    (2 ≤ (s.guest.losses.filter (fun t => decide (s.now < t + 3600000000000))).length → t.guest.fenced = true))) ∧
  (∀ (s : State), s.guest.fitted = true → guestOn s = true → s.guest.fenced = false → running s = true → Leaves .guestLinkUp s (fun t =>
    t.guest = { s.guest with linkUp := true }))

/-- A step carries out the command at the front of the queue on the rest of the queue; where none waits, a tick of one nanosecond passes and the queue
stays empty. (The tick is the model's choice: log 3.) -/
def Obligations.StepCarriesOutTheFront : Prop :=
  (∀ (c : Instr) (rest : List Instr) (s : State), step { s with pending := c :: rest } = exec c { s with pending := rest }) ∧
  (∀ (s : State), s.pending = [] → ∃ t, step s = .next t ∧ t.now = s.now + 1 ∧ t.pending = [])

/-- No command touches the queue of commands: it is the sender's own. -/
def Obligations.CommandsLeaveTheQueue : Prop :=
  ∀ (c : Instr) (s t : State), exec c s = .next t → t.pending = s.pending

/-- After every step no vector is left pending that may be sent (spec/11 R344): a vector whose cause has risen has gone, or is masked.
Choices of the model that it speaks in: log 15. -/
def Obligations.StepsSendTheirVectors : Prop :=
  ∀ (s t : State), VectorsSent s → step s = .next t → VectorsSent t

/-- HEALTH_SEQ rises by one, modulo 2^32, with every command that changes another register of the health summary (spec/11 R347); in OFF the block is
gone.
Choices of the model that it speaks in: log 15. -/
def Obligations.HealthSeqCountsChanges : Prop :=
  ∀ (c : Instr) (s t : State), exec c s = .next t → t.pkg.power ≠ 3 → healthRegs s ≠ healthRegs t → t.hl.healthSeq = s.hl.healthSeq + 1

/-- What reset leaves, where the spec gives a value (spec/02 R61, R67, R76; spec/04 R126; spec/05 R147; spec/09 R291; spec/11 R347; spec/13 R388): HEALTH reads 0x0000_8000 and the other
registers of its block 0, every core's context is clear with its tiles in FP mode (at power-up: log 4), memory lists nothing, reads 0 (log 6) and holds its canonical form, the
queue is empty, and no vector is left to be sent (the MSI-X table at reset: log 18). -/
def Obligations.ResetLeaves : Prop :=
  healthRegs State.reset = [0x8000#32, 0#32, 0#32, 0#32, 0#32, 0#32] ∧ State.reset.hl.healthSeq = 0 ∧
  (∀ c, coreCtx State.reset c = {} ∧ (coreAt State.reset c).cond = .idle ∧ ∀ k, getTok State.reset c k = .free) ∧
  (∀ a, getB State.reset.mem.m a = 0 ∧ isPoison State.reset.mem.m a = false) ∧ Memory.wf State.reset.mem.m = true ∧
  (∀ m, (stackAt State.reset m).spare = .free ∧ (stackAt State.reset m).retired = []) ∧ tlShare State.reset = 0 ∧
  (∀ g, g < 4 → bitsN (cfgEff State.reset 3 g) 0 7 = 24) ∧ (∀ pkg, (peerOf State.reset pkg).rate = 25600000) ∧ State.reset.pending = [] ∧ VectorsSent State.reset

/-- The frame of the rows that write a core's own registers: where the core goes on and no post of it is still to be taken (spec/02 R66), memory, every
other core, the partitions, the jobs, the fabric, the photonic layer and the configuration are as before. -/
def Obligations.RegisterRowsTouchTheirCoreAlone : Prop :=
  ∀ (c : Nat) (w : BitVec 64) (i : Instr) (s t : State), RegisterRow c w i → (∀ d, (coreAt s c).wait ≠ .dpost d) →
    (pipeOf s (coreCluster c)).loads.all (fun x => x.core != c) = true →
    exec i s = .next t → (coreAt t c).cond = .issuing →
    t.mem = s.mem ∧ (∀ d, d ≠ c → coreAt t d = coreAt s d) ∧ t.parts = s.parts ∧ t.jobs = s.jobs ∧ t.fab = s.fab ∧ t.pho = s.pho ∧ t.cfg = s.cfg

/-- The frame of the commands that report: the answer goes out, and no core, partition, job, port, ring, die's clock or budget changes; nor, but for an answer
that itself goes out into the fabric (spec/12 R362), memory, the fabric or a setting. -/
def Obligations.ReportsChangeNothing : Prop :=
  ∀ (r : Req) (i : Instr) (s t : State), ReportRow r i → exec i s = .next t →
    t.cores = s.cores ∧ t.parts = s.parts ∧ t.jobs = s.jobs ∧ t.pho = s.pho ∧ t.xpt.ports = s.xpt.ports ∧ t.pwr = s.pwr ∧ t.clk.dies = s.clk.dies ∧
    t.pod = s.pod ∧ t.guest = s.guest ∧ t.upd = s.upd ∧ ((∀ p q, r.chan ≠ .fm p q) → t.mem = s.mem ∧ t.fab = s.fab ∧ t.cfg = s.cfg)

/-- The frame of the rows of channels: where no bundle changes its state, no core, memory, partition, job, port or setting changes,
and no comb but one whose castling pauses. -/
def Obligations.ChannelRowsStayInTheLayer : Prop :=
  ∀ (b l ring x : Nat) (tr rr : List Nat) (f : Bool) (w : Word32) (m1 m2 : CalMeas) (i : Instr) (s t : State),
    ChannelRow b l ring x tr rr f w m1 m2 i → exec i s = .next t → t.pho.bundles = s.pho.bundles →
    t.cores = s.cores ∧ t.mem.m = s.mem.m ∧ t.parts = s.parts ∧ t.jobs = s.jobs ∧ t.fab = s.fab ∧ t.xpt.ports = s.xpt.ports ∧ t.cfg = s.cfg ∧
    (∀ k, (mget s.pho.combs {} k).cast = none → mget t.pho.combs {} k = mget s.pho.combs {} k)

/-- The engine writes its own area alone (spec/10 R309): whatever record, frame or ring entry it takes and whatever session it frees, every byte of memory
outside its 640 MiB is as before.
Choices of the model that it speaks in: log 15, 31. -/
def Obligations.EngineWritesItsAreaAlone : Prop :=
  ∀ (host : Bool) (ip port session nonce peer n : Nat) (bs : List Byte) (fs : List LineFind) (i : Instr) (s t : State),
    RecordRow host ip port session nonce peer n bs fs i → exec i s = .next t → EngineSettled s →
    ∀ a, (a < engBase s ∨ engBase s + 640 * 2 ^ 20 ≤ a) → getB t.mem.m a = getB s.mem.m a

/-- The interleave of HBM4 is one to one (spec/04 R127, R128): no two addresses stand at one place of one stack, and no two offsets of a stack at one place of
one pseudo-channel. -/
def Obligations.InterleaveIsOneToOne : Prop :=
  (∀ (pt k a b : Nat), (pt = 1 ∨ pt = 2) → k ≤ 48 → a < hbmSize pt → b < hbmSize pt → hbmMap pt k a = hbmMap pt k b → a = b) ∧
  (∀ (o p : Nat), pcMap o = pcMap p → o = p)

/-- BRK (spec/02 R60): with no debugger attached it acts as NOP and the core's break counter rises by one; with a debugger attached the core halts at it, and
the other cores are as they were.
Choices of the model that it speaks in: log 1. -/
def Obligations.BreakHaltsOnlyUnderADebugger : Prop :=
  ∀ (c : Nat) (w : BitVec 64) (s r : State), Issues c w .brk s r →
    ((coreAt r c).debugger = false → NotLast c r → Leaves (.brk c w) s (fun t => Goes c r t (coreCtx r c) ∧
      (mget t.obs.ctrs {} (ctrKey 4 (wordOfCore c))).raw = (mget s.obs.ctrs {} (ctrKey 4 (wordOfCore c))).raw + 1)) ∧
    ((coreAt r c).debugger = true → Leaves (.brk c w) s (fun t => (coreAt t c).cond = .brk ∧ coreCtx t c = coreCtx r c ∧
      ∀ d, d ≠ c → coreAt t d = coreAt s d))

/-- Training messages (spec/06 R203): a message is ignored whose CRC fails, whose EPOCH is older than PEER_EPOCH with INIT clear, or, for PROPOSE and CONFIRM,
whose ECHO is not the receiver's LOCAL_EPOCH. (The CRC is that of bytes 0 to 11 of the message of R202, which its TYPE begins.) A START of a newer EPOCH, or with INIT, is accepted: PEER_EPOCH takes its EPOCH, what was agreed before is
dropped, and the lane test follows. -/
def Obligations.StaleTrainingMessagesAreIgnored : Prop :=
  ∀ (port side : Nat) (m : TrainMsg) (s : State),
    ((m.crc ≠ trainCrc 1 m ∨ (newer 16 (portSide s port side).peerEp.toNat m.epoch.toNat = true ∧ bitN m.flags 0 = false)) →
      Leaves (.start port side m) s (fun t => t.xpt.ports = s.xpt.ports)) ∧
    ((m.crc ≠ trainCrc 2 m ∨ (newer 16 (portSide s port side).peerEp.toNat m.epoch.toNat = true ∧ bitN m.flags 0 = false)) →
      Leaves (.propose port side m) s (fun t => t.xpt.ports = s.xpt.ports)) ∧
    ((m.crc ≠ trainCrc 3 m ∨ (newer 16 (portSide s port side).peerEp.toNat m.epoch.toNat = true ∧ bitN m.flags 0 = false)) →
      Leaves (.confirm port side m) s (fun t => t.xpt.ports = s.xpt.ports)) ∧
    (m.echo ≠ (portSide s port side).localEp → Leaves (.propose port side m) s (fun t => t.xpt.ports = s.xpt.ports) ∧
      Leaves (.confirm port side m) s (fun t => t.xpt.ports = s.xpt.ports)) ∧
    (side ≤ 1 → (portSide s port side).state ≠ 3 → portOn s port = true → m.crc = trainCrc 1 m → m.width ≤ 3 → m.cap ≤ 3 →
      ((newer 16 m.epoch.toNat (portSide s port side).peerEp.toNat = true ∧ newer 16 (portSide s port side).peerEp.toNat m.epoch.toNat = false) ∨
        bitN m.flags 0 = true) →
      Leaves (.start port side m) s (fun t => (portSide t port side).peerEp = m.epoch ∧ (portSide t port side).own = none ∧
        (portSide t port side).peer = none ∧ (portSide t port side).step = 2))

/-- A word that R57 calls illegal is never executed (spec/02 R51, R57, R73): whichever row issues it, the core faults at it and its partition's plan is
aborted.
Choices of the model that it speaks in: log 1. -/
def Obligations.IllegalWordsFault : Prop :=
  ∀ (c : Nat) (w : BitVec 64) (e : Ecc) (i : Instr) (s : State), CoreRow c w e i → canIssue s c = true → fetchWord s c = some w → decodeWord w = none →
    Leaves i s (Faults c s)

/-- The identity word of a channel is decoded to what it was built from (spec/05 R150): the word is valid, and its fields are the bundle, the wavelength and the
lane. -/
def Obligations.IdentityWordsDecode : Prop :=
  ∀ (b l n : Nat), b < 452 → l < 18 → n < 18 → identOk (identWord b l n) = true ∧ bitsN (identWord b l n).toNat 23 9 = b ∧
    bitsN (identWord b l n).toNat 18 5 = l ∧ bitsN (identWord b l n).toNat 13 5 = n ∧ bitsN (identWord b l n).toNat 8 5 = 0

/-- The modes of tiles (spec/02 R67): TZERO names the tile in IMM[2:0], clears it, and sets it to FP mode by minor 0x00 and to INT mode by minor 0x01;
a TMMA of an INT tile and a TSLICE of an FP tile raise TILE_MODE (code 0x06 of R73) where no fault of a lower code is met; a context reset leaves
every tile in FP mode and zero.
Choices of the model that it speaks in: log 1. -/
def Obligations.TileModesAreKept : Prop :=
  (∀ (w : BitVec 64) (int : Bool) (t0 : Nat), decodeWord w = some (.tzero int t0) → t0 = fImm w % 8 ∧ fMinor w = b2n int) ∧
  (∀ (c t0 : Nat) (int : Bool) (w : BitVec 64) (e : Ecc) (s r y : State), Issues c w (.tzero int t0) s r →
    y = awaitTile c t0 e (issued c (.tzero int t0) r) → stillRuns y c = true → NotLast c y → Leaves (.tzero c w e) s (fun t => getTile t c t0 = { int := int, els := [] } ∧
      tileEls (getTile t c t0) = List.replicate 128 0 ∧ ∀ k, k ≠ t0 → getTile t c k = getTile y c k)) ∧
  (∀ (c td ga gb nch : Nat) (fa fb : Fm) (mxa mxb acc : Bool) (w : BitVec 64) (s r : State), Issues c w (.tmma td fa fb ga gb nch mxa mxb acc) s r →
    scrFault (coreAt r c) 64 (getG r c ga).toNat (operandBytes (fmD (fmId fa)) 16 nch mxa) = none →
    scrFault (coreAt r c) 64 (getG r c gb).toNat (operandBytes (fmD (fmId fb)) 8 nch mxb) = none →
    (getTile r c td).int = true → exec (.tmma c w) s = .next (closing s (coreFault c 6 (issued c (.tmma td fa fb ga gb nch mxa mxb acc) r)))) ∧
  (∀ (c td shift ga gb nch : Nat) (ua ub acc : Bool) (w : BitVec 64) (s r : State), Issues c w (.tslice td shift ua ub ga gb nch acc) s r →
    scrFault (coreAt r c) 64 (getG r c ga).toNat (operandBytes (fmD 10) 16 nch false) = none →
    scrFault (coreAt r c) 64 (getG r c gb).toNat (operandBytes (fmD 10) 8 nch false) = none →
    (getTile r c td).int = false → exec (.tslice c w) s = .next (closing s (coreFault c 6 (issued c (.tslice td shift ua ub ga gb nch acc) r)))) ∧
  (∀ (r : Req) (c k : Nat) (s : State), Reaches 0x0202 r s → CoreNamed s (argN r 0) c → coreIdle s c = true →
    Leaves (.ctxReset r) s (fun t => (getTile t c k).int = false ∧ tileEls (getTile t c k) = List.replicate 128 0))
end

