-- ==== Sys2Proof/Laws/State.lean ====
section
/-! SUPPORT. State.lean: for each named update of State, the fields that it leaves alone. -/
namespace Sys2Proof.Machine

variable (s : State)

/-! ### setDie -/
@[simp] theorem setDie_pending (site : Nat) (d : DieClk) : (setDie s site d).pending = s.pending := rfl
@[simp] theorem setDie_now (site : Nat) (d : DieClk) : (setDie s site d).now = s.now := rfl
@[simp] theorem setDie_fresh (site : Nat) (d : DieClk) : (setDie s site d).fresh = s.fresh := rfl
@[simp] theorem setDie_out (site : Nat) (d : DieClk) : (setDie s site d).out = s.out := rfl
@[simp] theorem setDie_pins (site : Nat) (d : DieClk) : (setDie s site d).pins = s.pins := rfl
@[simp] theorem setDie_fuses (site : Nat) (d : DieClk) : (setDie s site d).fuses = s.fuses := rfl
@[simp] theorem setDie_pkg (site : Nat) (d : DieClk) : (setDie s site d).pkg = s.pkg := rfl
@[simp] theorem setDie_aon (site : Nat) (d : DieClk) : (setDie s site d).aon = s.aon := rfl
@[simp] theorem setDie_evq (site : Nat) (d : DieClk) : (setDie s site d).evq = s.evq := rfl
@[simp] theorem setDie_hp (site : Nat) (d : DieClk) : (setDie s site d).hp = s.hp := rfl
@[simp] theorem setDie_hl (site : Nat) (d : DieClk) : (setDie s site d).hl = s.hl := rfl
@[simp] theorem setDie_mp (site : Nat) (d : DieClk) : (setDie s site d).mp = s.mp := rfl
@[simp] theorem setDie_mp2 (site : Nat) (d : DieClk) : (setDie s site d).mp2 = s.mp2 := rfl
@[simp] theorem setDie_pod (site : Nat) (d : DieClk) : (setDie s site d).pod = s.pod := rfl
@[simp] theorem setDie_pod2 (site : Nat) (d : DieClk) : (setDie s site d).pod2 = s.pod2 := rfl
@[simp] theorem setDie_cfg (site : Nat) (d : DieClk) : (setDie s site d).cfg = s.cfg := rfl
@[simp] theorem setDie_guest (site : Nat) (d : DieClk) : (setDie s site d).guest = s.guest := rfl
@[simp] theorem setDie_obs (site : Nat) (d : DieClk) : (setDie s site d).obs = s.obs := rfl
@[simp] theorem setDie_rel (site : Nat) (d : DieClk) : (setDie s site d).rel = s.rel := rfl
@[simp] theorem setDie_pwr (site : Nat) (d : DieClk) : (setDie s site d).pwr = s.pwr := rfl
@[simp] theorem setDie_upd (site : Nat) (d : DieClk) : (setDie s site d).upd = s.upd := rfl
@[simp] theorem setDie_parts (site : Nat) (d : DieClk) : (setDie s site d).parts = s.parts := rfl
@[simp] theorem setDie_jobs (site : Nat) (d : DieClk) : (setDie s site d).jobs = s.jobs := rfl
@[simp] theorem setDie_cores (site : Nat) (d : DieClk) : (setDie s site d).cores = s.cores := rfl
@[simp] theorem setDie_mem (site : Nat) (d : DieClk) : (setDie s site d).mem = s.mem := rfl
@[simp] theorem setDie_sync (site : Nat) (d : DieClk) : (setDie s site d).sync = s.sync := rfl
@[simp] theorem setDie_fab (site : Nat) (d : DieClk) : (setDie s site d).fab = s.fab := rfl
@[simp] theorem setDie_eng (site : Nat) (d : DieClk) : (setDie s site d).eng = s.eng := rfl
@[simp] theorem setDie_pho (site : Nat) (d : DieClk) : (setDie s site d).pho = s.pho := rfl
@[simp] theorem setDie_xpt (site : Nat) (d : DieClk) : (setDie s site d).xpt = s.xpt := rfl

/-! ### setRood -/
@[simp] theorem setRood_pending (site id : Nat) (r : Rood) : (setRood s site id r).pending = s.pending := rfl
@[simp] theorem setRood_now (site id : Nat) (r : Rood) : (setRood s site id r).now = s.now := rfl
@[simp] theorem setRood_fresh (site id : Nat) (r : Rood) : (setRood s site id r).fresh = s.fresh := rfl
@[simp] theorem setRood_out (site id : Nat) (r : Rood) : (setRood s site id r).out = s.out := rfl
@[simp] theorem setRood_pins (site id : Nat) (r : Rood) : (setRood s site id r).pins = s.pins := rfl
@[simp] theorem setRood_fuses (site id : Nat) (r : Rood) : (setRood s site id r).fuses = s.fuses := rfl
@[simp] theorem setRood_pkg (site id : Nat) (r : Rood) : (setRood s site id r).pkg = s.pkg := rfl
@[simp] theorem setRood_aon (site id : Nat) (r : Rood) : (setRood s site id r).aon = s.aon := rfl
@[simp] theorem setRood_evq (site id : Nat) (r : Rood) : (setRood s site id r).evq = s.evq := rfl
@[simp] theorem setRood_hp (site id : Nat) (r : Rood) : (setRood s site id r).hp = s.hp := rfl
@[simp] theorem setRood_hl (site id : Nat) (r : Rood) : (setRood s site id r).hl = s.hl := rfl
@[simp] theorem setRood_mp (site id : Nat) (r : Rood) : (setRood s site id r).mp = s.mp := rfl
@[simp] theorem setRood_mp2 (site id : Nat) (r : Rood) : (setRood s site id r).mp2 = s.mp2 := rfl
@[simp] theorem setRood_pod (site id : Nat) (r : Rood) : (setRood s site id r).pod = s.pod := rfl
@[simp] theorem setRood_pod2 (site id : Nat) (r : Rood) : (setRood s site id r).pod2 = s.pod2 := rfl
@[simp] theorem setRood_cfg (site id : Nat) (r : Rood) : (setRood s site id r).cfg = s.cfg := rfl
@[simp] theorem setRood_guest (site id : Nat) (r : Rood) : (setRood s site id r).guest = s.guest := rfl
@[simp] theorem setRood_obs (site id : Nat) (r : Rood) : (setRood s site id r).obs = s.obs := rfl
@[simp] theorem setRood_rel (site id : Nat) (r : Rood) : (setRood s site id r).rel = s.rel := rfl
@[simp] theorem setRood_pwr (site id : Nat) (r : Rood) : (setRood s site id r).pwr = s.pwr := rfl
@[simp] theorem setRood_upd (site id : Nat) (r : Rood) : (setRood s site id r).upd = s.upd := rfl
@[simp] theorem setRood_parts (site id : Nat) (r : Rood) : (setRood s site id r).parts = s.parts := rfl
@[simp] theorem setRood_jobs (site id : Nat) (r : Rood) : (setRood s site id r).jobs = s.jobs := rfl
@[simp] theorem setRood_cores (site id : Nat) (r : Rood) : (setRood s site id r).cores = s.cores := rfl
@[simp] theorem setRood_mem (site id : Nat) (r : Rood) : (setRood s site id r).mem = s.mem := rfl
@[simp] theorem setRood_sync (site id : Nat) (r : Rood) : (setRood s site id r).sync = s.sync := rfl
@[simp] theorem setRood_fab (site id : Nat) (r : Rood) : (setRood s site id r).fab = s.fab := rfl
@[simp] theorem setRood_eng (site id : Nat) (r : Rood) : (setRood s site id r).eng = s.eng := rfl
@[simp] theorem setRood_pho (site id : Nat) (r : Rood) : (setRood s site id r).pho = s.pho := rfl
@[simp] theorem setRood_xpt (site id : Nat) (r : Rood) : (setRood s site id r).xpt = s.xpt := rfl

/-! ### send -/
@[simp] theorem send_pending (o : Out) : (send o s).pending = s.pending := rfl
@[simp] theorem send_now (o : Out) : (send o s).now = s.now := rfl
@[simp] theorem send_fresh (o : Out) : (send o s).fresh = s.fresh := rfl
@[simp] theorem send_pins (o : Out) : (send o s).pins = s.pins := rfl
@[simp] theorem send_fuses (o : Out) : (send o s).fuses = s.fuses := rfl
@[simp] theorem send_pkg (o : Out) : (send o s).pkg = s.pkg := rfl
@[simp] theorem send_aon (o : Out) : (send o s).aon = s.aon := rfl
@[simp] theorem send_clk (o : Out) : (send o s).clk = s.clk := rfl
@[simp] theorem send_evq (o : Out) : (send o s).evq = s.evq := rfl
@[simp] theorem send_hp (o : Out) : (send o s).hp = s.hp := rfl
@[simp] theorem send_hl (o : Out) : (send o s).hl = s.hl := rfl
@[simp] theorem send_mp (o : Out) : (send o s).mp = s.mp := rfl
@[simp] theorem send_mp2 (o : Out) : (send o s).mp2 = s.mp2 := rfl
@[simp] theorem send_pod (o : Out) : (send o s).pod = s.pod := rfl
@[simp] theorem send_pod2 (o : Out) : (send o s).pod2 = s.pod2 := rfl
@[simp] theorem send_cfg (o : Out) : (send o s).cfg = s.cfg := rfl
@[simp] theorem send_guest (o : Out) : (send o s).guest = s.guest := rfl
@[simp] theorem send_obs (o : Out) : (send o s).obs = s.obs := rfl
@[simp] theorem send_rel (o : Out) : (send o s).rel = s.rel := rfl
@[simp] theorem send_pwr (o : Out) : (send o s).pwr = s.pwr := rfl
@[simp] theorem send_upd (o : Out) : (send o s).upd = s.upd := rfl
@[simp] theorem send_parts (o : Out) : (send o s).parts = s.parts := rfl
@[simp] theorem send_jobs (o : Out) : (send o s).jobs = s.jobs := rfl
@[simp] theorem send_cores (o : Out) : (send o s).cores = s.cores := rfl
@[simp] theorem send_mem (o : Out) : (send o s).mem = s.mem := rfl
@[simp] theorem send_sync (o : Out) : (send o s).sync = s.sync := rfl
@[simp] theorem send_fab (o : Out) : (send o s).fab = s.fab := rfl
@[simp] theorem send_eng (o : Out) : (send o s).eng = s.eng := rfl
@[simp] theorem send_pho (o : Out) : (send o s).pho = s.pho := rfl
@[simp] theorem send_xpt (o : Out) : (send o s).xpt = s.xpt := rfl

/-! ### bump -/
@[simp] theorem bump_pending (id inst n : Nat) : (bump id inst n s).pending = s.pending := rfl
@[simp] theorem bump_now (id inst n : Nat) : (bump id inst n s).now = s.now := rfl
@[simp] theorem bump_fresh (id inst n : Nat) : (bump id inst n s).fresh = s.fresh := rfl
@[simp] theorem bump_out (id inst n : Nat) : (bump id inst n s).out = s.out := rfl
@[simp] theorem bump_pins (id inst n : Nat) : (bump id inst n s).pins = s.pins := rfl
@[simp] theorem bump_fuses (id inst n : Nat) : (bump id inst n s).fuses = s.fuses := rfl
@[simp] theorem bump_pkg (id inst n : Nat) : (bump id inst n s).pkg = s.pkg := rfl
@[simp] theorem bump_aon (id inst n : Nat) : (bump id inst n s).aon = s.aon := rfl
@[simp] theorem bump_clk (id inst n : Nat) : (bump id inst n s).clk = s.clk := rfl
@[simp] theorem bump_evq (id inst n : Nat) : (bump id inst n s).evq = s.evq := rfl
@[simp] theorem bump_hp (id inst n : Nat) : (bump id inst n s).hp = s.hp := rfl
@[simp] theorem bump_hl (id inst n : Nat) : (bump id inst n s).hl = s.hl := rfl
@[simp] theorem bump_mp (id inst n : Nat) : (bump id inst n s).mp = s.mp := rfl
@[simp] theorem bump_mp2 (id inst n : Nat) : (bump id inst n s).mp2 = s.mp2 := rfl
@[simp] theorem bump_pod (id inst n : Nat) : (bump id inst n s).pod = s.pod := rfl
@[simp] theorem bump_pod2 (id inst n : Nat) : (bump id inst n s).pod2 = s.pod2 := rfl
@[simp] theorem bump_cfg (id inst n : Nat) : (bump id inst n s).cfg = s.cfg := rfl
@[simp] theorem bump_guest (id inst n : Nat) : (bump id inst n s).guest = s.guest := rfl
@[simp] theorem bump_rel (id inst n : Nat) : (bump id inst n s).rel = s.rel := rfl
@[simp] theorem bump_pwr (id inst n : Nat) : (bump id inst n s).pwr = s.pwr := rfl
@[simp] theorem bump_upd (id inst n : Nat) : (bump id inst n s).upd = s.upd := rfl
@[simp] theorem bump_parts (id inst n : Nat) : (bump id inst n s).parts = s.parts := rfl
@[simp] theorem bump_jobs (id inst n : Nat) : (bump id inst n s).jobs = s.jobs := rfl
@[simp] theorem bump_cores (id inst n : Nat) : (bump id inst n s).cores = s.cores := rfl
@[simp] theorem bump_mem (id inst n : Nat) : (bump id inst n s).mem = s.mem := rfl
@[simp] theorem bump_sync (id inst n : Nat) : (bump id inst n s).sync = s.sync := rfl
@[simp] theorem bump_fab (id inst n : Nat) : (bump id inst n s).fab = s.fab := rfl
@[simp] theorem bump_eng (id inst n : Nat) : (bump id inst n s).eng = s.eng := rfl
@[simp] theorem bump_pho (id inst n : Nat) : (bump id inst n s).pho = s.pho := rfl
@[simp] theorem bump_xpt (id inst n : Nat) : (bump id inst n s).xpt = s.xpt := rfl

/-! ### emitW -/
@[simp] theorem emitW_pending (src id code : Nat) (args : List (BitVec 64)) : (emitW src id code args s).pending = s.pending := rfl
@[simp] theorem emitW_now (src id code : Nat) (args : List (BitVec 64)) : (emitW src id code args s).now = s.now := rfl
@[simp] theorem emitW_fresh (src id code : Nat) (args : List (BitVec 64)) : (emitW src id code args s).fresh = s.fresh := rfl
@[simp] theorem emitW_out (src id code : Nat) (args : List (BitVec 64)) : (emitW src id code args s).out = s.out := rfl
@[simp] theorem emitW_pins (src id code : Nat) (args : List (BitVec 64)) : (emitW src id code args s).pins = s.pins := rfl
@[simp] theorem emitW_fuses (src id code : Nat) (args : List (BitVec 64)) : (emitW src id code args s).fuses = s.fuses := rfl
@[simp] theorem emitW_pkg (src id code : Nat) (args : List (BitVec 64)) : (emitW src id code args s).pkg = s.pkg := rfl
@[simp] theorem emitW_aon (src id code : Nat) (args : List (BitVec 64)) : (emitW src id code args s).aon = s.aon := rfl
@[simp] theorem emitW_clk (src id code : Nat) (args : List (BitVec 64)) : (emitW src id code args s).clk = s.clk := rfl
@[simp] theorem emitW_hp (src id code : Nat) (args : List (BitVec 64)) : (emitW src id code args s).hp = s.hp := rfl
@[simp] theorem emitW_hl (src id code : Nat) (args : List (BitVec 64)) : (emitW src id code args s).hl = s.hl := rfl
@[simp] theorem emitW_mp (src id code : Nat) (args : List (BitVec 64)) : (emitW src id code args s).mp = s.mp := rfl
@[simp] theorem emitW_mp2 (src id code : Nat) (args : List (BitVec 64)) : (emitW src id code args s).mp2 = s.mp2 := rfl
@[simp] theorem emitW_pod (src id code : Nat) (args : List (BitVec 64)) : (emitW src id code args s).pod = s.pod := rfl
@[simp] theorem emitW_pod2 (src id code : Nat) (args : List (BitVec 64)) : (emitW src id code args s).pod2 = s.pod2 := rfl
@[simp] theorem emitW_cfg (src id code : Nat) (args : List (BitVec 64)) : (emitW src id code args s).cfg = s.cfg := rfl
@[simp] theorem emitW_guest (src id code : Nat) (args : List (BitVec 64)) : (emitW src id code args s).guest = s.guest := rfl
@[simp] theorem emitW_obs (src id code : Nat) (args : List (BitVec 64)) : (emitW src id code args s).obs = s.obs := rfl
@[simp] theorem emitW_rel (src id code : Nat) (args : List (BitVec 64)) : (emitW src id code args s).rel = s.rel := rfl
@[simp] theorem emitW_pwr (src id code : Nat) (args : List (BitVec 64)) : (emitW src id code args s).pwr = s.pwr := rfl
@[simp] theorem emitW_upd (src id code : Nat) (args : List (BitVec 64)) : (emitW src id code args s).upd = s.upd := rfl
@[simp] theorem emitW_parts (src id code : Nat) (args : List (BitVec 64)) : (emitW src id code args s).parts = s.parts := rfl
@[simp] theorem emitW_jobs (src id code : Nat) (args : List (BitVec 64)) : (emitW src id code args s).jobs = s.jobs := rfl
@[simp] theorem emitW_cores (src id code : Nat) (args : List (BitVec 64)) : (emitW src id code args s).cores = s.cores := rfl
@[simp] theorem emitW_mem (src id code : Nat) (args : List (BitVec 64)) : (emitW src id code args s).mem = s.mem := rfl
@[simp] theorem emitW_sync (src id code : Nat) (args : List (BitVec 64)) : (emitW src id code args s).sync = s.sync := rfl
@[simp] theorem emitW_fab (src id code : Nat) (args : List (BitVec 64)) : (emitW src id code args s).fab = s.fab := rfl
@[simp] theorem emitW_eng (src id code : Nat) (args : List (BitVec 64)) : (emitW src id code args s).eng = s.eng := rfl
@[simp] theorem emitW_pho (src id code : Nat) (args : List (BitVec 64)) : (emitW src id code args s).pho = s.pho := rfl
@[simp] theorem emitW_xpt (src id code : Nat) (args : List (BitVec 64)) : (emitW src id code args s).xpt = s.xpt := rfl

/-! ### emit -/
@[simp] theorem emit_pending (src code : Nat) (args : List Nat) : (emit src code args s).pending = s.pending := rfl
@[simp] theorem emit_now (src code : Nat) (args : List Nat) : (emit src code args s).now = s.now := rfl
@[simp] theorem emit_fresh (src code : Nat) (args : List Nat) : (emit src code args s).fresh = s.fresh := rfl
@[simp] theorem emit_out (src code : Nat) (args : List Nat) : (emit src code args s).out = s.out := rfl
@[simp] theorem emit_pins (src code : Nat) (args : List Nat) : (emit src code args s).pins = s.pins := rfl
@[simp] theorem emit_fuses (src code : Nat) (args : List Nat) : (emit src code args s).fuses = s.fuses := rfl
@[simp] theorem emit_pkg (src code : Nat) (args : List Nat) : (emit src code args s).pkg = s.pkg := rfl
@[simp] theorem emit_aon (src code : Nat) (args : List Nat) : (emit src code args s).aon = s.aon := rfl
@[simp] theorem emit_clk (src code : Nat) (args : List Nat) : (emit src code args s).clk = s.clk := rfl
@[simp] theorem emit_hp (src code : Nat) (args : List Nat) : (emit src code args s).hp = s.hp := rfl
@[simp] theorem emit_hl (src code : Nat) (args : List Nat) : (emit src code args s).hl = s.hl := rfl
@[simp] theorem emit_mp (src code : Nat) (args : List Nat) : (emit src code args s).mp = s.mp := rfl
@[simp] theorem emit_mp2 (src code : Nat) (args : List Nat) : (emit src code args s).mp2 = s.mp2 := rfl
@[simp] theorem emit_pod (src code : Nat) (args : List Nat) : (emit src code args s).pod = s.pod := rfl
@[simp] theorem emit_pod2 (src code : Nat) (args : List Nat) : (emit src code args s).pod2 = s.pod2 := rfl
@[simp] theorem emit_cfg (src code : Nat) (args : List Nat) : (emit src code args s).cfg = s.cfg := rfl
@[simp] theorem emit_guest (src code : Nat) (args : List Nat) : (emit src code args s).guest = s.guest := rfl
@[simp] theorem emit_obs (src code : Nat) (args : List Nat) : (emit src code args s).obs = s.obs := rfl
@[simp] theorem emit_rel (src code : Nat) (args : List Nat) : (emit src code args s).rel = s.rel := rfl
@[simp] theorem emit_pwr (src code : Nat) (args : List Nat) : (emit src code args s).pwr = s.pwr := rfl
@[simp] theorem emit_upd (src code : Nat) (args : List Nat) : (emit src code args s).upd = s.upd := rfl
@[simp] theorem emit_parts (src code : Nat) (args : List Nat) : (emit src code args s).parts = s.parts := rfl
@[simp] theorem emit_jobs (src code : Nat) (args : List Nat) : (emit src code args s).jobs = s.jobs := rfl
@[simp] theorem emit_cores (src code : Nat) (args : List Nat) : (emit src code args s).cores = s.cores := rfl
@[simp] theorem emit_mem (src code : Nat) (args : List Nat) : (emit src code args s).mem = s.mem := rfl
@[simp] theorem emit_sync (src code : Nat) (args : List Nat) : (emit src code args s).sync = s.sync := rfl
@[simp] theorem emit_fab (src code : Nat) (args : List Nat) : (emit src code args s).fab = s.fab := rfl
@[simp] theorem emit_eng (src code : Nat) (args : List Nat) : (emit src code args s).eng = s.eng := rfl
@[simp] theorem emit_pho (src code : Nat) (args : List Nat) : (emit src code args s).pho = s.pho := rfl
@[simp] theorem emit_xpt (src code : Nat) (args : List Nat) : (emit src code args s).xpt = s.xpt := rfl

/-! ### emitRood -/
@[simp] theorem emitRood_pending (src id code : Nat) (args : List Nat) : (emitRood src id code args s).pending = s.pending := rfl
@[simp] theorem emitRood_now (src id code : Nat) (args : List Nat) : (emitRood src id code args s).now = s.now := rfl
@[simp] theorem emitRood_fresh (src id code : Nat) (args : List Nat) : (emitRood src id code args s).fresh = s.fresh := rfl
@[simp] theorem emitRood_out (src id code : Nat) (args : List Nat) : (emitRood src id code args s).out = s.out := rfl
@[simp] theorem emitRood_pins (src id code : Nat) (args : List Nat) : (emitRood src id code args s).pins = s.pins := rfl
@[simp] theorem emitRood_fuses (src id code : Nat) (args : List Nat) : (emitRood src id code args s).fuses = s.fuses := rfl
@[simp] theorem emitRood_pkg (src id code : Nat) (args : List Nat) : (emitRood src id code args s).pkg = s.pkg := rfl
@[simp] theorem emitRood_aon (src id code : Nat) (args : List Nat) : (emitRood src id code args s).aon = s.aon := rfl
@[simp] theorem emitRood_clk (src id code : Nat) (args : List Nat) : (emitRood src id code args s).clk = s.clk := rfl
@[simp] theorem emitRood_hp (src id code : Nat) (args : List Nat) : (emitRood src id code args s).hp = s.hp := rfl
@[simp] theorem emitRood_hl (src id code : Nat) (args : List Nat) : (emitRood src id code args s).hl = s.hl := rfl
@[simp] theorem emitRood_mp (src id code : Nat) (args : List Nat) : (emitRood src id code args s).mp = s.mp := rfl
@[simp] theorem emitRood_mp2 (src id code : Nat) (args : List Nat) : (emitRood src id code args s).mp2 = s.mp2 := rfl
@[simp] theorem emitRood_pod (src id code : Nat) (args : List Nat) : (emitRood src id code args s).pod = s.pod := rfl
@[simp] theorem emitRood_pod2 (src id code : Nat) (args : List Nat) : (emitRood src id code args s).pod2 = s.pod2 := rfl
@[simp] theorem emitRood_cfg (src id code : Nat) (args : List Nat) : (emitRood src id code args s).cfg = s.cfg := rfl
@[simp] theorem emitRood_guest (src id code : Nat) (args : List Nat) : (emitRood src id code args s).guest = s.guest := rfl
@[simp] theorem emitRood_obs (src id code : Nat) (args : List Nat) : (emitRood src id code args s).obs = s.obs := rfl
@[simp] theorem emitRood_rel (src id code : Nat) (args : List Nat) : (emitRood src id code args s).rel = s.rel := rfl
@[simp] theorem emitRood_pwr (src id code : Nat) (args : List Nat) : (emitRood src id code args s).pwr = s.pwr := rfl
@[simp] theorem emitRood_upd (src id code : Nat) (args : List Nat) : (emitRood src id code args s).upd = s.upd := rfl
@[simp] theorem emitRood_parts (src id code : Nat) (args : List Nat) : (emitRood src id code args s).parts = s.parts := rfl
@[simp] theorem emitRood_jobs (src id code : Nat) (args : List Nat) : (emitRood src id code args s).jobs = s.jobs := rfl
@[simp] theorem emitRood_cores (src id code : Nat) (args : List Nat) : (emitRood src id code args s).cores = s.cores := rfl
@[simp] theorem emitRood_mem (src id code : Nat) (args : List Nat) : (emitRood src id code args s).mem = s.mem := rfl
@[simp] theorem emitRood_sync (src id code : Nat) (args : List Nat) : (emitRood src id code args s).sync = s.sync := rfl
@[simp] theorem emitRood_fab (src id code : Nat) (args : List Nat) : (emitRood src id code args s).fab = s.fab := rfl
@[simp] theorem emitRood_eng (src id code : Nat) (args : List Nat) : (emitRood src id code args s).eng = s.eng := rfl
@[simp] theorem emitRood_pho (src id code : Nat) (args : List Nat) : (emitRood src id code args s).pho = s.pho := rfl
@[simp] theorem emitRood_xpt (src id code : Nat) (args : List Nat) : (emitRood src id code args s).xpt = s.xpt := rfl

/-! ### emitMp -/
@[simp] theorem emitMp_pending (code : Nat) (args : List Nat) : (emitMp code args s).pending = s.pending := rfl
@[simp] theorem emitMp_now (code : Nat) (args : List Nat) : (emitMp code args s).now = s.now := rfl
@[simp] theorem emitMp_fresh (code : Nat) (args : List Nat) : (emitMp code args s).fresh = s.fresh := rfl
@[simp] theorem emitMp_out (code : Nat) (args : List Nat) : (emitMp code args s).out = s.out := rfl
@[simp] theorem emitMp_pins (code : Nat) (args : List Nat) : (emitMp code args s).pins = s.pins := rfl
@[simp] theorem emitMp_fuses (code : Nat) (args : List Nat) : (emitMp code args s).fuses = s.fuses := rfl
@[simp] theorem emitMp_pkg (code : Nat) (args : List Nat) : (emitMp code args s).pkg = s.pkg := rfl
@[simp] theorem emitMp_aon (code : Nat) (args : List Nat) : (emitMp code args s).aon = s.aon := rfl
@[simp] theorem emitMp_clk (code : Nat) (args : List Nat) : (emitMp code args s).clk = s.clk := rfl
@[simp] theorem emitMp_hp (code : Nat) (args : List Nat) : (emitMp code args s).hp = s.hp := rfl
@[simp] theorem emitMp_hl (code : Nat) (args : List Nat) : (emitMp code args s).hl = s.hl := rfl
@[simp] theorem emitMp_mp (code : Nat) (args : List Nat) : (emitMp code args s).mp = s.mp := rfl
@[simp] theorem emitMp_mp2 (code : Nat) (args : List Nat) : (emitMp code args s).mp2 = s.mp2 := rfl
@[simp] theorem emitMp_pod (code : Nat) (args : List Nat) : (emitMp code args s).pod = s.pod := rfl
@[simp] theorem emitMp_pod2 (code : Nat) (args : List Nat) : (emitMp code args s).pod2 = s.pod2 := rfl
@[simp] theorem emitMp_cfg (code : Nat) (args : List Nat) : (emitMp code args s).cfg = s.cfg := rfl
@[simp] theorem emitMp_guest (code : Nat) (args : List Nat) : (emitMp code args s).guest = s.guest := rfl
@[simp] theorem emitMp_obs (code : Nat) (args : List Nat) : (emitMp code args s).obs = s.obs := rfl
@[simp] theorem emitMp_rel (code : Nat) (args : List Nat) : (emitMp code args s).rel = s.rel := rfl
@[simp] theorem emitMp_pwr (code : Nat) (args : List Nat) : (emitMp code args s).pwr = s.pwr := rfl
@[simp] theorem emitMp_upd (code : Nat) (args : List Nat) : (emitMp code args s).upd = s.upd := rfl
@[simp] theorem emitMp_parts (code : Nat) (args : List Nat) : (emitMp code args s).parts = s.parts := rfl
@[simp] theorem emitMp_jobs (code : Nat) (args : List Nat) : (emitMp code args s).jobs = s.jobs := rfl
@[simp] theorem emitMp_cores (code : Nat) (args : List Nat) : (emitMp code args s).cores = s.cores := rfl
@[simp] theorem emitMp_mem (code : Nat) (args : List Nat) : (emitMp code args s).mem = s.mem := rfl
@[simp] theorem emitMp_sync (code : Nat) (args : List Nat) : (emitMp code args s).sync = s.sync := rfl
@[simp] theorem emitMp_fab (code : Nat) (args : List Nat) : (emitMp code args s).fab = s.fab := rfl
@[simp] theorem emitMp_eng (code : Nat) (args : List Nat) : (emitMp code args s).eng = s.eng := rfl
@[simp] theorem emitMp_pho (code : Nat) (args : List Nat) : (emitMp code args s).pho = s.pho := rfl
@[simp] theorem emitMp_xpt (code : Nat) (args : List Nat) : (emitMp code args s).xpt = s.xpt := rfl

/-! ### releaseEvents -/
@[simp] theorem releaseEvents_pending (src : Nat) : (releaseEvents src s).pending = s.pending := rfl
@[simp] theorem releaseEvents_now (src : Nat) : (releaseEvents src s).now = s.now := rfl
@[simp] theorem releaseEvents_fresh (src : Nat) : (releaseEvents src s).fresh = s.fresh := rfl
@[simp] theorem releaseEvents_out (src : Nat) : (releaseEvents src s).out = s.out := rfl
@[simp] theorem releaseEvents_pins (src : Nat) : (releaseEvents src s).pins = s.pins := rfl
@[simp] theorem releaseEvents_fuses (src : Nat) : (releaseEvents src s).fuses = s.fuses := rfl
@[simp] theorem releaseEvents_pkg (src : Nat) : (releaseEvents src s).pkg = s.pkg := rfl
@[simp] theorem releaseEvents_aon (src : Nat) : (releaseEvents src s).aon = s.aon := rfl
@[simp] theorem releaseEvents_clk (src : Nat) : (releaseEvents src s).clk = s.clk := rfl
@[simp] theorem releaseEvents_hp (src : Nat) : (releaseEvents src s).hp = s.hp := rfl
@[simp] theorem releaseEvents_hl (src : Nat) : (releaseEvents src s).hl = s.hl := rfl
@[simp] theorem releaseEvents_mp (src : Nat) : (releaseEvents src s).mp = s.mp := rfl
@[simp] theorem releaseEvents_mp2 (src : Nat) : (releaseEvents src s).mp2 = s.mp2 := rfl
@[simp] theorem releaseEvents_pod (src : Nat) : (releaseEvents src s).pod = s.pod := rfl
@[simp] theorem releaseEvents_pod2 (src : Nat) : (releaseEvents src s).pod2 = s.pod2 := rfl
@[simp] theorem releaseEvents_cfg (src : Nat) : (releaseEvents src s).cfg = s.cfg := rfl
@[simp] theorem releaseEvents_guest (src : Nat) : (releaseEvents src s).guest = s.guest := rfl
@[simp] theorem releaseEvents_obs (src : Nat) : (releaseEvents src s).obs = s.obs := rfl
@[simp] theorem releaseEvents_rel (src : Nat) : (releaseEvents src s).rel = s.rel := rfl
@[simp] theorem releaseEvents_pwr (src : Nat) : (releaseEvents src s).pwr = s.pwr := rfl
@[simp] theorem releaseEvents_upd (src : Nat) : (releaseEvents src s).upd = s.upd := rfl
@[simp] theorem releaseEvents_parts (src : Nat) : (releaseEvents src s).parts = s.parts := rfl
@[simp] theorem releaseEvents_jobs (src : Nat) : (releaseEvents src s).jobs = s.jobs := rfl
@[simp] theorem releaseEvents_cores (src : Nat) : (releaseEvents src s).cores = s.cores := rfl
@[simp] theorem releaseEvents_mem (src : Nat) : (releaseEvents src s).mem = s.mem := rfl
@[simp] theorem releaseEvents_sync (src : Nat) : (releaseEvents src s).sync = s.sync := rfl
@[simp] theorem releaseEvents_fab (src : Nat) : (releaseEvents src s).fab = s.fab := rfl
@[simp] theorem releaseEvents_eng (src : Nat) : (releaseEvents src s).eng = s.eng := rfl
@[simp] theorem releaseEvents_pho (src : Nat) : (releaseEvents src s).pho = s.pho := rfl
@[simp] theorem releaseEvents_xpt (src : Nat) : (releaseEvents src s).xpt = s.xpt := rfl

/-! ### setPart -/
@[simp] theorem setPart_pending (pt : Nat) (p : Part) : (setPart s pt p).pending = s.pending := rfl
@[simp] theorem setPart_now (pt : Nat) (p : Part) : (setPart s pt p).now = s.now := rfl
@[simp] theorem setPart_fresh (pt : Nat) (p : Part) : (setPart s pt p).fresh = s.fresh := rfl
@[simp] theorem setPart_out (pt : Nat) (p : Part) : (setPart s pt p).out = s.out := rfl
@[simp] theorem setPart_pins (pt : Nat) (p : Part) : (setPart s pt p).pins = s.pins := rfl
@[simp] theorem setPart_fuses (pt : Nat) (p : Part) : (setPart s pt p).fuses = s.fuses := rfl
@[simp] theorem setPart_pkg (pt : Nat) (p : Part) : (setPart s pt p).pkg = s.pkg := rfl
@[simp] theorem setPart_aon (pt : Nat) (p : Part) : (setPart s pt p).aon = s.aon := rfl
@[simp] theorem setPart_clk (pt : Nat) (p : Part) : (setPart s pt p).clk = s.clk := rfl
@[simp] theorem setPart_evq (pt : Nat) (p : Part) : (setPart s pt p).evq = s.evq := rfl
@[simp] theorem setPart_hp (pt : Nat) (p : Part) : (setPart s pt p).hp = s.hp := rfl
@[simp] theorem setPart_hl (pt : Nat) (p : Part) : (setPart s pt p).hl = s.hl := rfl
@[simp] theorem setPart_mp (pt : Nat) (p : Part) : (setPart s pt p).mp = s.mp := rfl
@[simp] theorem setPart_mp2 (pt : Nat) (p : Part) : (setPart s pt p).mp2 = s.mp2 := rfl
@[simp] theorem setPart_pod (pt : Nat) (p : Part) : (setPart s pt p).pod = s.pod := rfl
@[simp] theorem setPart_pod2 (pt : Nat) (p : Part) : (setPart s pt p).pod2 = s.pod2 := rfl
@[simp] theorem setPart_cfg (pt : Nat) (p : Part) : (setPart s pt p).cfg = s.cfg := rfl
@[simp] theorem setPart_guest (pt : Nat) (p : Part) : (setPart s pt p).guest = s.guest := rfl
@[simp] theorem setPart_obs (pt : Nat) (p : Part) : (setPart s pt p).obs = s.obs := rfl
@[simp] theorem setPart_rel (pt : Nat) (p : Part) : (setPart s pt p).rel = s.rel := rfl
@[simp] theorem setPart_pwr (pt : Nat) (p : Part) : (setPart s pt p).pwr = s.pwr := rfl
@[simp] theorem setPart_upd (pt : Nat) (p : Part) : (setPart s pt p).upd = s.upd := rfl
@[simp] theorem setPart_jobs (pt : Nat) (p : Part) : (setPart s pt p).jobs = s.jobs := rfl
@[simp] theorem setPart_cores (pt : Nat) (p : Part) : (setPart s pt p).cores = s.cores := rfl
@[simp] theorem setPart_mem (pt : Nat) (p : Part) : (setPart s pt p).mem = s.mem := rfl
@[simp] theorem setPart_sync (pt : Nat) (p : Part) : (setPart s pt p).sync = s.sync := rfl
@[simp] theorem setPart_fab (pt : Nat) (p : Part) : (setPart s pt p).fab = s.fab := rfl
@[simp] theorem setPart_eng (pt : Nat) (p : Part) : (setPart s pt p).eng = s.eng := rfl
@[simp] theorem setPart_pho (pt : Nat) (p : Part) : (setPart s pt p).pho = s.pho := rfl
@[simp] theorem setPart_xpt (pt : Nat) (p : Part) : (setPart s pt p).xpt = s.xpt := rfl

/-! ### setJob -/
@[simp] theorem setJob_pending (pt : Nat) (j : Job) : (setJob s pt j).pending = s.pending := rfl
@[simp] theorem setJob_now (pt : Nat) (j : Job) : (setJob s pt j).now = s.now := rfl
@[simp] theorem setJob_fresh (pt : Nat) (j : Job) : (setJob s pt j).fresh = s.fresh := rfl
@[simp] theorem setJob_out (pt : Nat) (j : Job) : (setJob s pt j).out = s.out := rfl
@[simp] theorem setJob_pins (pt : Nat) (j : Job) : (setJob s pt j).pins = s.pins := rfl
@[simp] theorem setJob_fuses (pt : Nat) (j : Job) : (setJob s pt j).fuses = s.fuses := rfl
@[simp] theorem setJob_pkg (pt : Nat) (j : Job) : (setJob s pt j).pkg = s.pkg := rfl
@[simp] theorem setJob_aon (pt : Nat) (j : Job) : (setJob s pt j).aon = s.aon := rfl
@[simp] theorem setJob_clk (pt : Nat) (j : Job) : (setJob s pt j).clk = s.clk := rfl
@[simp] theorem setJob_evq (pt : Nat) (j : Job) : (setJob s pt j).evq = s.evq := rfl
@[simp] theorem setJob_hp (pt : Nat) (j : Job) : (setJob s pt j).hp = s.hp := rfl
@[simp] theorem setJob_hl (pt : Nat) (j : Job) : (setJob s pt j).hl = s.hl := rfl
@[simp] theorem setJob_mp (pt : Nat) (j : Job) : (setJob s pt j).mp = s.mp := rfl
@[simp] theorem setJob_mp2 (pt : Nat) (j : Job) : (setJob s pt j).mp2 = s.mp2 := rfl
@[simp] theorem setJob_pod (pt : Nat) (j : Job) : (setJob s pt j).pod = s.pod := rfl
@[simp] theorem setJob_pod2 (pt : Nat) (j : Job) : (setJob s pt j).pod2 = s.pod2 := rfl
@[simp] theorem setJob_cfg (pt : Nat) (j : Job) : (setJob s pt j).cfg = s.cfg := rfl
@[simp] theorem setJob_guest (pt : Nat) (j : Job) : (setJob s pt j).guest = s.guest := rfl
@[simp] theorem setJob_obs (pt : Nat) (j : Job) : (setJob s pt j).obs = s.obs := rfl
@[simp] theorem setJob_rel (pt : Nat) (j : Job) : (setJob s pt j).rel = s.rel := rfl
@[simp] theorem setJob_pwr (pt : Nat) (j : Job) : (setJob s pt j).pwr = s.pwr := rfl
@[simp] theorem setJob_upd (pt : Nat) (j : Job) : (setJob s pt j).upd = s.upd := rfl
@[simp] theorem setJob_parts (pt : Nat) (j : Job) : (setJob s pt j).parts = s.parts := rfl
@[simp] theorem setJob_cores (pt : Nat) (j : Job) : (setJob s pt j).cores = s.cores := rfl
@[simp] theorem setJob_mem (pt : Nat) (j : Job) : (setJob s pt j).mem = s.mem := rfl
@[simp] theorem setJob_sync (pt : Nat) (j : Job) : (setJob s pt j).sync = s.sync := rfl
@[simp] theorem setJob_fab (pt : Nat) (j : Job) : (setJob s pt j).fab = s.fab := rfl
@[simp] theorem setJob_eng (pt : Nat) (j : Job) : (setJob s pt j).eng = s.eng := rfl
@[simp] theorem setJob_pho (pt : Nat) (j : Job) : (setJob s pt j).pho = s.pho := rfl
@[simp] theorem setJob_xpt (pt : Nat) (j : Job) : (setJob s pt j).xpt = s.xpt := rfl

/-! ### setCfg -/
@[simp] theorem setCfg_pending (item inst : Nat) (c : CfgItem) : (setCfg s item inst c).pending = s.pending := rfl
@[simp] theorem setCfg_now (item inst : Nat) (c : CfgItem) : (setCfg s item inst c).now = s.now := rfl
@[simp] theorem setCfg_fresh (item inst : Nat) (c : CfgItem) : (setCfg s item inst c).fresh = s.fresh := rfl
@[simp] theorem setCfg_out (item inst : Nat) (c : CfgItem) : (setCfg s item inst c).out = s.out := rfl
@[simp] theorem setCfg_pins (item inst : Nat) (c : CfgItem) : (setCfg s item inst c).pins = s.pins := rfl
@[simp] theorem setCfg_fuses (item inst : Nat) (c : CfgItem) : (setCfg s item inst c).fuses = s.fuses := rfl
@[simp] theorem setCfg_pkg (item inst : Nat) (c : CfgItem) : (setCfg s item inst c).pkg = s.pkg := rfl
@[simp] theorem setCfg_aon (item inst : Nat) (c : CfgItem) : (setCfg s item inst c).aon = s.aon := rfl
@[simp] theorem setCfg_clk (item inst : Nat) (c : CfgItem) : (setCfg s item inst c).clk = s.clk := rfl
@[simp] theorem setCfg_evq (item inst : Nat) (c : CfgItem) : (setCfg s item inst c).evq = s.evq := rfl
@[simp] theorem setCfg_hp (item inst : Nat) (c : CfgItem) : (setCfg s item inst c).hp = s.hp := rfl
@[simp] theorem setCfg_hl (item inst : Nat) (c : CfgItem) : (setCfg s item inst c).hl = s.hl := rfl
@[simp] theorem setCfg_mp (item inst : Nat) (c : CfgItem) : (setCfg s item inst c).mp = s.mp := rfl
@[simp] theorem setCfg_mp2 (item inst : Nat) (c : CfgItem) : (setCfg s item inst c).mp2 = s.mp2 := rfl
@[simp] theorem setCfg_pod (item inst : Nat) (c : CfgItem) : (setCfg s item inst c).pod = s.pod := rfl
@[simp] theorem setCfg_pod2 (item inst : Nat) (c : CfgItem) : (setCfg s item inst c).pod2 = s.pod2 := rfl
@[simp] theorem setCfg_guest (item inst : Nat) (c : CfgItem) : (setCfg s item inst c).guest = s.guest := rfl
@[simp] theorem setCfg_obs (item inst : Nat) (c : CfgItem) : (setCfg s item inst c).obs = s.obs := rfl
@[simp] theorem setCfg_rel (item inst : Nat) (c : CfgItem) : (setCfg s item inst c).rel = s.rel := rfl
@[simp] theorem setCfg_pwr (item inst : Nat) (c : CfgItem) : (setCfg s item inst c).pwr = s.pwr := rfl
@[simp] theorem setCfg_upd (item inst : Nat) (c : CfgItem) : (setCfg s item inst c).upd = s.upd := rfl
@[simp] theorem setCfg_parts (item inst : Nat) (c : CfgItem) : (setCfg s item inst c).parts = s.parts := rfl
@[simp] theorem setCfg_jobs (item inst : Nat) (c : CfgItem) : (setCfg s item inst c).jobs = s.jobs := rfl
@[simp] theorem setCfg_cores (item inst : Nat) (c : CfgItem) : (setCfg s item inst c).cores = s.cores := rfl
@[simp] theorem setCfg_mem (item inst : Nat) (c : CfgItem) : (setCfg s item inst c).mem = s.mem := rfl
@[simp] theorem setCfg_sync (item inst : Nat) (c : CfgItem) : (setCfg s item inst c).sync = s.sync := rfl
@[simp] theorem setCfg_fab (item inst : Nat) (c : CfgItem) : (setCfg s item inst c).fab = s.fab := rfl
@[simp] theorem setCfg_eng (item inst : Nat) (c : CfgItem) : (setCfg s item inst c).eng = s.eng := rfl
@[simp] theorem setCfg_pho (item inst : Nat) (c : CfgItem) : (setCfg s item inst c).pho = s.pho := rfl
@[simp] theorem setCfg_xpt (item inst : Nat) (c : CfgItem) : (setCfg s item inst c).xpt = s.xpt := rfl

/-! ### setMem -/
@[simp] theorem setMem_pending (m : Mem) : (setMem s m).pending = s.pending := rfl
@[simp] theorem setMem_now (m : Mem) : (setMem s m).now = s.now := rfl
@[simp] theorem setMem_fresh (m : Mem) : (setMem s m).fresh = s.fresh := rfl
@[simp] theorem setMem_out (m : Mem) : (setMem s m).out = s.out := rfl
@[simp] theorem setMem_pins (m : Mem) : (setMem s m).pins = s.pins := rfl
@[simp] theorem setMem_fuses (m : Mem) : (setMem s m).fuses = s.fuses := rfl
@[simp] theorem setMem_pkg (m : Mem) : (setMem s m).pkg = s.pkg := rfl
@[simp] theorem setMem_aon (m : Mem) : (setMem s m).aon = s.aon := rfl
@[simp] theorem setMem_clk (m : Mem) : (setMem s m).clk = s.clk := rfl
@[simp] theorem setMem_evq (m : Mem) : (setMem s m).evq = s.evq := rfl
@[simp] theorem setMem_hp (m : Mem) : (setMem s m).hp = s.hp := rfl
@[simp] theorem setMem_hl (m : Mem) : (setMem s m).hl = s.hl := rfl
@[simp] theorem setMem_mp (m : Mem) : (setMem s m).mp = s.mp := rfl
@[simp] theorem setMem_mp2 (m : Mem) : (setMem s m).mp2 = s.mp2 := rfl
@[simp] theorem setMem_pod (m : Mem) : (setMem s m).pod = s.pod := rfl
@[simp] theorem setMem_pod2 (m : Mem) : (setMem s m).pod2 = s.pod2 := rfl
@[simp] theorem setMem_cfg (m : Mem) : (setMem s m).cfg = s.cfg := rfl
@[simp] theorem setMem_guest (m : Mem) : (setMem s m).guest = s.guest := rfl
@[simp] theorem setMem_obs (m : Mem) : (setMem s m).obs = s.obs := rfl
@[simp] theorem setMem_rel (m : Mem) : (setMem s m).rel = s.rel := rfl
@[simp] theorem setMem_pwr (m : Mem) : (setMem s m).pwr = s.pwr := rfl
@[simp] theorem setMem_upd (m : Mem) : (setMem s m).upd = s.upd := rfl
@[simp] theorem setMem_parts (m : Mem) : (setMem s m).parts = s.parts := rfl
@[simp] theorem setMem_jobs (m : Mem) : (setMem s m).jobs = s.jobs := rfl
@[simp] theorem setMem_cores (m : Mem) : (setMem s m).cores = s.cores := rfl
@[simp] theorem setMem_sync (m : Mem) : (setMem s m).sync = s.sync := rfl
@[simp] theorem setMem_fab (m : Mem) : (setMem s m).fab = s.fab := rfl
@[simp] theorem setMem_eng (m : Mem) : (setMem s m).eng = s.eng := rfl
@[simp] theorem setMem_pho (m : Mem) : (setMem s m).pho = s.pho := rfl
@[simp] theorem setMem_xpt (m : Mem) : (setMem s m).xpt = s.xpt := rfl

/-! ### setCore -/
@[simp] theorem setCore_pending (c : Nat) (k : Core) : (setCore s c k).pending = s.pending := rfl
@[simp] theorem setCore_now (c : Nat) (k : Core) : (setCore s c k).now = s.now := rfl
@[simp] theorem setCore_fresh (c : Nat) (k : Core) : (setCore s c k).fresh = s.fresh := rfl
@[simp] theorem setCore_out (c : Nat) (k : Core) : (setCore s c k).out = s.out := rfl
@[simp] theorem setCore_pins (c : Nat) (k : Core) : (setCore s c k).pins = s.pins := rfl
@[simp] theorem setCore_fuses (c : Nat) (k : Core) : (setCore s c k).fuses = s.fuses := rfl
@[simp] theorem setCore_pkg (c : Nat) (k : Core) : (setCore s c k).pkg = s.pkg := rfl
@[simp] theorem setCore_aon (c : Nat) (k : Core) : (setCore s c k).aon = s.aon := rfl
@[simp] theorem setCore_clk (c : Nat) (k : Core) : (setCore s c k).clk = s.clk := rfl
@[simp] theorem setCore_evq (c : Nat) (k : Core) : (setCore s c k).evq = s.evq := rfl
@[simp] theorem setCore_hp (c : Nat) (k : Core) : (setCore s c k).hp = s.hp := rfl
@[simp] theorem setCore_hl (c : Nat) (k : Core) : (setCore s c k).hl = s.hl := rfl
@[simp] theorem setCore_mp (c : Nat) (k : Core) : (setCore s c k).mp = s.mp := rfl
@[simp] theorem setCore_mp2 (c : Nat) (k : Core) : (setCore s c k).mp2 = s.mp2 := rfl
@[simp] theorem setCore_pod (c : Nat) (k : Core) : (setCore s c k).pod = s.pod := rfl
@[simp] theorem setCore_pod2 (c : Nat) (k : Core) : (setCore s c k).pod2 = s.pod2 := rfl
@[simp] theorem setCore_cfg (c : Nat) (k : Core) : (setCore s c k).cfg = s.cfg := rfl
@[simp] theorem setCore_guest (c : Nat) (k : Core) : (setCore s c k).guest = s.guest := rfl
@[simp] theorem setCore_obs (c : Nat) (k : Core) : (setCore s c k).obs = s.obs := rfl
@[simp] theorem setCore_rel (c : Nat) (k : Core) : (setCore s c k).rel = s.rel := rfl
@[simp] theorem setCore_pwr (c : Nat) (k : Core) : (setCore s c k).pwr = s.pwr := rfl
@[simp] theorem setCore_upd (c : Nat) (k : Core) : (setCore s c k).upd = s.upd := rfl
@[simp] theorem setCore_parts (c : Nat) (k : Core) : (setCore s c k).parts = s.parts := rfl
@[simp] theorem setCore_jobs (c : Nat) (k : Core) : (setCore s c k).jobs = s.jobs := rfl
@[simp] theorem setCore_mem (c : Nat) (k : Core) : (setCore s c k).mem = s.mem := rfl
@[simp] theorem setCore_sync (c : Nat) (k : Core) : (setCore s c k).sync = s.sync := rfl
@[simp] theorem setCore_fab (c : Nat) (k : Core) : (setCore s c k).fab = s.fab := rfl
@[simp] theorem setCore_eng (c : Nat) (k : Core) : (setCore s c k).eng = s.eng := rfl
@[simp] theorem setCore_pho (c : Nat) (k : Core) : (setCore s c k).pho = s.pho := rfl
@[simp] theorem setCore_xpt (c : Nat) (k : Core) : (setCore s c k).xpt = s.xpt := rfl

/-! ### modCore -/
@[simp] theorem modCore_pending (c : Nat) (f : Core → Core) : (modCore c f s).pending = s.pending := rfl
@[simp] theorem modCore_now (c : Nat) (f : Core → Core) : (modCore c f s).now = s.now := rfl
@[simp] theorem modCore_fresh (c : Nat) (f : Core → Core) : (modCore c f s).fresh = s.fresh := rfl
@[simp] theorem modCore_out (c : Nat) (f : Core → Core) : (modCore c f s).out = s.out := rfl
@[simp] theorem modCore_pins (c : Nat) (f : Core → Core) : (modCore c f s).pins = s.pins := rfl
@[simp] theorem modCore_fuses (c : Nat) (f : Core → Core) : (modCore c f s).fuses = s.fuses := rfl
@[simp] theorem modCore_pkg (c : Nat) (f : Core → Core) : (modCore c f s).pkg = s.pkg := rfl
@[simp] theorem modCore_aon (c : Nat) (f : Core → Core) : (modCore c f s).aon = s.aon := rfl
@[simp] theorem modCore_clk (c : Nat) (f : Core → Core) : (modCore c f s).clk = s.clk := rfl
@[simp] theorem modCore_evq (c : Nat) (f : Core → Core) : (modCore c f s).evq = s.evq := rfl
@[simp] theorem modCore_hp (c : Nat) (f : Core → Core) : (modCore c f s).hp = s.hp := rfl
@[simp] theorem modCore_hl (c : Nat) (f : Core → Core) : (modCore c f s).hl = s.hl := rfl
@[simp] theorem modCore_mp (c : Nat) (f : Core → Core) : (modCore c f s).mp = s.mp := rfl
@[simp] theorem modCore_mp2 (c : Nat) (f : Core → Core) : (modCore c f s).mp2 = s.mp2 := rfl
@[simp] theorem modCore_pod (c : Nat) (f : Core → Core) : (modCore c f s).pod = s.pod := rfl
@[simp] theorem modCore_pod2 (c : Nat) (f : Core → Core) : (modCore c f s).pod2 = s.pod2 := rfl
@[simp] theorem modCore_cfg (c : Nat) (f : Core → Core) : (modCore c f s).cfg = s.cfg := rfl
@[simp] theorem modCore_guest (c : Nat) (f : Core → Core) : (modCore c f s).guest = s.guest := rfl
@[simp] theorem modCore_obs (c : Nat) (f : Core → Core) : (modCore c f s).obs = s.obs := rfl
@[simp] theorem modCore_rel (c : Nat) (f : Core → Core) : (modCore c f s).rel = s.rel := rfl
@[simp] theorem modCore_pwr (c : Nat) (f : Core → Core) : (modCore c f s).pwr = s.pwr := rfl
@[simp] theorem modCore_upd (c : Nat) (f : Core → Core) : (modCore c f s).upd = s.upd := rfl
@[simp] theorem modCore_parts (c : Nat) (f : Core → Core) : (modCore c f s).parts = s.parts := rfl
@[simp] theorem modCore_jobs (c : Nat) (f : Core → Core) : (modCore c f s).jobs = s.jobs := rfl
@[simp] theorem modCore_mem (c : Nat) (f : Core → Core) : (modCore c f s).mem = s.mem := rfl
@[simp] theorem modCore_sync (c : Nat) (f : Core → Core) : (modCore c f s).sync = s.sync := rfl
@[simp] theorem modCore_fab (c : Nat) (f : Core → Core) : (modCore c f s).fab = s.fab := rfl
@[simp] theorem modCore_eng (c : Nat) (f : Core → Core) : (modCore c f s).eng = s.eng := rfl
@[simp] theorem modCore_pho (c : Nat) (f : Core → Core) : (modCore c f s).pho = s.pho := rfl
@[simp] theorem modCore_xpt (c : Nat) (f : Core → Core) : (modCore c f s).xpt = s.xpt := rfl

/-! ### modCtx -/
@[simp] theorem modCtx_pending (c : Nat) (f : Ctx → Ctx) : (modCtx c f s).pending = s.pending := rfl
@[simp] theorem modCtx_now (c : Nat) (f : Ctx → Ctx) : (modCtx c f s).now = s.now := rfl
@[simp] theorem modCtx_fresh (c : Nat) (f : Ctx → Ctx) : (modCtx c f s).fresh = s.fresh := rfl
@[simp] theorem modCtx_out (c : Nat) (f : Ctx → Ctx) : (modCtx c f s).out = s.out := rfl
@[simp] theorem modCtx_pins (c : Nat) (f : Ctx → Ctx) : (modCtx c f s).pins = s.pins := rfl
@[simp] theorem modCtx_fuses (c : Nat) (f : Ctx → Ctx) : (modCtx c f s).fuses = s.fuses := rfl
@[simp] theorem modCtx_pkg (c : Nat) (f : Ctx → Ctx) : (modCtx c f s).pkg = s.pkg := rfl
@[simp] theorem modCtx_aon (c : Nat) (f : Ctx → Ctx) : (modCtx c f s).aon = s.aon := rfl
@[simp] theorem modCtx_clk (c : Nat) (f : Ctx → Ctx) : (modCtx c f s).clk = s.clk := rfl
@[simp] theorem modCtx_evq (c : Nat) (f : Ctx → Ctx) : (modCtx c f s).evq = s.evq := rfl
@[simp] theorem modCtx_hp (c : Nat) (f : Ctx → Ctx) : (modCtx c f s).hp = s.hp := rfl
@[simp] theorem modCtx_hl (c : Nat) (f : Ctx → Ctx) : (modCtx c f s).hl = s.hl := rfl
@[simp] theorem modCtx_mp (c : Nat) (f : Ctx → Ctx) : (modCtx c f s).mp = s.mp := rfl
@[simp] theorem modCtx_mp2 (c : Nat) (f : Ctx → Ctx) : (modCtx c f s).mp2 = s.mp2 := rfl
@[simp] theorem modCtx_pod (c : Nat) (f : Ctx → Ctx) : (modCtx c f s).pod = s.pod := rfl
@[simp] theorem modCtx_pod2 (c : Nat) (f : Ctx → Ctx) : (modCtx c f s).pod2 = s.pod2 := rfl
@[simp] theorem modCtx_cfg (c : Nat) (f : Ctx → Ctx) : (modCtx c f s).cfg = s.cfg := rfl
@[simp] theorem modCtx_guest (c : Nat) (f : Ctx → Ctx) : (modCtx c f s).guest = s.guest := rfl
@[simp] theorem modCtx_obs (c : Nat) (f : Ctx → Ctx) : (modCtx c f s).obs = s.obs := rfl
@[simp] theorem modCtx_rel (c : Nat) (f : Ctx → Ctx) : (modCtx c f s).rel = s.rel := rfl
@[simp] theorem modCtx_pwr (c : Nat) (f : Ctx → Ctx) : (modCtx c f s).pwr = s.pwr := rfl
@[simp] theorem modCtx_upd (c : Nat) (f : Ctx → Ctx) : (modCtx c f s).upd = s.upd := rfl
@[simp] theorem modCtx_parts (c : Nat) (f : Ctx → Ctx) : (modCtx c f s).parts = s.parts := rfl
@[simp] theorem modCtx_jobs (c : Nat) (f : Ctx → Ctx) : (modCtx c f s).jobs = s.jobs := rfl
@[simp] theorem modCtx_mem (c : Nat) (f : Ctx → Ctx) : (modCtx c f s).mem = s.mem := rfl
@[simp] theorem modCtx_sync (c : Nat) (f : Ctx → Ctx) : (modCtx c f s).sync = s.sync := rfl
@[simp] theorem modCtx_fab (c : Nat) (f : Ctx → Ctx) : (modCtx c f s).fab = s.fab := rfl
@[simp] theorem modCtx_eng (c : Nat) (f : Ctx → Ctx) : (modCtx c f s).eng = s.eng := rfl
@[simp] theorem modCtx_pho (c : Nat) (f : Ctx → Ctx) : (modCtx c f s).pho = s.pho := rfl
@[simp] theorem modCtx_xpt (c : Nat) (f : Ctx → Ctx) : (modCtx c f s).xpt = s.xpt := rfl

/-! ### setG -/
@[simp] theorem setG_pending (c n : Nat) (v : BitVec 64) : (setG c n v s).pending = s.pending := rfl
@[simp] theorem setG_now (c n : Nat) (v : BitVec 64) : (setG c n v s).now = s.now := rfl
@[simp] theorem setG_fresh (c n : Nat) (v : BitVec 64) : (setG c n v s).fresh = s.fresh := rfl
@[simp] theorem setG_out (c n : Nat) (v : BitVec 64) : (setG c n v s).out = s.out := rfl
@[simp] theorem setG_pins (c n : Nat) (v : BitVec 64) : (setG c n v s).pins = s.pins := rfl
@[simp] theorem setG_fuses (c n : Nat) (v : BitVec 64) : (setG c n v s).fuses = s.fuses := rfl
@[simp] theorem setG_pkg (c n : Nat) (v : BitVec 64) : (setG c n v s).pkg = s.pkg := rfl
@[simp] theorem setG_aon (c n : Nat) (v : BitVec 64) : (setG c n v s).aon = s.aon := rfl
@[simp] theorem setG_clk (c n : Nat) (v : BitVec 64) : (setG c n v s).clk = s.clk := rfl
@[simp] theorem setG_evq (c n : Nat) (v : BitVec 64) : (setG c n v s).evq = s.evq := rfl
@[simp] theorem setG_hp (c n : Nat) (v : BitVec 64) : (setG c n v s).hp = s.hp := rfl
@[simp] theorem setG_hl (c n : Nat) (v : BitVec 64) : (setG c n v s).hl = s.hl := rfl
@[simp] theorem setG_mp (c n : Nat) (v : BitVec 64) : (setG c n v s).mp = s.mp := rfl
@[simp] theorem setG_mp2 (c n : Nat) (v : BitVec 64) : (setG c n v s).mp2 = s.mp2 := rfl
@[simp] theorem setG_pod (c n : Nat) (v : BitVec 64) : (setG c n v s).pod = s.pod := rfl
@[simp] theorem setG_pod2 (c n : Nat) (v : BitVec 64) : (setG c n v s).pod2 = s.pod2 := rfl
@[simp] theorem setG_cfg (c n : Nat) (v : BitVec 64) : (setG c n v s).cfg = s.cfg := rfl
@[simp] theorem setG_guest (c n : Nat) (v : BitVec 64) : (setG c n v s).guest = s.guest := rfl
@[simp] theorem setG_obs (c n : Nat) (v : BitVec 64) : (setG c n v s).obs = s.obs := rfl
@[simp] theorem setG_rel (c n : Nat) (v : BitVec 64) : (setG c n v s).rel = s.rel := rfl
@[simp] theorem setG_pwr (c n : Nat) (v : BitVec 64) : (setG c n v s).pwr = s.pwr := rfl
@[simp] theorem setG_upd (c n : Nat) (v : BitVec 64) : (setG c n v s).upd = s.upd := rfl
@[simp] theorem setG_parts (c n : Nat) (v : BitVec 64) : (setG c n v s).parts = s.parts := rfl
@[simp] theorem setG_jobs (c n : Nat) (v : BitVec 64) : (setG c n v s).jobs = s.jobs := rfl
@[simp] theorem setG_mem (c n : Nat) (v : BitVec 64) : (setG c n v s).mem = s.mem := rfl
@[simp] theorem setG_sync (c n : Nat) (v : BitVec 64) : (setG c n v s).sync = s.sync := rfl
@[simp] theorem setG_fab (c n : Nat) (v : BitVec 64) : (setG c n v s).fab = s.fab := rfl
@[simp] theorem setG_eng (c n : Nat) (v : BitVec 64) : (setG c n v s).eng = s.eng := rfl
@[simp] theorem setG_pho (c n : Nat) (v : BitVec 64) : (setG c n v s).pho = s.pho := rfl
@[simp] theorem setG_xpt (c n : Nat) (v : BitVec 64) : (setG c n v s).xpt = s.xpt := rfl

/-! ### setV -/
@[simp] theorem setV_pending (c n : Nat) (v : BitVec 2048) : (setV c n v s).pending = s.pending := rfl
@[simp] theorem setV_now (c n : Nat) (v : BitVec 2048) : (setV c n v s).now = s.now := rfl
@[simp] theorem setV_fresh (c n : Nat) (v : BitVec 2048) : (setV c n v s).fresh = s.fresh := rfl
@[simp] theorem setV_out (c n : Nat) (v : BitVec 2048) : (setV c n v s).out = s.out := rfl
@[simp] theorem setV_pins (c n : Nat) (v : BitVec 2048) : (setV c n v s).pins = s.pins := rfl
@[simp] theorem setV_fuses (c n : Nat) (v : BitVec 2048) : (setV c n v s).fuses = s.fuses := rfl
@[simp] theorem setV_pkg (c n : Nat) (v : BitVec 2048) : (setV c n v s).pkg = s.pkg := rfl
@[simp] theorem setV_aon (c n : Nat) (v : BitVec 2048) : (setV c n v s).aon = s.aon := rfl
@[simp] theorem setV_clk (c n : Nat) (v : BitVec 2048) : (setV c n v s).clk = s.clk := rfl
@[simp] theorem setV_evq (c n : Nat) (v : BitVec 2048) : (setV c n v s).evq = s.evq := rfl
@[simp] theorem setV_hp (c n : Nat) (v : BitVec 2048) : (setV c n v s).hp = s.hp := rfl
@[simp] theorem setV_hl (c n : Nat) (v : BitVec 2048) : (setV c n v s).hl = s.hl := rfl
@[simp] theorem setV_mp (c n : Nat) (v : BitVec 2048) : (setV c n v s).mp = s.mp := rfl
@[simp] theorem setV_mp2 (c n : Nat) (v : BitVec 2048) : (setV c n v s).mp2 = s.mp2 := rfl
@[simp] theorem setV_pod (c n : Nat) (v : BitVec 2048) : (setV c n v s).pod = s.pod := rfl
@[simp] theorem setV_pod2 (c n : Nat) (v : BitVec 2048) : (setV c n v s).pod2 = s.pod2 := rfl
@[simp] theorem setV_cfg (c n : Nat) (v : BitVec 2048) : (setV c n v s).cfg = s.cfg := rfl
@[simp] theorem setV_guest (c n : Nat) (v : BitVec 2048) : (setV c n v s).guest = s.guest := rfl
@[simp] theorem setV_obs (c n : Nat) (v : BitVec 2048) : (setV c n v s).obs = s.obs := rfl
@[simp] theorem setV_rel (c n : Nat) (v : BitVec 2048) : (setV c n v s).rel = s.rel := rfl
@[simp] theorem setV_pwr (c n : Nat) (v : BitVec 2048) : (setV c n v s).pwr = s.pwr := rfl
@[simp] theorem setV_upd (c n : Nat) (v : BitVec 2048) : (setV c n v s).upd = s.upd := rfl
@[simp] theorem setV_parts (c n : Nat) (v : BitVec 2048) : (setV c n v s).parts = s.parts := rfl
@[simp] theorem setV_jobs (c n : Nat) (v : BitVec 2048) : (setV c n v s).jobs = s.jobs := rfl
@[simp] theorem setV_mem (c n : Nat) (v : BitVec 2048) : (setV c n v s).mem = s.mem := rfl
@[simp] theorem setV_sync (c n : Nat) (v : BitVec 2048) : (setV c n v s).sync = s.sync := rfl
@[simp] theorem setV_fab (c n : Nat) (v : BitVec 2048) : (setV c n v s).fab = s.fab := rfl
@[simp] theorem setV_eng (c n : Nat) (v : BitVec 2048) : (setV c n v s).eng = s.eng := rfl
@[simp] theorem setV_pho (c n : Nat) (v : BitVec 2048) : (setV c n v s).pho = s.pho := rfl
@[simp] theorem setV_xpt (c n : Nat) (v : BitVec 2048) : (setV c n v s).xpt = s.xpt := rfl

/-! ### setTok -/
@[simp] theorem setTok_pending (c n : Nat) (x : Token) : (setTok c n x s).pending = s.pending := rfl
@[simp] theorem setTok_now (c n : Nat) (x : Token) : (setTok c n x s).now = s.now := rfl
@[simp] theorem setTok_fresh (c n : Nat) (x : Token) : (setTok c n x s).fresh = s.fresh := rfl
@[simp] theorem setTok_out (c n : Nat) (x : Token) : (setTok c n x s).out = s.out := rfl
@[simp] theorem setTok_pins (c n : Nat) (x : Token) : (setTok c n x s).pins = s.pins := rfl
@[simp] theorem setTok_fuses (c n : Nat) (x : Token) : (setTok c n x s).fuses = s.fuses := rfl
@[simp] theorem setTok_pkg (c n : Nat) (x : Token) : (setTok c n x s).pkg = s.pkg := rfl
@[simp] theorem setTok_aon (c n : Nat) (x : Token) : (setTok c n x s).aon = s.aon := rfl
@[simp] theorem setTok_clk (c n : Nat) (x : Token) : (setTok c n x s).clk = s.clk := rfl
@[simp] theorem setTok_evq (c n : Nat) (x : Token) : (setTok c n x s).evq = s.evq := rfl
@[simp] theorem setTok_hp (c n : Nat) (x : Token) : (setTok c n x s).hp = s.hp := rfl
@[simp] theorem setTok_hl (c n : Nat) (x : Token) : (setTok c n x s).hl = s.hl := rfl
@[simp] theorem setTok_mp (c n : Nat) (x : Token) : (setTok c n x s).mp = s.mp := rfl
@[simp] theorem setTok_mp2 (c n : Nat) (x : Token) : (setTok c n x s).mp2 = s.mp2 := rfl
@[simp] theorem setTok_pod (c n : Nat) (x : Token) : (setTok c n x s).pod = s.pod := rfl
@[simp] theorem setTok_pod2 (c n : Nat) (x : Token) : (setTok c n x s).pod2 = s.pod2 := rfl
@[simp] theorem setTok_cfg (c n : Nat) (x : Token) : (setTok c n x s).cfg = s.cfg := rfl
@[simp] theorem setTok_guest (c n : Nat) (x : Token) : (setTok c n x s).guest = s.guest := rfl
@[simp] theorem setTok_obs (c n : Nat) (x : Token) : (setTok c n x s).obs = s.obs := rfl
@[simp] theorem setTok_rel (c n : Nat) (x : Token) : (setTok c n x s).rel = s.rel := rfl
@[simp] theorem setTok_pwr (c n : Nat) (x : Token) : (setTok c n x s).pwr = s.pwr := rfl
@[simp] theorem setTok_upd (c n : Nat) (x : Token) : (setTok c n x s).upd = s.upd := rfl
@[simp] theorem setTok_parts (c n : Nat) (x : Token) : (setTok c n x s).parts = s.parts := rfl
@[simp] theorem setTok_jobs (c n : Nat) (x : Token) : (setTok c n x s).jobs = s.jobs := rfl
@[simp] theorem setTok_mem (c n : Nat) (x : Token) : (setTok c n x s).mem = s.mem := rfl
@[simp] theorem setTok_sync (c n : Nat) (x : Token) : (setTok c n x s).sync = s.sync := rfl
@[simp] theorem setTok_fab (c n : Nat) (x : Token) : (setTok c n x s).fab = s.fab := rfl
@[simp] theorem setTok_eng (c n : Nat) (x : Token) : (setTok c n x s).eng = s.eng := rfl
@[simp] theorem setTok_pho (c n : Nat) (x : Token) : (setTok c n x s).pho = s.pho := rfl
@[simp] theorem setTok_xpt (c n : Nat) (x : Token) : (setTok c n x s).xpt = s.xpt := rfl

/-! ### setSem -/
@[simp] theorem setSem_pending (c n v : Nat) : (setSem c n v s).pending = s.pending := rfl
@[simp] theorem setSem_now (c n v : Nat) : (setSem c n v s).now = s.now := rfl
@[simp] theorem setSem_fresh (c n v : Nat) : (setSem c n v s).fresh = s.fresh := rfl
@[simp] theorem setSem_out (c n v : Nat) : (setSem c n v s).out = s.out := rfl
@[simp] theorem setSem_pins (c n v : Nat) : (setSem c n v s).pins = s.pins := rfl
@[simp] theorem setSem_fuses (c n v : Nat) : (setSem c n v s).fuses = s.fuses := rfl
@[simp] theorem setSem_pkg (c n v : Nat) : (setSem c n v s).pkg = s.pkg := rfl
@[simp] theorem setSem_aon (c n v : Nat) : (setSem c n v s).aon = s.aon := rfl
@[simp] theorem setSem_clk (c n v : Nat) : (setSem c n v s).clk = s.clk := rfl
@[simp] theorem setSem_evq (c n v : Nat) : (setSem c n v s).evq = s.evq := rfl
@[simp] theorem setSem_hp (c n v : Nat) : (setSem c n v s).hp = s.hp := rfl
@[simp] theorem setSem_hl (c n v : Nat) : (setSem c n v s).hl = s.hl := rfl
@[simp] theorem setSem_mp (c n v : Nat) : (setSem c n v s).mp = s.mp := rfl
@[simp] theorem setSem_mp2 (c n v : Nat) : (setSem c n v s).mp2 = s.mp2 := rfl
@[simp] theorem setSem_pod (c n v : Nat) : (setSem c n v s).pod = s.pod := rfl
@[simp] theorem setSem_pod2 (c n v : Nat) : (setSem c n v s).pod2 = s.pod2 := rfl
@[simp] theorem setSem_cfg (c n v : Nat) : (setSem c n v s).cfg = s.cfg := rfl
@[simp] theorem setSem_guest (c n v : Nat) : (setSem c n v s).guest = s.guest := rfl
@[simp] theorem setSem_obs (c n v : Nat) : (setSem c n v s).obs = s.obs := rfl
@[simp] theorem setSem_rel (c n v : Nat) : (setSem c n v s).rel = s.rel := rfl
@[simp] theorem setSem_pwr (c n v : Nat) : (setSem c n v s).pwr = s.pwr := rfl
@[simp] theorem setSem_upd (c n v : Nat) : (setSem c n v s).upd = s.upd := rfl
@[simp] theorem setSem_parts (c n v : Nat) : (setSem c n v s).parts = s.parts := rfl
@[simp] theorem setSem_jobs (c n v : Nat) : (setSem c n v s).jobs = s.jobs := rfl
@[simp] theorem setSem_mem (c n v : Nat) : (setSem c n v s).mem = s.mem := rfl
@[simp] theorem setSem_sync (c n v : Nat) : (setSem c n v s).sync = s.sync := rfl
@[simp] theorem setSem_fab (c n v : Nat) : (setSem c n v s).fab = s.fab := rfl
@[simp] theorem setSem_eng (c n v : Nat) : (setSem c n v s).eng = s.eng := rfl
@[simp] theorem setSem_pho (c n v : Nat) : (setSem c n v s).pho = s.pho := rfl
@[simp] theorem setSem_xpt (c n v : Nat) : (setSem c n v s).xpt = s.xpt := rfl

/-! ### setSlot -/
@[simp] theorem setSlot_pending (c n : Nat) (v : BitVec 64) : (setSlot c n v s).pending = s.pending := rfl
@[simp] theorem setSlot_now (c n : Nat) (v : BitVec 64) : (setSlot c n v s).now = s.now := rfl
@[simp] theorem setSlot_fresh (c n : Nat) (v : BitVec 64) : (setSlot c n v s).fresh = s.fresh := rfl
@[simp] theorem setSlot_out (c n : Nat) (v : BitVec 64) : (setSlot c n v s).out = s.out := rfl
@[simp] theorem setSlot_pins (c n : Nat) (v : BitVec 64) : (setSlot c n v s).pins = s.pins := rfl
@[simp] theorem setSlot_fuses (c n : Nat) (v : BitVec 64) : (setSlot c n v s).fuses = s.fuses := rfl
@[simp] theorem setSlot_pkg (c n : Nat) (v : BitVec 64) : (setSlot c n v s).pkg = s.pkg := rfl
@[simp] theorem setSlot_aon (c n : Nat) (v : BitVec 64) : (setSlot c n v s).aon = s.aon := rfl
@[simp] theorem setSlot_clk (c n : Nat) (v : BitVec 64) : (setSlot c n v s).clk = s.clk := rfl
@[simp] theorem setSlot_evq (c n : Nat) (v : BitVec 64) : (setSlot c n v s).evq = s.evq := rfl
@[simp] theorem setSlot_hp (c n : Nat) (v : BitVec 64) : (setSlot c n v s).hp = s.hp := rfl
@[simp] theorem setSlot_hl (c n : Nat) (v : BitVec 64) : (setSlot c n v s).hl = s.hl := rfl
@[simp] theorem setSlot_mp (c n : Nat) (v : BitVec 64) : (setSlot c n v s).mp = s.mp := rfl
@[simp] theorem setSlot_mp2 (c n : Nat) (v : BitVec 64) : (setSlot c n v s).mp2 = s.mp2 := rfl
@[simp] theorem setSlot_pod (c n : Nat) (v : BitVec 64) : (setSlot c n v s).pod = s.pod := rfl
@[simp] theorem setSlot_pod2 (c n : Nat) (v : BitVec 64) : (setSlot c n v s).pod2 = s.pod2 := rfl
@[simp] theorem setSlot_cfg (c n : Nat) (v : BitVec 64) : (setSlot c n v s).cfg = s.cfg := rfl
@[simp] theorem setSlot_guest (c n : Nat) (v : BitVec 64) : (setSlot c n v s).guest = s.guest := rfl
@[simp] theorem setSlot_obs (c n : Nat) (v : BitVec 64) : (setSlot c n v s).obs = s.obs := rfl
@[simp] theorem setSlot_rel (c n : Nat) (v : BitVec 64) : (setSlot c n v s).rel = s.rel := rfl
@[simp] theorem setSlot_pwr (c n : Nat) (v : BitVec 64) : (setSlot c n v s).pwr = s.pwr := rfl
@[simp] theorem setSlot_upd (c n : Nat) (v : BitVec 64) : (setSlot c n v s).upd = s.upd := rfl
@[simp] theorem setSlot_parts (c n : Nat) (v : BitVec 64) : (setSlot c n v s).parts = s.parts := rfl
@[simp] theorem setSlot_jobs (c n : Nat) (v : BitVec 64) : (setSlot c n v s).jobs = s.jobs := rfl
@[simp] theorem setSlot_mem (c n : Nat) (v : BitVec 64) : (setSlot c n v s).mem = s.mem := rfl
@[simp] theorem setSlot_sync (c n : Nat) (v : BitVec 64) : (setSlot c n v s).sync = s.sync := rfl
@[simp] theorem setSlot_fab (c n : Nat) (v : BitVec 64) : (setSlot c n v s).fab = s.fab := rfl
@[simp] theorem setSlot_eng (c n : Nat) (v : BitVec 64) : (setSlot c n v s).eng = s.eng := rfl
@[simp] theorem setSlot_pho (c n : Nat) (v : BitVec 64) : (setSlot c n v s).pho = s.pho := rfl
@[simp] theorem setSlot_xpt (c n : Nat) (v : BitVec 64) : (setSlot c n v s).xpt = s.xpt := rfl

/-! ### setPipe -/
@[simp] theorem setPipe_pending (cl : Nat) (p : CmPipe) : (setPipe cl p s).pending = s.pending := rfl
@[simp] theorem setPipe_now (cl : Nat) (p : CmPipe) : (setPipe cl p s).now = s.now := rfl
@[simp] theorem setPipe_fresh (cl : Nat) (p : CmPipe) : (setPipe cl p s).fresh = s.fresh := rfl
@[simp] theorem setPipe_out (cl : Nat) (p : CmPipe) : (setPipe cl p s).out = s.out := rfl
@[simp] theorem setPipe_pins (cl : Nat) (p : CmPipe) : (setPipe cl p s).pins = s.pins := rfl
@[simp] theorem setPipe_fuses (cl : Nat) (p : CmPipe) : (setPipe cl p s).fuses = s.fuses := rfl
@[simp] theorem setPipe_pkg (cl : Nat) (p : CmPipe) : (setPipe cl p s).pkg = s.pkg := rfl
@[simp] theorem setPipe_aon (cl : Nat) (p : CmPipe) : (setPipe cl p s).aon = s.aon := rfl
@[simp] theorem setPipe_clk (cl : Nat) (p : CmPipe) : (setPipe cl p s).clk = s.clk := rfl
@[simp] theorem setPipe_evq (cl : Nat) (p : CmPipe) : (setPipe cl p s).evq = s.evq := rfl
@[simp] theorem setPipe_hp (cl : Nat) (p : CmPipe) : (setPipe cl p s).hp = s.hp := rfl
@[simp] theorem setPipe_hl (cl : Nat) (p : CmPipe) : (setPipe cl p s).hl = s.hl := rfl
@[simp] theorem setPipe_mp (cl : Nat) (p : CmPipe) : (setPipe cl p s).mp = s.mp := rfl
@[simp] theorem setPipe_mp2 (cl : Nat) (p : CmPipe) : (setPipe cl p s).mp2 = s.mp2 := rfl
@[simp] theorem setPipe_pod (cl : Nat) (p : CmPipe) : (setPipe cl p s).pod = s.pod := rfl
@[simp] theorem setPipe_pod2 (cl : Nat) (p : CmPipe) : (setPipe cl p s).pod2 = s.pod2 := rfl
@[simp] theorem setPipe_cfg (cl : Nat) (p : CmPipe) : (setPipe cl p s).cfg = s.cfg := rfl
@[simp] theorem setPipe_guest (cl : Nat) (p : CmPipe) : (setPipe cl p s).guest = s.guest := rfl
@[simp] theorem setPipe_obs (cl : Nat) (p : CmPipe) : (setPipe cl p s).obs = s.obs := rfl
@[simp] theorem setPipe_rel (cl : Nat) (p : CmPipe) : (setPipe cl p s).rel = s.rel := rfl
@[simp] theorem setPipe_pwr (cl : Nat) (p : CmPipe) : (setPipe cl p s).pwr = s.pwr := rfl
@[simp] theorem setPipe_upd (cl : Nat) (p : CmPipe) : (setPipe cl p s).upd = s.upd := rfl
@[simp] theorem setPipe_parts (cl : Nat) (p : CmPipe) : (setPipe cl p s).parts = s.parts := rfl
@[simp] theorem setPipe_jobs (cl : Nat) (p : CmPipe) : (setPipe cl p s).jobs = s.jobs := rfl
@[simp] theorem setPipe_mem (cl : Nat) (p : CmPipe) : (setPipe cl p s).mem = s.mem := rfl
@[simp] theorem setPipe_sync (cl : Nat) (p : CmPipe) : (setPipe cl p s).sync = s.sync := rfl
@[simp] theorem setPipe_fab (cl : Nat) (p : CmPipe) : (setPipe cl p s).fab = s.fab := rfl
@[simp] theorem setPipe_eng (cl : Nat) (p : CmPipe) : (setPipe cl p s).eng = s.eng := rfl
@[simp] theorem setPipe_pho (cl : Nat) (p : CmPipe) : (setPipe cl p s).pho = s.pho := rfl
@[simp] theorem setPipe_xpt (cl : Nat) (p : CmPipe) : (setPipe cl p s).xpt = s.xpt := rfl

/-! ### setStack -/
@[simp] theorem setStack_pending (m : Nat) (h : Hbm) : (setStack m h s).pending = s.pending := rfl
@[simp] theorem setStack_now (m : Nat) (h : Hbm) : (setStack m h s).now = s.now := rfl
@[simp] theorem setStack_fresh (m : Nat) (h : Hbm) : (setStack m h s).fresh = s.fresh := rfl
@[simp] theorem setStack_out (m : Nat) (h : Hbm) : (setStack m h s).out = s.out := rfl
@[simp] theorem setStack_pins (m : Nat) (h : Hbm) : (setStack m h s).pins = s.pins := rfl
@[simp] theorem setStack_fuses (m : Nat) (h : Hbm) : (setStack m h s).fuses = s.fuses := rfl
@[simp] theorem setStack_pkg (m : Nat) (h : Hbm) : (setStack m h s).pkg = s.pkg := rfl
@[simp] theorem setStack_aon (m : Nat) (h : Hbm) : (setStack m h s).aon = s.aon := rfl
@[simp] theorem setStack_clk (m : Nat) (h : Hbm) : (setStack m h s).clk = s.clk := rfl
@[simp] theorem setStack_evq (m : Nat) (h : Hbm) : (setStack m h s).evq = s.evq := rfl
@[simp] theorem setStack_hp (m : Nat) (h : Hbm) : (setStack m h s).hp = s.hp := rfl
@[simp] theorem setStack_hl (m : Nat) (h : Hbm) : (setStack m h s).hl = s.hl := rfl
@[simp] theorem setStack_mp (m : Nat) (h : Hbm) : (setStack m h s).mp = s.mp := rfl
@[simp] theorem setStack_mp2 (m : Nat) (h : Hbm) : (setStack m h s).mp2 = s.mp2 := rfl
@[simp] theorem setStack_pod (m : Nat) (h : Hbm) : (setStack m h s).pod = s.pod := rfl
@[simp] theorem setStack_pod2 (m : Nat) (h : Hbm) : (setStack m h s).pod2 = s.pod2 := rfl
@[simp] theorem setStack_cfg (m : Nat) (h : Hbm) : (setStack m h s).cfg = s.cfg := rfl
@[simp] theorem setStack_guest (m : Nat) (h : Hbm) : (setStack m h s).guest = s.guest := rfl
@[simp] theorem setStack_obs (m : Nat) (h : Hbm) : (setStack m h s).obs = s.obs := rfl
@[simp] theorem setStack_rel (m : Nat) (h : Hbm) : (setStack m h s).rel = s.rel := rfl
@[simp] theorem setStack_pwr (m : Nat) (h : Hbm) : (setStack m h s).pwr = s.pwr := rfl
@[simp] theorem setStack_upd (m : Nat) (h : Hbm) : (setStack m h s).upd = s.upd := rfl
@[simp] theorem setStack_parts (m : Nat) (h : Hbm) : (setStack m h s).parts = s.parts := rfl
@[simp] theorem setStack_jobs (m : Nat) (h : Hbm) : (setStack m h s).jobs = s.jobs := rfl
@[simp] theorem setStack_cores (m : Nat) (h : Hbm) : (setStack m h s).cores = s.cores := rfl
@[simp] theorem setStack_sync (m : Nat) (h : Hbm) : (setStack m h s).sync = s.sync := rfl
@[simp] theorem setStack_fab (m : Nat) (h : Hbm) : (setStack m h s).fab = s.fab := rfl
@[simp] theorem setStack_eng (m : Nat) (h : Hbm) : (setStack m h s).eng = s.eng := rfl
@[simp] theorem setStack_pho (m : Nat) (h : Hbm) : (setStack m h s).pho = s.pho := rfl
@[simp] theorem setStack_xpt (m : Nat) (h : Hbm) : (setStack m h s).xpt = s.xpt := rfl

/-! ### setPho -/
@[simp] theorem setPho_pending (p : Pho) : (setPho p s).pending = s.pending := rfl
@[simp] theorem setPho_now (p : Pho) : (setPho p s).now = s.now := rfl
@[simp] theorem setPho_fresh (p : Pho) : (setPho p s).fresh = s.fresh := rfl
@[simp] theorem setPho_out (p : Pho) : (setPho p s).out = s.out := rfl
@[simp] theorem setPho_pins (p : Pho) : (setPho p s).pins = s.pins := rfl
@[simp] theorem setPho_fuses (p : Pho) : (setPho p s).fuses = s.fuses := rfl
@[simp] theorem setPho_pkg (p : Pho) : (setPho p s).pkg = s.pkg := rfl
@[simp] theorem setPho_aon (p : Pho) : (setPho p s).aon = s.aon := rfl
@[simp] theorem setPho_clk (p : Pho) : (setPho p s).clk = s.clk := rfl
@[simp] theorem setPho_evq (p : Pho) : (setPho p s).evq = s.evq := rfl
@[simp] theorem setPho_hp (p : Pho) : (setPho p s).hp = s.hp := rfl
@[simp] theorem setPho_hl (p : Pho) : (setPho p s).hl = s.hl := rfl
@[simp] theorem setPho_mp (p : Pho) : (setPho p s).mp = s.mp := rfl
@[simp] theorem setPho_mp2 (p : Pho) : (setPho p s).mp2 = s.mp2 := rfl
@[simp] theorem setPho_pod (p : Pho) : (setPho p s).pod = s.pod := rfl
@[simp] theorem setPho_pod2 (p : Pho) : (setPho p s).pod2 = s.pod2 := rfl
@[simp] theorem setPho_cfg (p : Pho) : (setPho p s).cfg = s.cfg := rfl
@[simp] theorem setPho_guest (p : Pho) : (setPho p s).guest = s.guest := rfl
@[simp] theorem setPho_obs (p : Pho) : (setPho p s).obs = s.obs := rfl
@[simp] theorem setPho_rel (p : Pho) : (setPho p s).rel = s.rel := rfl
@[simp] theorem setPho_pwr (p : Pho) : (setPho p s).pwr = s.pwr := rfl
@[simp] theorem setPho_upd (p : Pho) : (setPho p s).upd = s.upd := rfl
@[simp] theorem setPho_parts (p : Pho) : (setPho p s).parts = s.parts := rfl
@[simp] theorem setPho_jobs (p : Pho) : (setPho p s).jobs = s.jobs := rfl
@[simp] theorem setPho_cores (p : Pho) : (setPho p s).cores = s.cores := rfl
@[simp] theorem setPho_mem (p : Pho) : (setPho p s).mem = s.mem := rfl
@[simp] theorem setPho_sync (p : Pho) : (setPho p s).sync = s.sync := rfl
@[simp] theorem setPho_fab (p : Pho) : (setPho p s).fab = s.fab := rfl
@[simp] theorem setPho_eng (p : Pho) : (setPho p s).eng = s.eng := rfl
@[simp] theorem setPho_xpt (p : Pho) : (setPho p s).xpt = s.xpt := rfl

/-! ### setBundle -/
@[simp] theorem setBundle_pending (b : Nat) (x : Bundle) : (setBundle b x s).pending = s.pending := rfl
@[simp] theorem setBundle_now (b : Nat) (x : Bundle) : (setBundle b x s).now = s.now := rfl
@[simp] theorem setBundle_fresh (b : Nat) (x : Bundle) : (setBundle b x s).fresh = s.fresh := rfl
@[simp] theorem setBundle_out (b : Nat) (x : Bundle) : (setBundle b x s).out = s.out := rfl
@[simp] theorem setBundle_pins (b : Nat) (x : Bundle) : (setBundle b x s).pins = s.pins := rfl
@[simp] theorem setBundle_fuses (b : Nat) (x : Bundle) : (setBundle b x s).fuses = s.fuses := rfl
@[simp] theorem setBundle_pkg (b : Nat) (x : Bundle) : (setBundle b x s).pkg = s.pkg := rfl
@[simp] theorem setBundle_aon (b : Nat) (x : Bundle) : (setBundle b x s).aon = s.aon := rfl
@[simp] theorem setBundle_clk (b : Nat) (x : Bundle) : (setBundle b x s).clk = s.clk := rfl
@[simp] theorem setBundle_evq (b : Nat) (x : Bundle) : (setBundle b x s).evq = s.evq := rfl
@[simp] theorem setBundle_hp (b : Nat) (x : Bundle) : (setBundle b x s).hp = s.hp := rfl
@[simp] theorem setBundle_hl (b : Nat) (x : Bundle) : (setBundle b x s).hl = s.hl := rfl
@[simp] theorem setBundle_mp (b : Nat) (x : Bundle) : (setBundle b x s).mp = s.mp := rfl
@[simp] theorem setBundle_mp2 (b : Nat) (x : Bundle) : (setBundle b x s).mp2 = s.mp2 := rfl
@[simp] theorem setBundle_pod (b : Nat) (x : Bundle) : (setBundle b x s).pod = s.pod := rfl
@[simp] theorem setBundle_pod2 (b : Nat) (x : Bundle) : (setBundle b x s).pod2 = s.pod2 := rfl
@[simp] theorem setBundle_cfg (b : Nat) (x : Bundle) : (setBundle b x s).cfg = s.cfg := rfl
@[simp] theorem setBundle_guest (b : Nat) (x : Bundle) : (setBundle b x s).guest = s.guest := rfl
@[simp] theorem setBundle_obs (b : Nat) (x : Bundle) : (setBundle b x s).obs = s.obs := rfl
@[simp] theorem setBundle_rel (b : Nat) (x : Bundle) : (setBundle b x s).rel = s.rel := rfl
@[simp] theorem setBundle_pwr (b : Nat) (x : Bundle) : (setBundle b x s).pwr = s.pwr := rfl
@[simp] theorem setBundle_upd (b : Nat) (x : Bundle) : (setBundle b x s).upd = s.upd := rfl
@[simp] theorem setBundle_parts (b : Nat) (x : Bundle) : (setBundle b x s).parts = s.parts := rfl
@[simp] theorem setBundle_jobs (b : Nat) (x : Bundle) : (setBundle b x s).jobs = s.jobs := rfl
@[simp] theorem setBundle_cores (b : Nat) (x : Bundle) : (setBundle b x s).cores = s.cores := rfl
@[simp] theorem setBundle_mem (b : Nat) (x : Bundle) : (setBundle b x s).mem = s.mem := rfl
@[simp] theorem setBundle_sync (b : Nat) (x : Bundle) : (setBundle b x s).sync = s.sync := rfl
@[simp] theorem setBundle_fab (b : Nat) (x : Bundle) : (setBundle b x s).fab = s.fab := rfl
@[simp] theorem setBundle_eng (b : Nat) (x : Bundle) : (setBundle b x s).eng = s.eng := rfl
@[simp] theorem setBundle_xpt (b : Nat) (x : Bundle) : (setBundle b x s).xpt = s.xpt := rfl

/-! ### setCh -/
@[simp] theorem setCh_pending (b l : Nat) (c : Ch) : (setCh b l c s).pending = s.pending := rfl
@[simp] theorem setCh_now (b l : Nat) (c : Ch) : (setCh b l c s).now = s.now := rfl
@[simp] theorem setCh_fresh (b l : Nat) (c : Ch) : (setCh b l c s).fresh = s.fresh := rfl
@[simp] theorem setCh_out (b l : Nat) (c : Ch) : (setCh b l c s).out = s.out := rfl
@[simp] theorem setCh_pins (b l : Nat) (c : Ch) : (setCh b l c s).pins = s.pins := rfl
@[simp] theorem setCh_fuses (b l : Nat) (c : Ch) : (setCh b l c s).fuses = s.fuses := rfl
@[simp] theorem setCh_pkg (b l : Nat) (c : Ch) : (setCh b l c s).pkg = s.pkg := rfl
@[simp] theorem setCh_aon (b l : Nat) (c : Ch) : (setCh b l c s).aon = s.aon := rfl
@[simp] theorem setCh_clk (b l : Nat) (c : Ch) : (setCh b l c s).clk = s.clk := rfl
@[simp] theorem setCh_evq (b l : Nat) (c : Ch) : (setCh b l c s).evq = s.evq := rfl
@[simp] theorem setCh_hp (b l : Nat) (c : Ch) : (setCh b l c s).hp = s.hp := rfl
@[simp] theorem setCh_hl (b l : Nat) (c : Ch) : (setCh b l c s).hl = s.hl := rfl
@[simp] theorem setCh_mp (b l : Nat) (c : Ch) : (setCh b l c s).mp = s.mp := rfl
@[simp] theorem setCh_mp2 (b l : Nat) (c : Ch) : (setCh b l c s).mp2 = s.mp2 := rfl
@[simp] theorem setCh_pod (b l : Nat) (c : Ch) : (setCh b l c s).pod = s.pod := rfl
@[simp] theorem setCh_pod2 (b l : Nat) (c : Ch) : (setCh b l c s).pod2 = s.pod2 := rfl
@[simp] theorem setCh_cfg (b l : Nat) (c : Ch) : (setCh b l c s).cfg = s.cfg := rfl
@[simp] theorem setCh_guest (b l : Nat) (c : Ch) : (setCh b l c s).guest = s.guest := rfl
@[simp] theorem setCh_obs (b l : Nat) (c : Ch) : (setCh b l c s).obs = s.obs := rfl
@[simp] theorem setCh_rel (b l : Nat) (c : Ch) : (setCh b l c s).rel = s.rel := rfl
@[simp] theorem setCh_pwr (b l : Nat) (c : Ch) : (setCh b l c s).pwr = s.pwr := rfl
@[simp] theorem setCh_upd (b l : Nat) (c : Ch) : (setCh b l c s).upd = s.upd := rfl
@[simp] theorem setCh_parts (b l : Nat) (c : Ch) : (setCh b l c s).parts = s.parts := rfl
@[simp] theorem setCh_jobs (b l : Nat) (c : Ch) : (setCh b l c s).jobs = s.jobs := rfl
@[simp] theorem setCh_cores (b l : Nat) (c : Ch) : (setCh b l c s).cores = s.cores := rfl
@[simp] theorem setCh_mem (b l : Nat) (c : Ch) : (setCh b l c s).mem = s.mem := rfl
@[simp] theorem setCh_sync (b l : Nat) (c : Ch) : (setCh b l c s).sync = s.sync := rfl
@[simp] theorem setCh_fab (b l : Nat) (c : Ch) : (setCh b l c s).fab = s.fab := rfl
@[simp] theorem setCh_eng (b l : Nat) (c : Ch) : (setCh b l c s).eng = s.eng := rfl
@[simp] theorem setCh_xpt (b l : Nat) (c : Ch) : (setCh b l c s).xpt = s.xpt := rfl

/-! ### setXpt -/
@[simp] theorem setXpt_pending (x : Xpt) : (setXpt x s).pending = s.pending := rfl
@[simp] theorem setXpt_now (x : Xpt) : (setXpt x s).now = s.now := rfl
@[simp] theorem setXpt_fresh (x : Xpt) : (setXpt x s).fresh = s.fresh := rfl
@[simp] theorem setXpt_out (x : Xpt) : (setXpt x s).out = s.out := rfl
@[simp] theorem setXpt_pins (x : Xpt) : (setXpt x s).pins = s.pins := rfl
@[simp] theorem setXpt_fuses (x : Xpt) : (setXpt x s).fuses = s.fuses := rfl
@[simp] theorem setXpt_pkg (x : Xpt) : (setXpt x s).pkg = s.pkg := rfl
@[simp] theorem setXpt_aon (x : Xpt) : (setXpt x s).aon = s.aon := rfl
@[simp] theorem setXpt_clk (x : Xpt) : (setXpt x s).clk = s.clk := rfl
@[simp] theorem setXpt_evq (x : Xpt) : (setXpt x s).evq = s.evq := rfl
@[simp] theorem setXpt_hp (x : Xpt) : (setXpt x s).hp = s.hp := rfl
@[simp] theorem setXpt_hl (x : Xpt) : (setXpt x s).hl = s.hl := rfl
@[simp] theorem setXpt_mp (x : Xpt) : (setXpt x s).mp = s.mp := rfl
@[simp] theorem setXpt_mp2 (x : Xpt) : (setXpt x s).mp2 = s.mp2 := rfl
@[simp] theorem setXpt_pod (x : Xpt) : (setXpt x s).pod = s.pod := rfl
@[simp] theorem setXpt_pod2 (x : Xpt) : (setXpt x s).pod2 = s.pod2 := rfl
@[simp] theorem setXpt_cfg (x : Xpt) : (setXpt x s).cfg = s.cfg := rfl
@[simp] theorem setXpt_guest (x : Xpt) : (setXpt x s).guest = s.guest := rfl
@[simp] theorem setXpt_obs (x : Xpt) : (setXpt x s).obs = s.obs := rfl
@[simp] theorem setXpt_rel (x : Xpt) : (setXpt x s).rel = s.rel := rfl
@[simp] theorem setXpt_pwr (x : Xpt) : (setXpt x s).pwr = s.pwr := rfl
@[simp] theorem setXpt_upd (x : Xpt) : (setXpt x s).upd = s.upd := rfl
@[simp] theorem setXpt_parts (x : Xpt) : (setXpt x s).parts = s.parts := rfl
@[simp] theorem setXpt_jobs (x : Xpt) : (setXpt x s).jobs = s.jobs := rfl
@[simp] theorem setXpt_cores (x : Xpt) : (setXpt x s).cores = s.cores := rfl
@[simp] theorem setXpt_mem (x : Xpt) : (setXpt x s).mem = s.mem := rfl
@[simp] theorem setXpt_sync (x : Xpt) : (setXpt x s).sync = s.sync := rfl
@[simp] theorem setXpt_fab (x : Xpt) : (setXpt x s).fab = s.fab := rfl
@[simp] theorem setXpt_eng (x : Xpt) : (setXpt x s).eng = s.eng := rfl
@[simp] theorem setXpt_pho (x : Xpt) : (setXpt x s).pho = s.pho := rfl

/-! ### setLink -/
@[simp] theorem setLink_pending (k : Nat) (l : Link) : (setLink k l s).pending = s.pending := rfl
@[simp] theorem setLink_now (k : Nat) (l : Link) : (setLink k l s).now = s.now := rfl
@[simp] theorem setLink_fresh (k : Nat) (l : Link) : (setLink k l s).fresh = s.fresh := rfl
@[simp] theorem setLink_out (k : Nat) (l : Link) : (setLink k l s).out = s.out := rfl
@[simp] theorem setLink_pins (k : Nat) (l : Link) : (setLink k l s).pins = s.pins := rfl
@[simp] theorem setLink_fuses (k : Nat) (l : Link) : (setLink k l s).fuses = s.fuses := rfl
@[simp] theorem setLink_pkg (k : Nat) (l : Link) : (setLink k l s).pkg = s.pkg := rfl
@[simp] theorem setLink_aon (k : Nat) (l : Link) : (setLink k l s).aon = s.aon := rfl
@[simp] theorem setLink_clk (k : Nat) (l : Link) : (setLink k l s).clk = s.clk := rfl
@[simp] theorem setLink_evq (k : Nat) (l : Link) : (setLink k l s).evq = s.evq := rfl
@[simp] theorem setLink_hp (k : Nat) (l : Link) : (setLink k l s).hp = s.hp := rfl
@[simp] theorem setLink_hl (k : Nat) (l : Link) : (setLink k l s).hl = s.hl := rfl
@[simp] theorem setLink_mp (k : Nat) (l : Link) : (setLink k l s).mp = s.mp := rfl
@[simp] theorem setLink_mp2 (k : Nat) (l : Link) : (setLink k l s).mp2 = s.mp2 := rfl
@[simp] theorem setLink_pod (k : Nat) (l : Link) : (setLink k l s).pod = s.pod := rfl
@[simp] theorem setLink_pod2 (k : Nat) (l : Link) : (setLink k l s).pod2 = s.pod2 := rfl
@[simp] theorem setLink_cfg (k : Nat) (l : Link) : (setLink k l s).cfg = s.cfg := rfl
@[simp] theorem setLink_guest (k : Nat) (l : Link) : (setLink k l s).guest = s.guest := rfl
@[simp] theorem setLink_obs (k : Nat) (l : Link) : (setLink k l s).obs = s.obs := rfl
@[simp] theorem setLink_rel (k : Nat) (l : Link) : (setLink k l s).rel = s.rel := rfl
@[simp] theorem setLink_pwr (k : Nat) (l : Link) : (setLink k l s).pwr = s.pwr := rfl
@[simp] theorem setLink_upd (k : Nat) (l : Link) : (setLink k l s).upd = s.upd := rfl
@[simp] theorem setLink_parts (k : Nat) (l : Link) : (setLink k l s).parts = s.parts := rfl
@[simp] theorem setLink_jobs (k : Nat) (l : Link) : (setLink k l s).jobs = s.jobs := rfl
@[simp] theorem setLink_cores (k : Nat) (l : Link) : (setLink k l s).cores = s.cores := rfl
@[simp] theorem setLink_mem (k : Nat) (l : Link) : (setLink k l s).mem = s.mem := rfl
@[simp] theorem setLink_sync (k : Nat) (l : Link) : (setLink k l s).sync = s.sync := rfl
@[simp] theorem setLink_fab (k : Nat) (l : Link) : (setLink k l s).fab = s.fab := rfl
@[simp] theorem setLink_eng (k : Nat) (l : Link) : (setLink k l s).eng = s.eng := rfl
@[simp] theorem setLink_pho (k : Nat) (l : Link) : (setLink k l s).pho = s.pho := rfl

/-! ### setSide -/
@[simp] theorem setSide_pending (port side : Nat) (p : PortSide) : (setSide port side p s).pending = s.pending := rfl
@[simp] theorem setSide_now (port side : Nat) (p : PortSide) : (setSide port side p s).now = s.now := rfl
@[simp] theorem setSide_fresh (port side : Nat) (p : PortSide) : (setSide port side p s).fresh = s.fresh := rfl
@[simp] theorem setSide_out (port side : Nat) (p : PortSide) : (setSide port side p s).out = s.out := rfl
@[simp] theorem setSide_pins (port side : Nat) (p : PortSide) : (setSide port side p s).pins = s.pins := rfl
@[simp] theorem setSide_fuses (port side : Nat) (p : PortSide) : (setSide port side p s).fuses = s.fuses := rfl
@[simp] theorem setSide_pkg (port side : Nat) (p : PortSide) : (setSide port side p s).pkg = s.pkg := rfl
@[simp] theorem setSide_aon (port side : Nat) (p : PortSide) : (setSide port side p s).aon = s.aon := rfl
@[simp] theorem setSide_clk (port side : Nat) (p : PortSide) : (setSide port side p s).clk = s.clk := rfl
@[simp] theorem setSide_evq (port side : Nat) (p : PortSide) : (setSide port side p s).evq = s.evq := rfl
@[simp] theorem setSide_hp (port side : Nat) (p : PortSide) : (setSide port side p s).hp = s.hp := rfl
@[simp] theorem setSide_hl (port side : Nat) (p : PortSide) : (setSide port side p s).hl = s.hl := rfl
@[simp] theorem setSide_mp (port side : Nat) (p : PortSide) : (setSide port side p s).mp = s.mp := rfl
@[simp] theorem setSide_mp2 (port side : Nat) (p : PortSide) : (setSide port side p s).mp2 = s.mp2 := rfl
@[simp] theorem setSide_pod (port side : Nat) (p : PortSide) : (setSide port side p s).pod = s.pod := rfl
@[simp] theorem setSide_pod2 (port side : Nat) (p : PortSide) : (setSide port side p s).pod2 = s.pod2 := rfl
@[simp] theorem setSide_cfg (port side : Nat) (p : PortSide) : (setSide port side p s).cfg = s.cfg := rfl
@[simp] theorem setSide_guest (port side : Nat) (p : PortSide) : (setSide port side p s).guest = s.guest := rfl
@[simp] theorem setSide_obs (port side : Nat) (p : PortSide) : (setSide port side p s).obs = s.obs := rfl
@[simp] theorem setSide_rel (port side : Nat) (p : PortSide) : (setSide port side p s).rel = s.rel := rfl
@[simp] theorem setSide_pwr (port side : Nat) (p : PortSide) : (setSide port side p s).pwr = s.pwr := rfl
@[simp] theorem setSide_upd (port side : Nat) (p : PortSide) : (setSide port side p s).upd = s.upd := rfl
@[simp] theorem setSide_parts (port side : Nat) (p : PortSide) : (setSide port side p s).parts = s.parts := rfl
@[simp] theorem setSide_jobs (port side : Nat) (p : PortSide) : (setSide port side p s).jobs = s.jobs := rfl
@[simp] theorem setSide_cores (port side : Nat) (p : PortSide) : (setSide port side p s).cores = s.cores := rfl
@[simp] theorem setSide_mem (port side : Nat) (p : PortSide) : (setSide port side p s).mem = s.mem := rfl
@[simp] theorem setSide_sync (port side : Nat) (p : PortSide) : (setSide port side p s).sync = s.sync := rfl
@[simp] theorem setSide_fab (port side : Nat) (p : PortSide) : (setSide port side p s).fab = s.fab := rfl
@[simp] theorem setSide_eng (port side : Nat) (p : PortSide) : (setSide port side p s).eng = s.eng := rfl
@[simp] theorem setSide_pho (port side : Nat) (p : PortSide) : (setSide port side p s).pho = s.pho := rfl

/-! ### setFab -/
@[simp] theorem setFab_pending (f : Fabric) : (setFab f s).pending = s.pending := rfl
@[simp] theorem setFab_now (f : Fabric) : (setFab f s).now = s.now := rfl
@[simp] theorem setFab_fresh (f : Fabric) : (setFab f s).fresh = s.fresh := rfl
@[simp] theorem setFab_out (f : Fabric) : (setFab f s).out = s.out := rfl
@[simp] theorem setFab_pins (f : Fabric) : (setFab f s).pins = s.pins := rfl
@[simp] theorem setFab_fuses (f : Fabric) : (setFab f s).fuses = s.fuses := rfl
@[simp] theorem setFab_pkg (f : Fabric) : (setFab f s).pkg = s.pkg := rfl
@[simp] theorem setFab_aon (f : Fabric) : (setFab f s).aon = s.aon := rfl
@[simp] theorem setFab_clk (f : Fabric) : (setFab f s).clk = s.clk := rfl
@[simp] theorem setFab_evq (f : Fabric) : (setFab f s).evq = s.evq := rfl
@[simp] theorem setFab_hp (f : Fabric) : (setFab f s).hp = s.hp := rfl
@[simp] theorem setFab_hl (f : Fabric) : (setFab f s).hl = s.hl := rfl
@[simp] theorem setFab_mp (f : Fabric) : (setFab f s).mp = s.mp := rfl
@[simp] theorem setFab_mp2 (f : Fabric) : (setFab f s).mp2 = s.mp2 := rfl
@[simp] theorem setFab_pod (f : Fabric) : (setFab f s).pod = s.pod := rfl
@[simp] theorem setFab_pod2 (f : Fabric) : (setFab f s).pod2 = s.pod2 := rfl
@[simp] theorem setFab_cfg (f : Fabric) : (setFab f s).cfg = s.cfg := rfl
@[simp] theorem setFab_guest (f : Fabric) : (setFab f s).guest = s.guest := rfl
@[simp] theorem setFab_obs (f : Fabric) : (setFab f s).obs = s.obs := rfl
@[simp] theorem setFab_rel (f : Fabric) : (setFab f s).rel = s.rel := rfl
@[simp] theorem setFab_pwr (f : Fabric) : (setFab f s).pwr = s.pwr := rfl
@[simp] theorem setFab_upd (f : Fabric) : (setFab f s).upd = s.upd := rfl
@[simp] theorem setFab_parts (f : Fabric) : (setFab f s).parts = s.parts := rfl
@[simp] theorem setFab_jobs (f : Fabric) : (setFab f s).jobs = s.jobs := rfl
@[simp] theorem setFab_cores (f : Fabric) : (setFab f s).cores = s.cores := rfl
@[simp] theorem setFab_mem (f : Fabric) : (setFab f s).mem = s.mem := rfl
@[simp] theorem setFab_sync (f : Fabric) : (setFab f s).sync = s.sync := rfl
@[simp] theorem setFab_eng (f : Fabric) : (setFab f s).eng = s.eng := rfl
@[simp] theorem setFab_pho (f : Fabric) : (setFab f s).pho = s.pho := rfl
@[simp] theorem setFab_xpt (f : Fabric) : (setFab f s).xpt = s.xpt := rfl

/-! ### setEngine -/
@[simp] theorem setEngine_pending (e : Eng) : (setEngine e s).pending = s.pending := rfl
@[simp] theorem setEngine_now (e : Eng) : (setEngine e s).now = s.now := rfl
@[simp] theorem setEngine_fresh (e : Eng) : (setEngine e s).fresh = s.fresh := rfl
@[simp] theorem setEngine_out (e : Eng) : (setEngine e s).out = s.out := rfl
@[simp] theorem setEngine_pins (e : Eng) : (setEngine e s).pins = s.pins := rfl
@[simp] theorem setEngine_fuses (e : Eng) : (setEngine e s).fuses = s.fuses := rfl
@[simp] theorem setEngine_pkg (e : Eng) : (setEngine e s).pkg = s.pkg := rfl
@[simp] theorem setEngine_aon (e : Eng) : (setEngine e s).aon = s.aon := rfl
@[simp] theorem setEngine_clk (e : Eng) : (setEngine e s).clk = s.clk := rfl
@[simp] theorem setEngine_evq (e : Eng) : (setEngine e s).evq = s.evq := rfl
@[simp] theorem setEngine_hp (e : Eng) : (setEngine e s).hp = s.hp := rfl
@[simp] theorem setEngine_hl (e : Eng) : (setEngine e s).hl = s.hl := rfl
@[simp] theorem setEngine_mp (e : Eng) : (setEngine e s).mp = s.mp := rfl
@[simp] theorem setEngine_mp2 (e : Eng) : (setEngine e s).mp2 = s.mp2 := rfl
@[simp] theorem setEngine_pod (e : Eng) : (setEngine e s).pod = s.pod := rfl
@[simp] theorem setEngine_pod2 (e : Eng) : (setEngine e s).pod2 = s.pod2 := rfl
@[simp] theorem setEngine_cfg (e : Eng) : (setEngine e s).cfg = s.cfg := rfl
@[simp] theorem setEngine_guest (e : Eng) : (setEngine e s).guest = s.guest := rfl
@[simp] theorem setEngine_obs (e : Eng) : (setEngine e s).obs = s.obs := rfl
@[simp] theorem setEngine_rel (e : Eng) : (setEngine e s).rel = s.rel := rfl
@[simp] theorem setEngine_pwr (e : Eng) : (setEngine e s).pwr = s.pwr := rfl
@[simp] theorem setEngine_upd (e : Eng) : (setEngine e s).upd = s.upd := rfl
@[simp] theorem setEngine_parts (e : Eng) : (setEngine e s).parts = s.parts := rfl
@[simp] theorem setEngine_jobs (e : Eng) : (setEngine e s).jobs = s.jobs := rfl
@[simp] theorem setEngine_cores (e : Eng) : (setEngine e s).cores = s.cores := rfl
@[simp] theorem setEngine_mem (e : Eng) : (setEngine e s).mem = s.mem := rfl
@[simp] theorem setEngine_sync (e : Eng) : (setEngine e s).sync = s.sync := rfl
@[simp] theorem setEngine_fab (e : Eng) : (setEngine e s).fab = s.fab := rfl
@[simp] theorem setEngine_pho (e : Eng) : (setEngine e s).pho = s.pho := rfl
@[simp] theorem setEngine_xpt (e : Eng) : (setEngine e s).xpt = s.xpt := rfl

/-! ### setGuest -/
@[simp] theorem setGuest_pending (g : Guest) : (setGuest g s).pending = s.pending := rfl
@[simp] theorem setGuest_now (g : Guest) : (setGuest g s).now = s.now := rfl
@[simp] theorem setGuest_fresh (g : Guest) : (setGuest g s).fresh = s.fresh := rfl
@[simp] theorem setGuest_out (g : Guest) : (setGuest g s).out = s.out := rfl
@[simp] theorem setGuest_pins (g : Guest) : (setGuest g s).pins = s.pins := rfl
@[simp] theorem setGuest_fuses (g : Guest) : (setGuest g s).fuses = s.fuses := rfl
@[simp] theorem setGuest_pkg (g : Guest) : (setGuest g s).pkg = s.pkg := rfl
@[simp] theorem setGuest_aon (g : Guest) : (setGuest g s).aon = s.aon := rfl
@[simp] theorem setGuest_clk (g : Guest) : (setGuest g s).clk = s.clk := rfl
@[simp] theorem setGuest_evq (g : Guest) : (setGuest g s).evq = s.evq := rfl
@[simp] theorem setGuest_hp (g : Guest) : (setGuest g s).hp = s.hp := rfl
@[simp] theorem setGuest_hl (g : Guest) : (setGuest g s).hl = s.hl := rfl
@[simp] theorem setGuest_mp (g : Guest) : (setGuest g s).mp = s.mp := rfl
@[simp] theorem setGuest_mp2 (g : Guest) : (setGuest g s).mp2 = s.mp2 := rfl
@[simp] theorem setGuest_pod (g : Guest) : (setGuest g s).pod = s.pod := rfl
@[simp] theorem setGuest_pod2 (g : Guest) : (setGuest g s).pod2 = s.pod2 := rfl
@[simp] theorem setGuest_cfg (g : Guest) : (setGuest g s).cfg = s.cfg := rfl
@[simp] theorem setGuest_obs (g : Guest) : (setGuest g s).obs = s.obs := rfl
@[simp] theorem setGuest_rel (g : Guest) : (setGuest g s).rel = s.rel := rfl
@[simp] theorem setGuest_pwr (g : Guest) : (setGuest g s).pwr = s.pwr := rfl
@[simp] theorem setGuest_upd (g : Guest) : (setGuest g s).upd = s.upd := rfl
@[simp] theorem setGuest_parts (g : Guest) : (setGuest g s).parts = s.parts := rfl
@[simp] theorem setGuest_jobs (g : Guest) : (setGuest g s).jobs = s.jobs := rfl
@[simp] theorem setGuest_cores (g : Guest) : (setGuest g s).cores = s.cores := rfl
@[simp] theorem setGuest_mem (g : Guest) : (setGuest g s).mem = s.mem := rfl
@[simp] theorem setGuest_sync (g : Guest) : (setGuest g s).sync = s.sync := rfl
@[simp] theorem setGuest_fab (g : Guest) : (setGuest g s).fab = s.fab := rfl
@[simp] theorem setGuest_eng (g : Guest) : (setGuest g s).eng = s.eng := rfl
@[simp] theorem setGuest_pho (g : Guest) : (setGuest g s).pho = s.pho := rfl
@[simp] theorem setGuest_xpt (g : Guest) : (setGuest g s).xpt = s.xpt := rfl

/-! ### setObs -/
@[simp] theorem setObs_pending (o : Obs) : (setObs o s).pending = s.pending := rfl
@[simp] theorem setObs_now (o : Obs) : (setObs o s).now = s.now := rfl
@[simp] theorem setObs_fresh (o : Obs) : (setObs o s).fresh = s.fresh := rfl
@[simp] theorem setObs_out (o : Obs) : (setObs o s).out = s.out := rfl
@[simp] theorem setObs_pins (o : Obs) : (setObs o s).pins = s.pins := rfl
@[simp] theorem setObs_fuses (o : Obs) : (setObs o s).fuses = s.fuses := rfl
@[simp] theorem setObs_pkg (o : Obs) : (setObs o s).pkg = s.pkg := rfl
@[simp] theorem setObs_aon (o : Obs) : (setObs o s).aon = s.aon := rfl
@[simp] theorem setObs_clk (o : Obs) : (setObs o s).clk = s.clk := rfl
@[simp] theorem setObs_evq (o : Obs) : (setObs o s).evq = s.evq := rfl
@[simp] theorem setObs_hp (o : Obs) : (setObs o s).hp = s.hp := rfl
@[simp] theorem setObs_hl (o : Obs) : (setObs o s).hl = s.hl := rfl
@[simp] theorem setObs_mp (o : Obs) : (setObs o s).mp = s.mp := rfl
@[simp] theorem setObs_mp2 (o : Obs) : (setObs o s).mp2 = s.mp2 := rfl
@[simp] theorem setObs_pod (o : Obs) : (setObs o s).pod = s.pod := rfl
@[simp] theorem setObs_pod2 (o : Obs) : (setObs o s).pod2 = s.pod2 := rfl
@[simp] theorem setObs_cfg (o : Obs) : (setObs o s).cfg = s.cfg := rfl
@[simp] theorem setObs_guest (o : Obs) : (setObs o s).guest = s.guest := rfl
@[simp] theorem setObs_rel (o : Obs) : (setObs o s).rel = s.rel := rfl
@[simp] theorem setObs_pwr (o : Obs) : (setObs o s).pwr = s.pwr := rfl
@[simp] theorem setObs_upd (o : Obs) : (setObs o s).upd = s.upd := rfl
@[simp] theorem setObs_parts (o : Obs) : (setObs o s).parts = s.parts := rfl
@[simp] theorem setObs_jobs (o : Obs) : (setObs o s).jobs = s.jobs := rfl
@[simp] theorem setObs_cores (o : Obs) : (setObs o s).cores = s.cores := rfl
@[simp] theorem setObs_mem (o : Obs) : (setObs o s).mem = s.mem := rfl
@[simp] theorem setObs_sync (o : Obs) : (setObs o s).sync = s.sync := rfl
@[simp] theorem setObs_fab (o : Obs) : (setObs o s).fab = s.fab := rfl
@[simp] theorem setObs_eng (o : Obs) : (setObs o s).eng = s.eng := rfl
@[simp] theorem setObs_pho (o : Obs) : (setObs o s).pho = s.pho := rfl
@[simp] theorem setObs_xpt (o : Obs) : (setObs o s).xpt = s.xpt := rfl

end Sys2Proof.Machine
end

