-- ==== Sys2Proof/Laws/Buffers.lean ====
section
/-! SUPPORT. Laws/Buffers.lean: buffers in HBM4 of which nothing is fenced or poisoned: a read delivers what stands there and a write of whole
lines is carried out. -/
namespace Sys2Proof.Machine

/-- No stack of HBM4 has lost anything, no error stands in it, and no tile is fenced. -/
def hbmClear (s : State) : Prop := s.mem.hbms = [] ∧ s.rel.tileF = [] ∧ s.mem.flips = []

theorem lineFenced_clear {s : State} (h : hbmClear s) (p : LinePlace) : lineFenced s p = false := by
  simp [lineFenced, stackAt, h.1, h.2.1, mget, mfind]

theorem readLine_clear {s : State} (a : Nat) (h : hbmClear s) (hp : s.mem.m.poison = []) :
    readLine a [] s = (.data (getBs s.mem.m a 64), bump 0x3001 (placeOf s a).stack 1 s) := by
  have e : stackAt (bump 0x3001 (placeOf s a).stack 1 s) (placeOf s a).stack = {} := by simp [stackAt, bump, h.1, mget, mfind]
  have q : errorsOf [] a (bump 0x3001 (placeOf s a).stack 1 s) = none := by simp [errorsOf, findOf, bump, h.2.2]
  have r : isPoison (bump 0x3001 (placeOf s a).stack 1 s).mem.m a = false := by simp [isPoison, bump, hp]
  simp only [readLine, lineFenced_clear h, decodeLine, q, r, unfresh, e]
  rfl

/-- What a fold over the lines of a buffer keeps. -/
theorem bufRead_clear {s : State} (a n : Nat) (h : hbmClear s) (hp : s.mem.m.poison = []) (hd : ∀ l, l ∈ linesOf a n → dpaOf s.pkg.part l = .hbm)
    (hc : ∀ l, l ∈ linesOf a n → lineCut s 12 l = false) : (bufRead a n [] s).1 = .data (getBs s.mem.m a n) := by
  have key : ∀ (ls : List Nat) (t : State), (∀ l, l ∈ ls → dpaOf t.pkg.part l = .hbm ∧ lineCut t 12 l = false) → hbmClear t → t.mem.m = s.mem.m →
      ∃ u, ls.foldl (fun (x : Option Nat × State) l =>
        match x.1 with
        | some d => (some d, x.2)
        | none =>
          if lineCut x.2 12 l then (some 0xF1, x.2)
          else
          let (o, s) := readDpa l [] {} 4 x.2
          match o with
          | .data _ => (none, s)
          | .poison _ => (some 0xF0, s)
          | .fenced => (some 0xF1, s)) (none, t) = (none, u) ∧ u.mem.m = s.mem.m := by
    intro ls
    induction ls with
    | nil => exact fun t _ _ hm => ⟨t, rfl, hm⟩
    | cons l r ih =>
      intro t hl hc hm
      have e : readDpa l [] {} 4 t = (.data (getBs t.mem.m l 64), bump 0x3001 (placeOf t l).stack 1 t) := by
        simp [readDpa, readDpaQ, reportBad, (hl l (by simp)).1, readLine_clear l hc (by rw [hm]; exact hp)]
      simp only [List.foldl_cons, e, (hl l (by simp)).2, Bool.false_eq_true, if_false]
      exact ih _ (fun x hx => hl x (List.mem_cons_of_mem _ hx)) hc hm
  obtain ⟨u, e, hm⟩ := key (linesOf a n) s (fun l q => ⟨hd l q, hc l q⟩) h rfl
  unfold bufRead
  generalize hg : List.foldl _ _ _ = g
  have hg' : g = (none, u) := hg.symm.trans e
  subst hg'
  simp only [hm]

theorem bufWrite_clear {s : State} (a : Nat) (bs : List Byte) (h : hbmClear s) (ha : a % 64 = 0) (hb : bs.length % 64 = 0)
    (hd : ∀ q, q ∈ pieces a bs 0 → dpaOf s.pkg.part q.1 = .hbm) (hc : ∀ q, q ∈ pieces a bs 0 → lineCut s 12 q.1 = false) : (bufWrite a bs s).1 = none := by
  have hp : ∀ q, q ∈ pieces a bs 0 → q.2.1.length = 64 ∧ q.1 % 64 = 0 := by
    intro q hq
    simp only [pieces, linesOf, List.mem_map] at hq
    obtain ⟨l, hl, rfl⟩ := hq
    split at hl
    · simp at hl
    · simp only [List.mem_map, List.mem_range] at hl
      obtain ⟨i, hi, rfl⟩ := hl
      simp only [List.length_take, List.length_drop]
      omega
  have key : ∀ (ls : List (Nat × List Byte × List (Nat × Nat))) (t : State),
      (∀ q, q ∈ ls → (q.2.1.length = 64 ∧ q.1 % 64 = 0) ∧ dpaOf t.pkg.part q.1 = .hbm ∧ lineCut t 12 q.1 = false) → hbmClear t →
      (ls.foldl (fun (x : Option Nat × State) q =>
        match x.1 with
        | some d => (some d, x.2)
        | none =>
          if lineCut x.2 12 q.1 then (some 0xF1, x.2)
          else
          let (ok, s) := writeDpa q.1 q.2.1 [] x.2
          (if ok then none else some 0xF1, s)) (none, t)).1 = none := by
    intro ls
    induction ls with
    | nil => exact fun _ _ _ => rfl
    | cons q r ih =>
      intro t hl hc
      obtain ⟨⟨h1, h2⟩, h3, h4⟩ := hl q (by simp)
      have e : ∃ m, writeDpa q.1 q.2.1 [] t = (true, setMem (bump 0x3002 (placeOf t q.1).stack 1 t) m) := by
        exact ⟨writeBs t.mem.m q.1 q.2.1, by simp [writeDpa, hbmWrite, h3, h1, h2, writeLine, lineFenced_clear hc, dropOld, unflip, stackAt, hc.1, hc.2.2, mget, mfind]⟩
      obtain ⟨m, e⟩ := e
      simp only [List.foldl_cons, e, h4, Bool.false_eq_true, if_false, if_true]
      exact ih _ (fun x hx => hl x (List.mem_cons_of_mem _ hx)) hc
  exact key _ s (fun q hq => ⟨hp q hq, hd q hq, hc q hq⟩) h

end Sys2Proof.Machine
end

