-- ==== Sys2Proof/Laws/Settle.lean ====
section
/-! SUPPORT. Settle.lean: what settling HEALTH_SEQ and the vectors changes (spec/11 R344, R347). -/
namespace Sys2Proof.Machine

/-- Two states that differ only in what has been sent, in the pending-bit array and in the causes noted within the step. -/
def SameButSent (s t : State) : Prop := ∃ o p r, t = { s with out := o, hp := { s.hp with pba := p, rose := r } }

theorem SameButSent.refl (s : State) : SameButSent s s := ⟨s.out, s.hp.pba, s.hp.rose, rfl⟩

theorem SameButSent.trans {s t u : State} (h1 : SameButSent s t) (h2 : SameButSent t u) : SameButSent s u := by
  obtain ⟨o1, p1, r1, rfl⟩ := h1
  obtain ⟨o2, p2, r2, rfl⟩ := h2
  exact ⟨o2, p2, r2, rfl⟩

theorem SameButSent.vecOpen {s t : State} (h : SameButSent s t) (v : Nat) : vecOpen t v = vecOpen s v := by
  obtain ⟨o, p, r, rfl⟩ := h
  rfl

theorem SameButSent.healthRegs {s t : State} (h : SameButSent s t) : healthRegs t = healthRegs s := by
  obtain ⟨o, p, r, rfl⟩ := h
  rfl

/-- A vector that stays pending. -/
def keeps (a s : State) (v : Nat) : Bool :=
  !vecOpen s v && (causeLevel s v || ((v == 33 || decide (35 ≤ v)) && (causeRises a s v || s.hp.rose.contains v || s.hp.pba.getLsbD v)))

theorem settleVec_same (a s : State) (v : Nat) : SameButSent s (settleVec a s v) := by
  unfold settleVec
  dsimp only
  split
  · exact ⟨_, _, s.hp.rose, rfl⟩
  · exact ⟨_, _, s.hp.rose, rfl⟩

/-- The pending bits after a vector is settled: its own bit as `keeps` says, every other as before. -/
theorem settleVec_bit (a s : State) (v w : Nat) (hw : w < 64) :
    (settleVec a s v).hp.pba.getLsbD w = if w = v then keeps a s v else s.hp.pba.getLsbD w := by
  have key : ∀ (b : Bool) (p : BitVec 64), (if b then p ||| (1#64 <<< v) else p &&& ~~~(1#64 <<< v)).getLsbD w
      = if w = v then b else p.getLsbD w := by
    intro b p
    by_cases hwv : w = v
    · subst hwv
      cases b <;> simp [hw]
    · rcases Nat.lt_or_gt_of_ne hwv with hlt | hgt
      · cases b <;> simp [hw, hwv, hlt]
      · have h2 : w - v ≠ 0 := by omega
        cases b <;> simp [hw, hwv, h2]
  have e : (settleVec a s v).hp.pba
      = if keeps a s v then s.hp.pba ||| (1#64 <<< v) else s.hp.pba &&& ~~~(1#64 <<< v) := by
    have hh : ∀ (c : Bool) (o : Out), (if c then send o s else s).hp = s.hp := by
      intro c o
      cases c <;> rfl
    unfold settleVec keeps
    dsimp only
    rw [hh]
  rw [e]
  exact key _ _

theorem fold_same (a : State) (l : List Nat) (s : State) : SameButSent s (l.foldl (settleVec a) s) := by
  induction l generalizing s with
  | nil => exact .refl s
  | cons v r ih => exact (settleVec_same a s v).trans (ih _)

/-- A bit of a vector that the list does not name stays. -/
theorem fold_bit_other (a : State) (l : List Nat) (s : State) (w : Nat) (hw : w < 64) (h : w ∉ l) :
    (l.foldl (settleVec a) s).hp.pba.getLsbD w = s.hp.pba.getLsbD w := by
  induction l generalizing s with
  | nil => rfl
  | cons v r ih =>
    rw [List.foldl_cons, ih _ (fun hr => h (by simp [hr])), settleVec_bit a s v w hw]
    have : w ≠ v := fun e => h (by simp [e])
    simp [this]

/-- No vector that the list names is both open and pending afterwards. -/
theorem fold_closed (a : State) (l : List Nat) (s : State) (v : Nat) (hv : v < 64) (h : v ∈ l)
    (hp : (l.foldl (settleVec a) s).hp.pba.getLsbD v = true) : vecOpen s v = false := by
  induction l generalizing s with
  | nil => simp at h
  | cons w r ih =>
    rw [List.foldl_cons] at hp
    by_cases hr : v ∈ r
    · rw [← (settleVec_same a s w).vecOpen v]
      exact ih _ hr hp
    · have hvw : v = w := by
        rcases List.mem_cons.mp h with h | h
        · exact h
        · exact absurd h hr
      rw [fold_bit_other a r _ v hv hr, settleVec_bit a s w v hv] at hp
      simp only [hvw, if_true, keeps, Bool.and_eq_true, Bool.not_eq_true'] at hp
      rw [hvw]
      exact hp.1

/-- What settling does to the rest of the state: HEALTH_SEQ alone. -/
theorem settle_same (a s : State) : SameButSent (settleHealth a s) (settle a s) := by
  unfold settle
  exact (fold_same a _ _).trans ⟨_, _, [], rfl⟩
/-- The causes noted within the step are used up. -/
theorem settle_rose (a s : State) : (settle a s).hp.rose = [] := rfl
theorem settle_pba (a s : State) : (settle a s).hp.pba = ((List.range 37).foldl (settleVec a) (settleHealth a s)).hp.pba := by
  unfold settle
  generalize List.foldl _ _ _ = x
  rfl

theorem settle_closed (a s : State) (v : Nat) (hv : v < 37) (hp : (settle a s).hp.pba.getLsbD v = true) :
    vecOpen (settle a s) v = false := by
  rw [(settle_same a s).vecOpen v]
  rw [settle_pba] at hp
  exact fold_closed a _ _ v (by omega) (by simpa using hv) hp

theorem settleHealth_regs (a s : State) : healthRegs (settleHealth a s) = healthRegs s := by
  unfold settleHealth
  split <;> rfl

theorem settleHealth_power (a s : State) : (settleHealth a s).pkg = s.pkg := by
  unfold settleHealth
  split <;> rfl

/-- HEALTH_SEQ after settling (R347). -/
theorem settle_healthSeq (a s : State) (hp : s.pkg.power ≠ 3) (h : healthRegs a ≠ healthRegs s) :
    (settle a s).hl.healthSeq = a.hl.healthSeq + 1 := by
  obtain ⟨o, p, r, e⟩ := settle_same a s
  rw [e]
  simp [settleHealth, hp, h]

theorem settle_regs (a s : State) : healthRegs (settle a s) = healthRegs s := by
  rw [(settle_same a s).healthRegs, settleHealth_regs]

/-- Settling changes HEALTH_SEQ, what is sent and the pending bits, and nothing else. -/
theorem settle_frame (a s : State) :
    ∃ o p r q, settle a s = { s with out := o, hp := { s.hp with pba := p, rose := r }, hl := { s.hl with healthSeq := q } } := by
  obtain ⟨o, p, r, e⟩ := settle_same a s
  rw [e]
  unfold settleHealth
  split
  · exact ⟨o, p, r, s.hl.healthSeq, rfl⟩
  · exact ⟨o, p, r, _, rfl⟩

end Sys2Proof.Machine
end

