-- ==== Sys2Proof/Laws/Closing.lean ====
section
/-! SUPPORT. Closing.lean: what follows from a command at once, said once (log 15). -/
namespace Sys2Proof.Machine

/-- A fold whose every step keeps a projection keeps it. -/
theorem foldl_keeps {α β γ : Type} (g : β → γ) (f : β → α → β) (h : ∀ s a, g (f s a) = g s) (l : List α) (s : β) :
    g (l.foldl f s) = g s := by
  induction l generalizing s with
  | nil => rfl
  | cons a r ih => rw [List.foldl_cons, ih, h]

/-- A state without what may follow from any command: what is sent, events, counters, roods, links and the paths of answers, stalemates reported and watched,
the ports of requests, the pending-bit array, the causes noted within a step, HEALTH_SEQ and the queue. -/
def kept (s : State) : State :=
  { s with out := [], evq := [], obs := { s.obs with ctrs := [] }, clk := { s.clk with roods := [] }, xpt := { s.xpt with links := [], paths := [], reqPort := [] }, sync := { s.sync with stale := [], quiet := [] }, hp := { s.hp with pba := 0, rose := [] }
           hl := { s.hl with healthSeq := 0 }, pending := [] }

/-- A command's effect left alone what the isolation of stacks and the request engine depend on. -/
structure Quiet (a s : State) : Prop where
  bundles : a.pho.bundles = s.pho.bundles
  ports : a.xpt.ports = s.xpt.ports
  engine : engSame a s = true

theorem kept_emit (src code : Nat) (args : List Nat) (s : State) : kept (emit src code args s) = kept s := rfl
theorem kept_setRood (site id : Nat) (r : Rood) (s : State) : kept (setRood s site id r) = kept s := rfl
theorem kept_send (o : Out) (s : State) : kept (send o s) = kept s := rfl
theorem kept_bump (id inst n : Nat) (s : State) : kept (bump id inst n s) = kept s := rfl
theorem kept_setLink (k : Nat) (l : Link) (s : State) : kept (setLink k l s) = kept s := rfl

theorem kept_pending (t : State) (p : List Instr) : kept { t with pending := p } = kept t := rfl

theorem kept_staleEnd (s : State) : kept (staleEnd s) = kept s := by
  unfold staleEnd
  refine foldl_keeps kept _ ?_ _ s
  intro s q
  dsimp only
  split <;> rfl

theorem kept_gateSettle (s : State) : kept (gateSettle s) = kept s := by
  unfold gateSettle
  split
  · refine foldl_keeps kept _ ?_ _ s
    intro s q
    refine foldl_keeps kept _ ?_ _ s
    intro s n
    refine foldl_keeps kept _ ?_ _ s
    intro s c
    dsimp only
    split <;> rfl
  · split <;> rfl

theorem kept_staleWatch (a s : State) : kept (staleWatch a s) = kept s := rfl

theorem kept_putWire (k kind vc seq ackk : Nat) (body : List Byte) (s : State) : kept (putWire k kind vc seq ackk body s) = kept s := rfl

theorem kept_pump (n k : Nat) (s : State) : kept (pump n k s) = kept s := by
  induction n generalizing s with
  | zero => rfl
  | succ n ih =>
    unfold pump
    dsimp only
    split
    · rfl
    · split
      · rfl
      · rw [ih, kept_putWire]
        rfl

theorem kept_queueFlits (k : Nat) (fs : List Flit) (s : State) : kept (queueFlits k fs s) = kept s := by
  unfold queueFlits pumpAll
  rw [kept_pump]
  rfl

theorem kept_notePort (p : OPkt) (src dst b : Nat) (s : State) : kept (notePort p src dst b s) = kept s := by
  unfold notePort
  split <;> rfl

theorem kept_sendVia (s : State) (p : OPkt) (src : Nat) (r : Option Nat) : kept (sendVia s p src r) = kept s := by
  unfold sendVia
  dsimp only
  split <;> split <;> first | rfl | exact (kept_queueFlits _ _ _).trans (kept_notePort _ _ _ _ _)

theorem kept_routePkt (p : OPkt) (src : Nat) (s : State) : kept (routePkt p src s) = kept s := by
  have h (c : Bool) (m : Map Nat) : kept (if c then setXpt { s.xpt with paths := m } s else s) = kept s := by cases c <;> rfl
  unfold routePkt
  dsimp only
  generalize (if p.op = 3 ∨ p.op = 5 then mfind s.xpt.paths (pathKey src p.dst p.tag) else none) = back
  by_cases hs : src = p.dst
  · rw [if_pos hs]
    exact h _ _
  · rw [if_neg hs]
    cases back with
    | some r => exact (kept_sendVia _ _ _ _).trans (h true _)
    | none =>
      dsimp only
      rw [if_neg (c := (none : Option Nat).isSome = true) (by simp)]
      split <;> exact kept_sendVia _ _ _ _

theorem kept_frameOut (s : State) (o : Out) : kept (frameOut s o) = kept s := by
  unfold frameOut
  split <;> first | rfl | exact kept_routePkt _ _ _

theorem kept_linkSettle (a s : State) : kept (linkSettle a s) = kept s := by
  unfold linkSettle
  exact foldl_keeps kept _ kept_frameOut _ s

theorem kept_settle (a s : State) : kept (settle a s) = kept s := by
  obtain ⟨o, p, r, q, e⟩ := settle_frame a s
  rw [e]
  rfl

/-- After a quiet effect, closing changes nothing that `kept` keeps. -/
theorem kept_closing {a s : State} (h : Quiet a s) : kept (closing a s) = kept s := by
  have h1 : isolationSettle a s = s := by
    unfold isolationSettle
    rw [if_pos (.inl ⟨h.bundles, h.ports⟩)]
  have hs : kept (staleWatch a (staleEnd s)) = kept s := (kept_staleWatch _ _).trans (kept_staleEnd s)
  have h2 : engSame a (staleWatch a (staleEnd s)) = engSame a s := by
    have e := congrArg (fun t : State => (t.eng, t.parts, t.jobs, t.cfg, t.fab, t.pod, t.pkg, t.rel)) hs
    simp only [kept, Prod.mk.injEq] at e
    obtain ⟨e1, e2, e3, e4, e5, e6, e7, e8⟩ := e
    simp only [engSame, e1, e2, e3, e4, e5, e6, e7, e8]
  have h3 : engSettle a (staleWatch a (staleEnd s)) = staleWatch a (staleEnd s) := by
    unfold engSettle
    rw [h2, h.engine, if_pos rfl]
  have h4 : kept (closing a s)
      = kept (settle a (linkSettle a (gateSettle (engSettle a (staleWatch a (staleEnd (isolationSettle a s))))))) := by
    unfold closing
    exact kept_pending _ _
  rw [h4, kept_settle, kept_linkSettle, kept_gateSettle, h1, h3, hs]

/-! ## What closing always gives -/

/-- No command changes the queue. -/
@[simp] theorem closing_pending (a s : State) : (closing a s).pending = a.pending := by unfold closing; rfl

theorem vecOpen_pending (t : State) (p : List Instr) (v : Nat) : vecOpen { t with pending := p } v = vecOpen t v := rfl

/-- After every command each vector whose pending bit stands is masked (spec/11 R344). -/
theorem closing_vectors (a s : State) : VectorsSent (closing a s) := by
  intro v hv hp
  unfold closing at hp ⊢
  rw [vecOpen_pending]
  dsimp only at hp
  exact settle_closed a _ v hv hp

/-! ## The fields that closing leaves after a quiet effect -/

section
variable {t u : State} (h : kept t = kept u)
include h
theorem kept_now : t.now = u.now := by have e := congrArg State.now h; exact e
theorem kept_fresh : t.fresh = u.fresh := by have e := congrArg State.fresh h; exact e
theorem kept_pins : t.pins = u.pins := by have e := congrArg State.pins h; exact e
theorem kept_fuses : t.fuses = u.fuses := by have e := congrArg State.fuses h; exact e
theorem kept_pkg : t.pkg = u.pkg := by have e := congrArg State.pkg h; exact e
theorem kept_aon : t.aon = u.aon := by have e := congrArg State.aon h; exact e
theorem kept_mp : t.mp = u.mp := by have e := congrArg State.mp h; exact e
theorem kept_mp2 : t.mp2 = u.mp2 := by have e := congrArg State.mp2 h; exact e
theorem kept_pod : t.pod = u.pod := by have e := congrArg State.pod h; exact e
theorem kept_pod2 : t.pod2 = u.pod2 := by have e := congrArg State.pod2 h; exact e
theorem kept_cfg : t.cfg = u.cfg := by have e := congrArg State.cfg h; exact e
theorem kept_guest : t.guest = u.guest := by have e := congrArg State.guest h; exact e
theorem kept_rel : t.rel = u.rel := by have e := congrArg State.rel h; exact e
theorem kept_pwr : t.pwr = u.pwr := by have e := congrArg State.pwr h; exact e
theorem kept_upd : t.upd = u.upd := by have e := congrArg State.upd h; exact e
theorem kept_parts : t.parts = u.parts := by have e := congrArg State.parts h; exact e
theorem kept_jobs : t.jobs = u.jobs := by have e := congrArg State.jobs h; exact e
theorem kept_cores : t.cores = u.cores := by have e := congrArg State.cores h; exact e
theorem kept_mem : t.mem = u.mem := by have e := congrArg State.mem h; exact e
theorem kept_fab : t.fab = u.fab := by have e := congrArg State.fab h; exact e
theorem kept_eng : t.eng = u.eng := by have e := congrArg State.eng h; exact e
theorem kept_pho : t.pho = u.pho := by have e := congrArg State.pho h; exact e
theorem kept_hp : { t.hp with pba := 0, rose := [] } = { u.hp with pba := 0, rose := [] } := by have e := congrArg State.hp h; exact e
theorem kept_hl : { t.hl with healthSeq := 0 } = { u.hl with healthSeq := 0 } := by have e := congrArg State.hl h; exact e
theorem kept_sync : { t.sync with stale := [], quiet := [] } = { u.sync with stale := [], quiet := [] } := by have e := congrArg State.sync h; exact e
end

section
variable {a s : State} (h : Quiet a s)
include h
theorem closing_now : (closing a s).now = s.now := kept_now (kept_closing h)
theorem closing_fresh : (closing a s).fresh = s.fresh := kept_fresh (kept_closing h)
theorem closing_pins : (closing a s).pins = s.pins := kept_pins (kept_closing h)
theorem closing_fuses : (closing a s).fuses = s.fuses := kept_fuses (kept_closing h)
theorem closing_pkg : (closing a s).pkg = s.pkg := kept_pkg (kept_closing h)
theorem closing_aon : (closing a s).aon = s.aon := kept_aon (kept_closing h)
theorem closing_mp : (closing a s).mp = s.mp := kept_mp (kept_closing h)
theorem closing_mp2 : (closing a s).mp2 = s.mp2 := kept_mp2 (kept_closing h)
theorem closing_pod : (closing a s).pod = s.pod := kept_pod (kept_closing h)
theorem closing_pod2 : (closing a s).pod2 = s.pod2 := kept_pod2 (kept_closing h)
theorem closing_cfg : (closing a s).cfg = s.cfg := kept_cfg (kept_closing h)
theorem closing_guest : (closing a s).guest = s.guest := kept_guest (kept_closing h)
theorem closing_rel : (closing a s).rel = s.rel := kept_rel (kept_closing h)
theorem closing_pwr : (closing a s).pwr = s.pwr := kept_pwr (kept_closing h)
theorem closing_upd : (closing a s).upd = s.upd := kept_upd (kept_closing h)
theorem closing_parts : (closing a s).parts = s.parts := kept_parts (kept_closing h)
theorem closing_jobs : (closing a s).jobs = s.jobs := kept_jobs (kept_closing h)
theorem closing_cores : (closing a s).cores = s.cores := kept_cores (kept_closing h)
theorem closing_mem : (closing a s).mem = s.mem := kept_mem (kept_closing h)
theorem closing_fab : (closing a s).fab = s.fab := kept_fab (kept_closing h)
theorem closing_eng : (closing a s).eng = s.eng := kept_eng (kept_closing h)
theorem closing_pho : (closing a s).pho = s.pho := kept_pho (kept_closing h)
/-- The host's registers, but for the pending-bit array and the causes noted within the step. -/
theorem closing_hp : { (closing a s).hp with pba := 0, rose := [] } = { s.hp with pba := 0, rose := [] } := kept_hp (kept_closing h)
/-- The attachment, but for HEALTH_SEQ. -/
theorem closing_hl : { (closing a s).hl with healthSeq := 0 } = { s.hl with healthSeq := 0 } := kept_hl (kept_closing h)
/-- What cores share, but for the stalemates reported and watched. -/
theorem closing_sync : { (closing a s).sync with stale := [], quiet := [] } = { s.sync with stale := [], quiet := [] } := kept_sync (kept_closing h)
end

end Sys2Proof.Machine
end

