-- ==== Sys2Proof/Laws/Still.lean ====
section
/-! SUPPORT. Still.lean: what the request engine's memory accesses leave alone, and so what no command's closing changes where the isolation
of stacks is not looked at (log 15). -/
namespace Sys2Proof.Machine

/-- A state without what an access to memory or the engine's own following of its conditions may change. -/
def still (s : State) : State :=
  { s with out := [], evq := [], obs := { s.obs with ctrs := [] }, clk := { s.clk with roods := [] }
           xpt := { s.xpt with links := [], paths := [], reqPort := [] }, eng := {}, mem := { s.mem with m := {}, hbms := [], flips := [] }, fresh := 0
           fab := { s.fab with wire := [], tel := [], hqs := [] }, sync := { s.sync with stale := [], quiet := [] }, hp := { s.hp with pba := 0, d2hPending := 0, rose := [] }
           hl := { s.hl with healthSeq := 0 }, mp := { s.mp with tickets := [], journal := [] }, pending := [] }

theorem still_of_kept {t u : State} (h : kept t = kept u) : still t = still u := by
  have e : ∀ v, still v = still (kept v) := fun _ => rfl
  rw [e t, e u, h]

theorem still_emitW (src id code : Nat) (args : List (BitVec 64)) (s : State) : still (emitW src id code args s) = still s := rfl
theorem still_emit (src code : Nat) (args : List Nat) (s : State) : still (emit src code args s) = still s := rfl
theorem still_emitMp (code : Nat) (args : List Nat) (s : State) : still (emitMp code args s) = still s := rfl
theorem still_bump (id k n : Nat) (s : State) : still (bump id k n s) = still s := rfl
theorem still_send (o : Out) (s : State) : still (send o s) = still s := rfl
theorem still_setMem (s : State) (m : Mem) : still (setMem s m) = still s := rfl
theorem still_setStack (m : Nat) (h : Hbm) (s : State) : still (setStack m h s) = still s := rfl
theorem still_setEngine (e : Eng) (s : State) : still (setEngine e s) = still s := rfl
theorem still_setRood (site id : Nat) (r : Rood) (s : State) : still (setRood s site id r) = still s := rfl
theorem still_drawWord (s : State) : still (drawWord s).2 = still s := rfl
theorem still_drawBytes (n : Nat) (s : State) : still (drawBytes n s).2 = still s := rfl
theorem still_ringOut (k : Nat) (s : State) : still (ringOut k s) = still s := rfl
theorem still_pending (t : State) (p : List Instr) : still { t with pending := p } = still t := rfl

theorem still_ite {c : Prop} [Decidable c] {t u v : State} (h : still t = still v) (h' : still u = still v) :
    still (if c then t else u) = still v := by split <;> assumption
theorem still_retireChannel (m ch tr : Nat) (s : State) : still (retireChannel m ch tr s) = still s := by
  unfold retireChannel; dsimp only; split <;> rfl
theorem still_spareChannel (m ch tr : Nat) (l : List Nat) (s : State) : still (spareChannel m ch tr l s) = still s := by
  unfold spareChannel
  dsimp only
  split
  · rfl
  · split
    · rfl
    · split
      · rfl
      · exact still_retireChannel _ _ _ _
    · exact still_retireChannel _ _ _ _
theorem still_dueRow (p : LinePlace) (s : State) : still (dueRow p s) = still s := by
  unfold dueRow
  dsimp only
  split
  · split <;> rfl
  · rfl
theorem still_unflip (a : Nat) (s : State) : still (unflip a s) = still s := by unfold unflip; split <;> rfl
theorem still_keepOld (a : Nat) (p : LinePlace) (s : State) : still (keepOld a p s) = still s := by
  unfold keepOld
  dsimp only
  split
  · split <;> rfl
  · rfl
theorem still_dropOld (a : Nat) (p : LinePlace) (s : State) : still (dropOld a p s) = still s := by
  unfold dropOld
  dsimp only
  split
  · split <;> rfl
  · rfl
theorem still_unfresh (p : LinePlace) (s : State) : still (unfresh p s) = still s := by unfold unfresh; dsimp only; split <;> rfl
theorem still_twoFull (m pc : Nat) (i : Option Nat) (s : State) : still (twoFull m pc i s) = still s := by
  unfold twoFull
  cases i with
  | none => rfl
  | some i => exact still_ite (still_spareChannel _ _ _ _ _) rfl
theorem still_corrected (p : LinePlace) (i : Option Nat) (s : State) : still (corrected p i s) = still s := by
  unfold corrected
  exact (still_twoFull _ _ _ _).trans (still_ite (still_dueRow _ _) rfl)
theorem still_poisonLine (a c : Nat) (p : LinePlace) (s : State) : still (poisonLine a c p s) = still s := by
  have h := (still_unflip a (keepOld a p s)).trans (still_keepOld a p s)
  unfold poisonLine
  exact (still_emit _ _ _ _).trans ((still_setMem _ _).trans h)
theorem still_rewriteLine (a : Nat) (bs : List Byte) (p : LinePlace) (s : State) : still (rewriteLine a bs p s) = still s := by
  unfold rewriteLine
  exact (still_setMem _ _).trans ((still_unflip _ _).trans (still_ite rfl (still_keepOld _ _ _)))
theorem still_decodeLine (a : Nat) (fs : List LineFind) (s : State) : still (decodeLine a fs s).2 = still s := by
  unfold decodeLine
  dsimp only
  split
  · split
    · rfl
    · exact still_unfresh _ _
  · split
    · rw [still_dueRow, still_unfresh, still_poisonLine]; rfl
    · rw [still_dueRow, still_unfresh, still_poisonLine]; rfl
    · rfl
    · exact still_unfresh _ _
    · rw [still_corrected, still_rewriteLine]; rfl
theorem still_readLine (a : Nat) (fs : List LineFind) (s : State) : still (readLine a fs s).2 = still s := by
  unfold readLine
  split
  · rfl
  · exact still_decodeLine _ _ _
theorem still_writeLine (a : Nat) (bs : List Byte) (p : Bool) (s : State) : still (writeLine a bs p s).2 = still s := by
  unfold writeLine
  dsimp only
  split
  · rfl
  · exact (still_setMem _ _).trans ((still_unflip _ _).trans (still_dropOld _ _ _))
theorem still_writePart (a : Nat) (bs : List Byte) (fs : List LineFind) (s : State) : still (writePart a bs fs s).2 = still s := by
  have h := still_readLine (a / 64 * 64) fs s
  have g (t : State) (b : List Byte) : still (bump 0x3002 (placeOf s (a / 64 * 64)).stack 1
      (setMem (unflip (a / 64 * 64) (dropOld (a / 64 * 64) (placeOf s (a / 64 * 64)) t))
        (putBs (unflip (a / 64 * 64) (dropOld (a / 64 * 64) (placeOf s (a / 64 * 64)) t)).mem.m a b))) = still t :=
    (still_setMem _ _).trans ((still_unflip _ _).trans (still_dropOld _ _ _))
  simp only [writePart]
  generalize readLine (a / 64 * 64) fs s = x at h ⊢
  obtain ⟨o, t⟩ := x
  cases o
  · exact (g t bs).trans h
  · exact (g t bs).trans h
  · exact h
theorem still_hbmWrite (a : Nat) (bs : List Byte) (p : Bool) (s : State) : still (hbmWrite a bs p s).2 = still s := by
  unfold hbmWrite
  split
  · exact still_writeLine _ _ _ _
  · have h := still_writePart a bs [] s
    generalize writePart a bs [] s = x at h ⊢
    exact still_ite (c := _ = true) h h
theorem still_hubRead (a : Nat) (fs : List LineFind) (s : State) : still (hubRead a fs s).2 = still s := by
  unfold hubRead
  split
  · rfl
  · exact still_readLine _ _ _
theorem still_hubWrite (a : Nat) (bs : List Byte) (p : Bool) (s : State) : still (hubWrite a bs p s).2 = still s := by
  unfold hubWrite
  split
  · rfl
  · exact still_writeLine _ _ _ _
theorem still_areaWrite (a : Nat) (bs : List Byte) (s : State) : still (areaWrite a bs s) = still s := by
  unfold areaWrite
  refine foldl_keeps (fun x : Bool × State => still x.2) _ ?_ _ _
  intro x q
  show still (if (x.1 && !lineCut x.2 12 q.1) = true then hbmWrite q.1 q.2.1 false x.2 else (false, x.2)).2 = still x.2
  split
  · exact still_hbmWrite _ _ _ _
  · rfl
theorem still_touchCm (c : Nat) (s : State) : still (touchCm c s) = still s := by
  unfold touchCm
  dsimp only
  split
  · rfl
  · split <;> rfl
/-! ## The engine (spec/10 R310) -/

theorem still_countReply (st : Nat) (s : State) : still (countReply st s) = still s := by
  unfold countReply
  dsimp only
  split
  · split <;> rfl
  · split <;> rfl
theorem still_modTel (k : Nat) (f : EthTel → EthTel) (s : State) : still (modTel k f s) = still s := rfl
theorem still_etherOut (k : Nat) (x : List Byte) (s : State) : still (etherOut k x s) = still s := rfl
theorem still_replyOut (k : Nat) (p : Peer10) (f : List Byte) (s : State) : still (replyOut k p f s) = still s := by
  unfold replyOut
  dsimp only
  rw [still_etherOut, still_bump, still_modTel]
theorem still_enginePost (q n : Nat) (b : List Byte) (s : State) : still (enginePost q n b s) = still s := rfl
theorem still_sendReply (p : Peer10) (rec : List Byte) (st : Nat) (res : List Byte) (s : State) :
    still (sendReply p rec st res s) = still s := by
  unfold sendReply
  dsimp only
  split
  · split
    · rw [still_send, still_replyOut, still_countReply]
    · exact still_countReply _ _
  · refine (still_ringOut _ _).trans ?_
    refine (still_send _ _).trans ?_
    refine (still_setEngine _ _).trans ?_
    rw [still_areaWrite, still_areaWrite, still_countReply]
theorem still_ownReply (p : Peer10) (rec : List Byte) (st : Nat) (s : State) : still (ownReply p rec st s) = still s :=
  still_sendReply _ _ _ _ _
theorem still_engFault (key code name cause : Nat) (s : State) : still (engFault key code name cause s) = still s := by
  unfold engFault; split <;> rfl
theorem still_writeBack (base : Nat) (e : SessEnt) (s : State) : still (writeBack base e s) = still s := by
  unfold writeBack
  exact still_ite (still_hubWrite _ _ _ _) rfl
theorem still_cachePut (e : SessEnt) (s : State) : still (cachePut e s) = still s := by
  unfold cachePut
  exact (foldl_keeps still _ (fun t x => still_writeBack _ _ _) _ _).trans (still_setEngine _ _)
theorem still_cacheFlush (base : Nat) (s : State) : still (cacheFlush base s) = still s := by
  unfold cacheFlush
  exact (still_setEngine _ _).trans (foldl_keeps still _ (fun t x => still_writeBack _ _ _) _ _)
theorem still_engMended (k : Nat) (s : State) : still (engMended k s) = still s := rfl
theorem still_sessLost (n c : Nat) (s : State) : still (sessLost n c s).2 = still s := by
  unfold sessLost
  generalize 2 ^ 23 + n = k
  dsimp only
  have h := (still_hubWrite (sessAddr s n) (List.replicate 64 0) false (engFault k Ev.engSessionLost n c s)).trans (still_engFault k Ev.engSessionLost n c s)
  split
  · rw [still_engMended, h]
  · exact h
theorem still_readSession (n : Nat) (fs : List LineFind) (s : State) : still (readSession n fs s).2 = still s := by
  have h := still_hubRead (sessAddr s n) fs s
  unfold readSession
  generalize hubRead (sessAddr s n) fs s = x at h ⊢
  obtain ⟨o, t⟩ := x
  cases cached s n with
  | some e => exact still_cachePut _ _
  | none =>
    cases o with
    | data b =>
      dsimp only
      split
      · exact (still_sessLost n 0 t).trans h
      · exact (still_cachePut _ _).trans h
    | poison b => exact (still_sessLost n 0 t).trans h
    | fenced => exact (still_sessLost n 1 t).trans h
theorem still_putSession (n off : Nat) (bs : List Byte) (s : State) : still (putSession n off bs s) = still s := by
  have h := still_readSession n [] s
  unfold putSession
  generalize readSession n [] s = x at h ⊢
  obtain ⟨o, t⟩ := x
  cases o with
  | none => exact h
  | some e => exact (still_cachePut _ _).trans h
theorem still_loseSession (n : Nat) (s : State) : still (loseSession n s) = still s := by
  unfold loseSession
  exact (still_setEngine _ _).trans (foldl_keeps still _ (fun t q => still_ownReply _ _ _ _) _ _)
theorem still_sessionAnswered (q : EReq) (s : State) : still (sessionAnswered q s) = still s := by
  have h := still_readSession q.session [] s
  unfold sessionAnswered
  dsimp only
  generalize readSession q.session [] s = x at h ⊢
  obtain ⟨o, t⟩ := x
  cases o with
  | none => exact (still_loseSession _ _).trans ((still_setEngine _ _).trans h)
  | some e => exact (still_cachePut _ _).trans h
theorem still_answerReq (q : EReq) (st : Nat) (s : State) : still (answerReq q st s) = still s := by
  unfold answerReq
  split
  · rfl
  · rw [still_sessionAnswered, still_ownReply]
theorem still_engDown (f : Bool) (s : State) : still (engDown f s) = still s := by
  unfold engDown
  refine (still_setEngine _ _).trans ?_
  refine (foldl_keeps still _ ?_ _ _).trans (still_setEngine _ _)
  intro t q
  exact still_answerReq _ _ _
theorem still_finishTicket (t st d : Nat) (ws : List Word32) (s : State) : still (finishTicket t st d ws s) = still s := by
  unfold finishTicket
  split
  · rfl
  · split <;> rfl
theorem still_dirsEnd (s : State) : still (dirsEnd s) = still s := by
  unfold dirsEnd
  refine foldl_keeps still _ ?_ _ _
  intro t d
  dsimp only
  split
  · rfl
  · exact still_finishTicket _ _ _ _ _
theorem still_atArea (a : State) (f : State → State) (h : ∀ t, still (f t) = still t) (s : State) : still (atArea a f s) = still s := by
  have e := congrArg (fun t : State => { t with cfg := s.cfg }) (h { s with cfg := a.cfg })
  exact e
theorem still_postClear (s : State) : still (postClear s) = still s := by
  unfold postClear
  split
  · split
    · rfl
    · rw [still_enginePost, still_setEngine, still_areaWrite]
  · rfl
theorem still_engEnter (a : State) (n : Nat) (m : Bool) (s : State) : still (engEnter a n m s) = still s := by
  unfold engEnter
  dsimp only
  have h1 : still (if n = s.eng.state then s else emit 0x64 Ev.engState [s.eng.state, n, (drawWord s).1.toNat]
      (setEngine { (drawWord s).2.eng with state := n } (drawWord s).2)) = still s := by split <;> rfl
  generalize (if n = s.eng.state then s else _) = u at h1 ⊢
  have h2 : still (if s.eng.state = 3 ∧ n ≠ 3 then atArea a (engDown (n != 0 || !m)) u
      else if (!m) = true ∧ (!u.eng.slots.isEmpty) = true then atArea a (engDown true) u else u) = still s :=
    still_ite ((still_atArea _ _ (still_engDown _) _).trans h1) (still_ite ((still_atArea _ _ (still_engDown _) _).trans h1) h1)
  exact still_ite ((still_cacheFlush _ _).trans h2) h2
theorem still_engLost (s : State) : still (engLost s) = still s := rfl
theorem still_engSettle (a s : State) : still (engSettle a s) = still s := by
  unfold engSettle
  split
  · rfl
  · dsimp only
    refine (still_dirsEnd _).trans ((still_engEnter _ _ _ _).trans ?_)
    have h : still (if engJob a ≠ engJob s then engEnter a (if 2 ≤ s.eng.state then 1 else s.eng.state) false (engLost s)
        else if (!jobMet s) = true then engLost s else s) = still s :=
      still_ite (still_engEnter _ _ _ _) (still_ite rfl rfl)
    exact still_ite ((still_postClear _).trans h) h

/-- What closing does after the isolation of stacks. -/
theorem still_closing_isolation (a s : State) : still (closing a s) = still (isolationSettle a s) := by
  have h4 : still (closing a s) = still (settle a (linkSettle a (gateSettle (engSettle a (staleWatch a (staleEnd (isolationSettle a s))))))) := by
    unfold closing
    exact still_pending _ _
  rw [h4, still_of_kept (kept_settle _ _), still_of_kept (kept_linkSettle _ _), still_of_kept (kept_gateSettle _),
    still_engSettle, still_of_kept (kept_staleWatch _ _), still_of_kept (kept_staleEnd _)]

/-- The isolation of stacks is looked at only where bundles or ports have changed, and the package runs. -/
theorem isolationSettle_same {a s : State} (hb : a.pho.bundles = s.pho.bundles) (hp : a.xpt.ports = s.xpt.ports) : isolationSettle a s = s := by
  unfold isolationSettle
  rw [if_pos (.inl ⟨hb, hp⟩)]
theorem isolationSettle_off {a s : State} (h : running s = false) : isolationSettle a s = s := by
  unfold isolationSettle
  rw [if_pos (.inr h)]

/-- Where the isolation of stacks is not looked at, closing changes nothing that `still` keeps. -/
theorem still_closing_of {a s : State} (h : isolationSettle a s = s) : still (closing a s) = still s := by
  rw [still_closing_isolation, h]
theorem still_closing {a s : State} (hb : a.pho.bundles = s.pho.bundles) (hp : a.xpt.ports = s.xpt.ports) :
    still (closing a s) = still s := still_closing_of (isolationSettle_same hb hp)

/-! ## The fields that closing leaves where bundles and ports have not changed -/

section
variable {t u : State} (h : still t = still u)
include h
theorem still_now : t.now = u.now := by have e := congrArg State.now h; exact e
theorem still_pins : t.pins = u.pins := by have e := congrArg State.pins h; exact e
theorem still_fuses : t.fuses = u.fuses := by have e := congrArg State.fuses h; exact e
theorem still_pkg : t.pkg = u.pkg := by have e := congrArg State.pkg h; exact e
theorem still_aon : t.aon = u.aon := by have e := congrArg State.aon h; exact e
theorem still_mp2 : t.mp2 = u.mp2 := by have e := congrArg State.mp2 h; exact e
theorem still_pod : t.pod = u.pod := by have e := congrArg State.pod h; exact e
theorem still_pod2 : t.pod2 = u.pod2 := by have e := congrArg State.pod2 h; exact e
theorem still_cfg : t.cfg = u.cfg := by have e := congrArg State.cfg h; exact e
theorem still_guest : t.guest = u.guest := by have e := congrArg State.guest h; exact e
theorem still_rel : t.rel = u.rel := by have e := congrArg State.rel h; exact e
theorem still_pwr : t.pwr = u.pwr := by have e := congrArg State.pwr h; exact e
theorem still_upd : t.upd = u.upd := by have e := congrArg State.upd h; exact e
theorem still_parts : t.parts = u.parts := by have e := congrArg State.parts h; exact e
theorem still_jobs : t.jobs = u.jobs := by have e := congrArg State.jobs h; exact e
theorem still_cores : t.cores = u.cores := by have e := congrArg State.cores h; exact e
theorem still_mem : { t.mem with m := {}, hbms := [], flips := [] } = { u.mem with m := {}, hbms := [], flips := [] } := by have e := congrArg State.mem h; exact e
theorem still_fab : { t.fab with wire := [], tel := [], hqs := [] } = { u.fab with wire := [], tel := [], hqs := [] } := by have e := congrArg State.fab h; exact e
theorem still_pho : t.pho = u.pho := by have e := congrArg State.pho h; exact e
theorem still_dies : t.clk.dies = u.clk.dies := by have e := congrArg (fun s => s.clk.dies) h; exact e
theorem still_hub : t.clk.hub = u.clk.hub := by have e := congrArg (fun s => s.clk.hub) h; exact e
theorem still_ports : t.xpt.ports = u.xpt.ports := by have e := congrArg (fun s => s.xpt.ports) h; exact e
theorem still_obs : { t.obs with ctrs := [] } = { u.obs with ctrs := [] } := by have e := congrArg State.obs h; exact e
theorem still_hp : { t.hp with pba := 0, d2hPending := 0, rose := [] } = { u.hp with pba := 0, d2hPending := 0, rose := [] } := by
  have e := congrArg State.hp h; exact e
theorem still_hl : { t.hl with healthSeq := 0 } = { u.hl with healthSeq := 0 } := by have e := congrArg State.hl h; exact e
theorem still_mp : { t.mp with tickets := [], journal := [] } = { u.mp with tickets := [], journal := [] } := by
  have e := congrArg State.mp h; exact e
theorem still_sync : { t.sync with stale := [], quiet := [] } = { u.sync with stale := [], quiet := [] } := by have e := congrArg State.sync h; exact e
end

/-! ## The registers inside them -/

section
variable {t u : State} (h : still t = still u)
include h
theorem still_hp_h2mMw : t.hp.h2mMw = u.hp.h2mMw := by have e := congrArg HostPort.h2mMw (still_hp h); exact e
theorem still_hp_h2mFull : t.hp.h2mFull = u.hp.h2mFull := by have e := congrArg HostPort.h2mFull (still_hp h); exact e
theorem still_hp_h2mRejects : t.hp.h2mRejects = u.hp.h2mRejects := by have e := congrArg HostPort.h2mRejects (still_hp h); exact e
theorem still_hp_m2hMw : t.hp.m2hMw = u.hp.m2hMw := by have e := congrArg HostPort.m2hMw (still_hp h); exact e
theorem still_hp_m2hFull : t.hp.m2hFull = u.hp.m2hFull := by have e := congrArg HostPort.m2hFull (still_hp h); exact e
theorem still_hp_m2hWait : t.hp.m2hWait = u.hp.m2hWait := by have e := congrArg HostPort.m2hWait (still_hp h); exact e
theorem still_hp_h2dPending : t.hp.h2dPending = u.hp.h2dPending := by have e := congrArg HostPort.h2dPending (still_hp h); exact e
theorem still_hp_d2hMask : t.hp.d2hMask = u.hp.d2hMask := by have e := congrArg HostPort.d2hMask (still_hp h); exact e
theorem still_hp_vecMask : t.hp.vecMask = u.hp.vecMask := by have e := congrArg HostPort.vecMask (still_hp h); exact e
theorem still_hp_pipIn : t.hp.pipIn = u.hp.pipIn := by have e := congrArg HostPort.pipIn (still_hp h); exact e
theorem still_hp_pipOut : t.hp.pipOut = u.hp.pipOut := by have e := congrArg HostPort.pipOut (still_hp h); exact e
theorem still_hp_msix : t.hp.msix = u.hp.msix := by have e := congrArg HostPort.msix (still_hp h); exact e
theorem still_hp_wvSelect : t.hp.wvSelect = u.hp.wvSelect := by have e := congrArg HostPort.wvSelect (still_hp h); exact e
theorem still_hp_wvState : t.hp.wvState = u.hp.wvState := by have e := congrArg HostPort.wvState (still_hp h); exact e
theorem still_hp_wvNext : t.hp.wvNext = u.hp.wvNext := by have e := congrArg HostPort.wvNext (still_hp h); exact e
theorem still_hp_wvWords : t.hp.wvWords = u.hp.wvWords := by have e := congrArg HostPort.wvWords (still_hp h); exact e
theorem still_hp_wvData : t.hp.wvData = u.hp.wvData := by have e := congrArg HostPort.wvData (still_hp h); exact e
theorem still_hl_bar2Base : t.hl.bar2Base = u.hl.bar2Base := by have e := congrArg HostLink.bar2Base (still_hl h); exact e
theorem still_hl_bar2Log : t.hl.bar2Log = u.hl.bar2Log := by have e := congrArg HostLink.bar2Log (still_hl h); exact e
theorem still_hl_evqSelect : t.hl.evqSelect = u.hl.evqSelect := by have e := congrArg HostLink.evqSelect (still_hl h); exact e
theorem still_hl_linkUp : t.hl.linkUp = u.hl.linkUp := by have e := congrArg HostLink.linkUp (still_hl h); exact e
theorem still_hl_rated : t.hl.rated = u.hl.rated := by have e := congrArg HostLink.rated (still_hl h); exact e
theorem still_hl_safe : t.hl.safe = u.hl.safe := by have e := congrArg HostLink.safe (still_hl h); exact e
theorem still_hl_rewriting : t.hl.rewriting = u.hl.rewriting := by have e := congrArg HostLink.rewriting (still_hl h); exact e
theorem still_hl_rewrites : t.hl.rewrites = u.hl.rewrites := by have e := congrArg HostLink.rewrites (still_hl h); exact e
theorem still_mp_running : t.mp.running = u.mp.running := by have e := congrArg Mgmt.running (still_mp h); exact e
theorem still_mp_activeB : t.mp.activeB = u.mp.activeB := by have e := congrArg Mgmt.activeB (still_mp h); exact e
theorem still_mp_standbyOk : t.mp.standbyOk = u.mp.standbyOk := by have e := congrArg Mgmt.standbyOk (still_mp h); exact e
theorem still_mp_standbyReset : t.mp.standbyReset = u.mp.standbyReset := by have e := congrArg Mgmt.standbyReset (still_mp h); exact e
theorem still_mp_selfFails : t.mp.selfFails = u.mp.selfFails := by have e := congrArg Mgmt.selfFails (still_mp h); exact e
theorem still_mp_selfFailAt : t.mp.selfFailAt = u.mp.selfFailAt := by have e := congrArg Mgmt.selfFailAt (still_mp h); exact e
theorem still_mp_hbA : t.mp.hbA = u.mp.hbA := by have e := congrArg Mgmt.hbA (still_mp h); exact e
theorem still_mp_hbB : t.mp.hbB = u.mp.hbB := by have e := congrArg Mgmt.hbB (still_mp h); exact e
theorem still_mp_hbAat : t.mp.hbAat = u.mp.hbAat := by have e := congrArg Mgmt.hbAat (still_mp h); exact e
theorem still_mp_hbBat : t.mp.hbBat = u.mp.hbBat := by have e := congrArg Mgmt.hbBat (still_mp h); exact e
theorem still_mp_term : t.mp.term = u.mp.term := by have e := congrArg Mgmt.term (still_mp h); exact e
theorem still_mp_ctrlTerm : t.mp.ctrlTerm = u.mp.ctrlTerm := by have e := congrArg Mgmt.ctrlTerm (still_mp h); exact e
theorem still_mp_held : t.mp.held = u.mp.held := by have e := congrArg Mgmt.held (still_mp h); exact e
theorem still_mp_nextTicket : t.mp.nextTicket = u.mp.nextTicket := by have e := congrArg Mgmt.nextTicket (still_mp h); exact e
theorem still_mp_takeoverAt : t.mp.takeoverAt = u.mp.takeoverAt := by have e := congrArg Mgmt.takeoverAt (still_mp h); exact e
theorem still_mp_formerReset : t.mp.formerReset = u.mp.formerReset := by have e := congrArg Mgmt.formerReset (still_mp h); exact e
theorem still_sync_combs : t.sync.combs = u.sync.combs := by have e := congrArg Sync.combs (still_sync h); exact e
theorem still_sync_arrivals : t.sync.arrivals = u.sync.arrivals := by have e := congrArg Sync.arrivals (still_sync h); exact e
theorem still_sync_releases : t.sync.releases = u.sync.releases := by have e := congrArg Sync.releases (still_sync h); exact e
theorem still_sync_posts : t.sync.posts = u.sync.posts := by have e := congrArg Sync.posts (still_sync h); exact e
end

/-! ## What closing never changes -/

theorem closing_keeps_now (a s : State) : (closing a s).now = s.now := by
  rw [still_now (still_closing_isolation a s)]
  unfold isolationSettle
  split <;> rfl
theorem closing_keeps_pins (a s : State) : (closing a s).pins = s.pins := by
  rw [still_pins (still_closing_isolation a s)]
  unfold isolationSettle
  split <;> rfl
theorem closing_keeps_fuses (a s : State) : (closing a s).fuses = s.fuses := by
  rw [still_fuses (still_closing_isolation a s)]
  unfold isolationSettle
  split <;> rfl
theorem closing_keeps_pkg (a s : State) : (closing a s).pkg = s.pkg := by
  rw [still_pkg (still_closing_isolation a s)]
  unfold isolationSettle
  split <;> rfl
theorem closing_keeps_aon (a s : State) : (closing a s).aon = s.aon := by
  rw [still_aon (still_closing_isolation a s)]
  unfold isolationSettle
  split <;> rfl
theorem closing_keeps_pod2 (a s : State) : (closing a s).pod2 = s.pod2 := by
  rw [still_pod2 (still_closing_isolation a s)]
  unfold isolationSettle
  split <;> rfl
theorem closing_keeps_guest (a s : State) : (closing a s).guest = s.guest := by
  rw [still_guest (still_closing_isolation a s)]
  unfold isolationSettle
  split <;> rfl
theorem closing_keeps_upd (a s : State) : (closing a s).upd = s.upd := by
  rw [still_upd (still_closing_isolation a s)]
  unfold isolationSettle
  split <;> rfl
theorem closing_keeps_pho (a s : State) : (closing a s).pho = s.pho := by
  rw [still_pho (still_closing_isolation a s)]
  unfold isolationSettle
  split <;> rfl
theorem closing_keeps_ports (a s : State) : (closing a s).xpt.ports = s.xpt.ports := by
  rw [still_ports (still_closing_isolation a s)]
  unfold isolationSettle
  split <;> rfl
theorem closing_keeps_dies (a s : State) : (closing a s).clk.dies = s.clk.dies := by
  rw [still_dies (still_closing_isolation a s)]
  unfold isolationSettle
  split <;> rfl
theorem closing_keeps_hub (a s : State) : (closing a s).clk.hub = s.clk.hub := by
  rw [still_hub (still_closing_isolation a s)]
  unfold isolationSettle
  split <;> rfl
/-- The host's registers, but for the pending-bit array and the device-to-host pips. -/
theorem closing_keeps_hp (a s : State) :
    { (closing a s).hp with pba := 0, d2hPending := 0, rose := [] } = { s.hp with pba := 0, d2hPending := 0, rose := [] } := by
  rw [still_hp (still_closing_isolation a s)]
  unfold isolationSettle
  split <;> rfl
/-- The processors, but for the tickets and the journal. -/
theorem closing_keeps_mp (a s : State) :
    { (closing a s).mp with tickets := [], journal := [] } = { s.mp with tickets := [], journal := [] } := by
  rw [still_mp (still_closing_isolation a s)]
  unfold isolationSettle
  split <;> rfl
/-- The attachment, but for HEALTH_SEQ. -/
theorem closing_keeps_hl (a s : State) : { (closing a s).hl with healthSeq := 0 } = { s.hl with healthSeq := 0 } := by
  rw [still_hl (still_closing_isolation a s)]
  unfold isolationSettle
  split <;> rfl

end Sys2Proof.Machine
end

