-- ==== Sys2Proof/Laws/Sent.lean ====
section
/-! SUPPORT. Sent.lean: what has been sent stays in the list of what was sent (log 16): closing adds to it and takes nothing away. -/
namespace Sys2Proof.Machine

/-- Everything that a state has sent, another has sent too. -/
def Sends (s t : State) : Prop := ∀ o, o ∈ s.out → o ∈ t.out

theorem Sends.rfl' (s : State) : Sends s s := fun _ h => h
theorem Sends.trans {s t u : State} (h : Sends s t) (h' : Sends t u) : Sends s u := fun o q => h' o (h o q)
theorem Sends.of_eq {s t : State} (h : t.out = s.out) : Sends s t := fun _ q => h ▸ q

theorem sends_foldl {α : Type} (f : State → α → State) (h : ∀ s a, Sends s (f s a)) (l : List α) (s : State) : Sends s (l.foldl f s) := by
  induction l generalizing s with
  | nil => exact .rfl' s
  | cons a r ih => exact (h s a).trans (ih _)

theorem sends_ite {c : Prop} [Decidable c] {s t u : State} (h : Sends s t) (h' : Sends s u) : Sends s (if c then t else u) := by
  split <;> assumption

theorem sends_send (o : Out) (s : State) : Sends s (send o s) := fun _ h => List.mem_cons_of_mem _ h
theorem out_emit (src code : Nat) (args : List Nat) (s : State) : (emit src code args s).out = s.out := rfl
theorem out_bump (id k n : Nat) (s : State) : (bump id k n s).out = s.out := rfl

theorem Sends.engine {s t : State} (h : Sends s t) (e : Eng) : Sends s (setEngine e t) := h
theorem Sends.send {s t : State} (h : Sends s t) (o : Out) : Sends s (Machine.send o t) := h.trans (sends_send o t)
theorem Sends.ringOut {s t : State} (h : Sends s t) (k : Nat) : Sends s (Machine.ringOut k t) := h
theorem Sends.emit {s t : State} (h : Sends s t) (src code : Nat) (args : List Nat) : Sends s (Machine.emit src code args t) := h
theorem Sends.drawWord {s t : State} (h : Sends s t) : Sends s (Machine.drawWord t).2 := h

theorem out_retireChannel (m ch tr : Nat) (s : State) : (retireChannel m ch tr s).out = s.out := by
  unfold retireChannel; dsimp only; split <;> rfl
theorem out_spareChannel (m ch tr : Nat) (l : List Nat) (s : State) : (spareChannel m ch tr l s).out = s.out := by
  unfold spareChannel
  dsimp only
  split
  · rfl
  · split
    · rfl
    · split
      · rfl
      · exact out_retireChannel _ _ _ _
    · exact out_retireChannel _ _ _ _
theorem out_dueRow (p : LinePlace) (s : State) : (dueRow p s).out = s.out := by
  unfold dueRow
  dsimp only
  split
  · split <;> rfl
  · rfl
theorem out_unflip (a : Nat) (s : State) : (unflip a s).out = s.out := by unfold unflip; split <;> rfl
theorem out_keepOld (a : Nat) (p : LinePlace) (s : State) : (keepOld a p s).out = s.out := by
  unfold keepOld
  dsimp only
  split
  · split <;> rfl
  · rfl
theorem out_dropOld (a : Nat) (p : LinePlace) (s : State) : (dropOld a p s).out = s.out := by
  unfold dropOld
  dsimp only
  split
  · split <;> rfl
  · rfl
theorem out_unfresh (p : LinePlace) (s : State) : (unfresh p s).out = s.out := by unfold unfresh; dsimp only; split <;> rfl
theorem out_ite {c : Prop} [Decidable c] {t u v : State} (h : t.out = v.out) (h' : u.out = v.out) :
    (if c then t else u).out = v.out := by split <;> assumption
theorem out_twoFull (m pc : Nat) (i : Option Nat) (s : State) : (twoFull m pc i s).out = s.out := by
  unfold twoFull
  cases i with
  | none => rfl
  | some i => exact out_ite (out_spareChannel _ _ _ _ _) rfl
theorem out_corrected (p : LinePlace) (i : Option Nat) (s : State) : (corrected p i s).out = s.out := by
  unfold corrected
  exact (out_twoFull _ _ _ _).trans (out_ite (out_dueRow _ _) rfl)
theorem out_setMem (s : State) (m : Mem) : (setMem s m).out = s.out := rfl
theorem out_poisonLine (a c : Nat) (p : LinePlace) (s : State) : (poisonLine a c p s).out = s.out := by
  have h := (out_unflip a (keepOld a p s)).trans (out_keepOld a p s)
  unfold poisonLine
  exact (out_emit _ _ _ _).trans ((out_setMem _ _).trans h)
theorem out_rewriteLine (a : Nat) (bs : List Byte) (p : LinePlace) (s : State) : (rewriteLine a bs p s).out = s.out := by
  unfold rewriteLine
  exact (out_setMem _ _).trans ((out_unflip _ _).trans (out_ite rfl (out_keepOld _ _ _)))
theorem out_decodeLine (a : Nat) (fs : List LineFind) (s : State) : (decodeLine a fs s).2.out = s.out := by
  unfold decodeLine
  dsimp only
  split
  · split
    · rfl
    · exact out_unfresh _ _
  · split
    · rw [out_dueRow, out_unfresh, out_poisonLine]; rfl
    · rw [out_dueRow, out_unfresh, out_poisonLine]; rfl
    · rfl
    · exact out_unfresh _ _
    · rw [out_corrected, out_rewriteLine]; rfl
theorem out_readLine (a : Nat) (fs : List LineFind) (s : State) : (readLine a fs s).2.out = s.out := by
  unfold readLine
  split
  · rfl
  · exact out_decodeLine _ _ _
theorem out_writeLine (a : Nat) (bs : List Byte) (p : Bool) (s : State) : (writeLine a bs p s).2.out = s.out := by
  unfold writeLine
  dsimp only
  split
  · rfl
  · exact (out_setMem _ _).trans ((out_unflip _ _).trans (out_dropOld _ _ _))
theorem out_writePart (a : Nat) (bs : List Byte) (fs : List LineFind) (s : State) : (writePart a bs fs s).2.out = s.out := by
  have h := out_readLine (a / 64 * 64) fs s
  have g (t : State) (b : List Byte) : (bump 0x3002 (placeOf s (a / 64 * 64)).stack 1
      (setMem (unflip (a / 64 * 64) (dropOld (a / 64 * 64) (placeOf s (a / 64 * 64)) t))
        (putBs (unflip (a / 64 * 64) (dropOld (a / 64 * 64) (placeOf s (a / 64 * 64)) t)).mem.m a b))).out = t.out :=
    (out_bump _ _ _ _).trans ((out_setMem _ _).trans ((out_unflip _ _).trans (out_dropOld _ _ _)))
  simp only [writePart]
  generalize readLine (a / 64 * 64) fs s = x at h ⊢
  obtain ⟨o, t⟩ := x
  cases o
  · exact (g t bs).trans h
  · exact (g t bs).trans h
  · exact h
theorem out_hbmWrite (a : Nat) (bs : List Byte) (p : Bool) (s : State) : (hbmWrite a bs p s).2.out = s.out := by
  unfold hbmWrite
  split
  · exact out_writeLine _ _ _ _
  · have h := out_writePart a bs [] s
    generalize writePart a bs [] s = x at h ⊢
    exact out_ite (c := _ = true) h h
theorem out_hubRead (a : Nat) (fs : List LineFind) (s : State) : (hubRead a fs s).2.out = s.out := by
  unfold hubRead
  split
  · rfl
  · exact out_readLine _ _ _
theorem out_hubWrite (a : Nat) (bs : List Byte) (p : Bool) (s : State) : (hubWrite a bs p s).2.out = s.out := by
  unfold hubWrite
  split
  · rfl
  · exact out_writeLine _ _ _ _
theorem out_areaWrite (a : Nat) (bs : List Byte) (s : State) : (areaWrite a bs s).out = s.out := by
  unfold areaWrite
  refine foldl_keeps (fun x : Bool × State => x.2.out) _ ?_ _ _
  intro x q
  show (if (x.1 && !lineCut x.2 12 q.1) = true then hbmWrite q.1 q.2.1 false x.2 else (false, x.2)).2.out = x.2.out
  split
  · exact out_hbmWrite _ _ _ _
  · rfl
theorem out_touchCm (c : Nat) (s : State) : (touchCm c s).out = s.out := by
  unfold touchCm
  dsimp only
  split
  · rfl
  · split <;> rfl
/-! ## The engine -/

theorem out_countReply (st : Nat) (s : State) : (countReply st s).out = s.out := by
  unfold countReply
  dsimp only
  split
  · split <;> rfl
  · split <;> rfl
theorem out_replyOut (k : Nat) (p : Peer10) (f : List Byte) (s : State) : (replyOut k p f s).out = s.out := by
  have h1 (k : Nat) (x : List Byte) (s : State) : (etherOut k x s).out = s.out := rfl
  have h2 (k : Nat) (f : EthTel → EthTel) (s : State) : (modTel k f s).out = s.out := rfl
  unfold replyOut
  dsimp only
  rw [h1, out_bump, h2]
theorem sends_sendReply (p : Peer10) (rec : List Byte) (st : Nat) (res : List Byte) (s : State) : Sends s (sendReply p rec st res s) := by
  have h : Sends s (countReply st s) := .of_eq (out_countReply st s)
  unfold sendReply
  refine sends_ite ?_ ?_
  · split
    · exact (h.trans (.of_eq (out_replyOut _ _ _ _))).send _
    · exact h
  · exact Sends.ringOut (Sends.send (Sends.engine ((h.trans (.of_eq (out_areaWrite _ _ _))).trans (.of_eq (out_areaWrite _ _ _))) _) _) _
theorem out_engFault (key code name cause : Nat) (s : State) : (engFault key code name cause s).out = s.out := by
  unfold engFault; split <;> rfl
theorem out_setEngine (e : Eng) (s : State) : (setEngine e s).out = s.out := rfl
theorem out_writeBack (base : Nat) (e : SessEnt) (s : State) : (writeBack base e s).out = s.out := by
  unfold writeBack
  exact out_ite (out_hubWrite _ _ _ _) rfl
theorem out_cachePut (e : SessEnt) (s : State) : (cachePut e s).out = s.out := by
  unfold cachePut
  exact (foldl_keeps State.out _ (fun t x => out_writeBack _ _ _) _ _).trans (out_setEngine _ _)
theorem out_cacheFlush (base : Nat) (s : State) : (cacheFlush base s).out = s.out := by
  unfold cacheFlush
  exact (out_setEngine _ _).trans (foldl_keeps State.out _ (fun t x => out_writeBack _ _ _) _ _)
theorem out_engMended (k : Nat) (s : State) : (engMended k s).out = s.out := rfl
theorem out_sessLost (n c : Nat) (s : State) : (sessLost n c s).2.out = s.out := by
  unfold sessLost
  generalize 2 ^ 23 + n = k
  dsimp only
  have h := (out_hubWrite (sessAddr s n) (List.replicate 64 0) false (engFault k Ev.engSessionLost n c s)).trans (out_engFault k Ev.engSessionLost n c s)
  split
  · rw [out_engMended, h]
  · exact h
theorem out_readSession (n : Nat) (fs : List LineFind) (s : State) : (readSession n fs s).2.out = s.out := by
  have h := out_hubRead (sessAddr s n) fs s
  unfold readSession
  generalize hubRead (sessAddr s n) fs s = x at h ⊢
  obtain ⟨o, t⟩ := x
  cases cached s n with
  | some e => exact out_cachePut _ _
  | none =>
    cases o with
    | data b =>
      dsimp only
      split
      · exact (out_sessLost n 0 t).trans h
      · exact (out_cachePut _ _).trans h
    | poison b => exact (out_sessLost n 0 t).trans h
    | fenced => exact (out_sessLost n 1 t).trans h
theorem out_putSession (n off : Nat) (bs : List Byte) (s : State) : (putSession n off bs s).out = s.out := by
  have h := out_readSession n [] s
  unfold putSession
  generalize readSession n [] s = x at h ⊢
  obtain ⟨o, t⟩ := x
  cases o with
  | none => exact h
  | some e => exact (out_cachePut _ _).trans h
theorem sends_loseSession (n : Nat) (s : State) : Sends s (loseSession n s) := by
  unfold loseSession
  refine Sends.engine ?_ _
  refine sends_foldl _ ?_ _ _
  intro t q
  exact sends_sendReply _ _ _ _ (drawBytes 48 t).2
theorem sends_sessionAnswered (q : EReq) (s : State) : Sends s (sessionAnswered q s) := by
  have h := out_readSession q.session [] s
  unfold sessionAnswered
  dsimp only
  generalize readSession q.session [] s = x at h ⊢
  obtain ⟨o, t⟩ := x
  cases o with
  | none => exact (Sends.engine (.of_eq h) _).trans (sends_loseSession _ _)
  | some e => exact .of_eq ((out_cachePut _ _).trans h)
theorem sends_answerReq (q : EReq) (st : Nat) (s : State) : Sends s (answerReq q st s) := by
  unfold answerReq
  split
  · exact .rfl' s
  · unfold ownReply
    exact (sends_sendReply _ _ _ _ (drawBytes 48 s).2).trans (sends_sessionAnswered _ _)
theorem sends_engDown (f : Bool) (s : State) : Sends s (engDown f s) := by
  unfold engDown
  refine Sends.engine ?_ _
  refine Sends.trans ?_ (sends_foldl _ (fun t q => sends_answerReq q 8 t) _ _)
  exact Sends.engine (.rfl' s) _
theorem out_finishTicket (t st d : Nat) (ws : List Word32) (s : State) : (finishTicket t st d ws s).out = s.out := by
  unfold finishTicket
  split
  · rfl
  · split <;> rfl
theorem out_dirsEnd (s : State) : (dirsEnd s).out = s.out := by
  unfold dirsEnd
  refine foldl_keeps State.out _ ?_ _ _
  intro t d
  dsimp only
  split
  · rfl
  · exact out_finishTicket _ _ _ _ _
theorem sends_atArea (a : State) (f : State → State) (h : ∀ t, Sends t (f t)) (s : State) : Sends s (atArea a f s) := h { s with cfg := a.cfg }
theorem out_postClear (s : State) : (postClear s).out = s.out := by
  have h1 (q n : Nat) (b : List Byte) (s : State) : (enginePost q n b s).out = s.out := rfl
  unfold postClear
  split
  · split
    · rfl
    · rw [h1, out_setEngine, out_areaWrite]
  · rfl
theorem sends_engEnter (a : State) (n : Nat) (m : Bool) (s : State) : Sends s (engEnter a n m s) := by
  unfold engEnter
  dsimp only
  have h1 : Sends s (if n = s.eng.state then s else emit 0x64 Ev.engState [s.eng.state, n, (drawWord s).1.toNat]
      (setEngine { (drawWord s).2.eng with state := n } (drawWord s).2)) :=
    sends_ite (.rfl' s) (Sends.emit (Sends.engine (Sends.drawWord (.rfl' s)) _) _ _ _)
  generalize (if n = s.eng.state then s else _) = u at h1 ⊢
  have h2 : Sends s (if s.eng.state = 3 ∧ n ≠ 3 then atArea a (engDown (n != 0 || !m)) u
      else if (!m) = true ∧ (!u.eng.slots.isEmpty) = true then atArea a (engDown true) u else u) :=
    sends_ite (h1.trans (sends_atArea _ _ (sends_engDown _) _)) (sends_ite (h1.trans (sends_atArea _ _ (sends_engDown _) _)) h1)
  exact sends_ite (h2.trans (.of_eq (out_cacheFlush _ _))) h2
theorem sends_engSettle (a s : State) : Sends s (engSettle a s) := by
  unfold engSettle
  refine sends_ite (.rfl' s) ?_
  dsimp only
  refine Sends.trans ?_ (.of_eq (out_dirsEnd _))
  refine Sends.trans ?_ (sends_engEnter _ _ _ _)
  have h : Sends s (if engJob a ≠ engJob s then engEnter a (if 2 ≤ s.eng.state then 1 else s.eng.state) false (engLost s)
      else if (!jobMet s) = true then engLost s else s) :=
    sends_ite (sends_engEnter a _ _ (engLost s)) (sends_ite (.rfl' s) (.rfl' s))
  exact sends_ite (h.trans (.of_eq (out_postClear _))) h
/-! ## Links and vectors -/

theorem out_putWire (k kind vc seq ackk : Nat) (body : List Byte) (s : State) : (putWire k kind vc seq ackk body s).out = s.out := rfl
theorem out_pump (n k : Nat) (s : State) : (pump n k s).out = s.out := by
  induction n generalizing s with
  | zero => rfl
  | succ n ih =>
    unfold pump
    dsimp only
    split
    · rfl
    · split
      · rfl
      · rw [ih, out_putWire]
        rfl
theorem out_queueFlits (k : Nat) (fs : List Flit) (s : State) : (queueFlits k fs s).out = s.out := by
  unfold queueFlits pumpAll
  rw [out_pump]
  rfl
theorem out_notePort (p : OPkt) (src dst b : Nat) (s : State) : (notePort p src dst b s).out = s.out := by
  unfold notePort
  split <;> rfl
theorem out_sendVia (s : State) (p : OPkt) (src : Nat) (r : Option Nat) : (sendVia s p src r).out = s.out := by
  unfold sendVia
  dsimp only
  split <;> split <;> first | rfl | exact (out_queueFlits _ _ _).trans (out_notePort _ _ _ _ _)
theorem out_routePkt (p : OPkt) (src : Nat) (s : State) : (routePkt p src s).out = s.out := by
  have h (c : Bool) (m : Map Nat) : (if c then setXpt { s.xpt with paths := m } s else s).out = s.out := by cases c <;> rfl
  unfold routePkt
  dsimp only
  generalize (if p.op = 3 ∨ p.op = 5 then mfind s.xpt.paths (pathKey src p.dst p.tag) else none) = back
  by_cases hs : src = p.dst
  · rw [if_pos hs]
    exact h _ _
  · rw [if_neg hs]
    cases back with
    | some r => exact (out_sendVia _ _ _ _).trans (h true _)
    | none =>
      dsimp only
      rw [if_neg (c := (none : Option Nat).isSome = true) (by simp)]
      split <;> exact out_sendVia _ _ _ _
theorem out_frameOut (s : State) (o : Out) : (frameOut s o).out = s.out := by
  unfold frameOut
  split <;> first | rfl | exact out_routePkt _ _ _
theorem out_linkSettle (a s : State) : (linkSettle a s).out = s.out := by
  unfold linkSettle
  exact foldl_keeps State.out _ out_frameOut _ s
theorem out_gateSettle (s : State) : (gateSettle s).out = s.out := by
  unfold gateSettle
  split
  · refine foldl_keeps State.out _ ?_ _ s
    intro s q
    refine foldl_keeps State.out _ ?_ _ s
    intro s n
    refine foldl_keeps State.out _ ?_ _ s
    intro s c
    dsimp only
    split <;> rfl
  · split <;> rfl
theorem out_staleEnd (s : State) : (staleEnd s).out = s.out := by
  unfold staleEnd
  refine foldl_keeps State.out _ ?_ _ s
  intro s q
  dsimp only
  split <;> rfl
theorem sends_settleVec (a s : State) (v : Nat) : Sends s (settleVec a s v) := by
  unfold settleVec
  dsimp only
  split
  · exact (sends_send _ s).trans (.of_eq rfl)
  · exact .of_eq rfl
theorem sends_settle (a s : State) : Sends s (settle a s) := by
  have h (t : State) : Sends t { t with hp := { t.hp with rose := [] } } := .rfl' t
  unfold settle
  refine Sends.trans ?_ (h _)
  refine Sends.trans ?_ (sends_foldl _ (sends_settleVec a) _ _)
  refine .of_eq ?_
  unfold settleHealth
  split <;> rfl

/-- Where the isolation of stacks is not looked at, all that a command's effect sent has been sent after closing. -/
theorem sends_closing_of {a s : State} (h1 : isolationSettle a s = s) : Sends s (closing a s) := by
  have h2 : Sends s (settle a (linkSettle a (gateSettle (engSettle a (staleWatch a (staleEnd s)))))) := by
    refine Sends.trans ?_ (sends_settle _ _)
    refine Sends.trans ?_ (.of_eq (out_linkSettle _ _))
    refine Sends.trans ?_ (.of_eq (out_gateSettle _))
    exact (Sends.of_eq (out_staleEnd s)).trans (Sends.trans (u := engSettle a (staleWatch a (staleEnd s))) (t := staleWatch a (staleEnd s)) (.of_eq rfl) (sends_engSettle _ _))
  have h3 (t : State) (p : List Instr) : Sends t { t with pending := p } := .of_eq rfl
  unfold closing
  rw [h1]
  exact h2.trans (h3 _ _)
theorem sends_closing {a s : State} (hb : a.pho.bundles = s.pho.bundles) (hp : a.xpt.ports = s.xpt.ports) : Sends s (closing a s) :=
  sends_closing_of (isolationSettle_same hb hp)

end Sys2Proof.Machine
end

