-- ==== Sys2Proof/Laws/Command.lean ====
section
/-! SUPPORT. Command.lean: how a request is checked and answered, said once (spec/12 R355 to R363). -/
namespace Sys2Proof.Machine

/-- A command whose effect is `f` leaves what closing makes of `f`. -/
theorem leaves_runEff {c : Instr} {f : State → State} {s : State} {P : State → Prop} (h : exec c s = runEff f s)
    (hp : P (closing s (f s))) : Leaves c s P := ⟨_, h, hp⟩

/-! ## The journal (R363) and the controllers concerned (R364) -/

/-- A state with other entries in the journal and other things sent. -/
def Begins (s t : State) : Prop := ∃ o j, t = { s with out := o, mp := { s.mp with journal := j } }

theorem journalSet_frame (op : Nat) (r : Req) (f : JEntry → JEntry) (s : State) :
    ∃ j, journalSet op r f s = { s with mp := { s.mp with journal := j } } := ⟨_, rfl⟩

theorem toSites_frame (kind : Nat) (fields l : List Nat) (s : State) : ∃ o, toSites kind fields l s = { s with out := o } := by
  unfold toSites
  induction l generalizing s with
  | nil => exact ⟨_, rfl⟩
  | cons d r ih =>
    rw [List.foldl_cons]
    obtain ⟨o, e⟩ := ih (send (.mgmt d kind s.mp.term.toNat fields) s)
    exact ⟨o, e⟩

/-- Taking a command changes the journal and sends PREPARE, and nothing else. -/
theorem beginCmd_frame (op : Nat) (r : Req) (s : State) : Begins s (beginCmd op r s) := by
  unfold beginCmd
  split
  · exact ⟨s.out, s.mp.journal, rfl⟩
  · unfold beginSites
    dsimp only
    split
    · exact ⟨_, _, rfl⟩
    · obtain ⟨o, e⟩ := toSites_frame 7 [op, r.tag] (cmdSites (journalAdd op r s) op r)
        (journalSet op r (fun e => { e with sites := cmdSites (journalAdd op r s) op r }) (journalAdd op r s))
      rw [e]
      exact ⟨o, _, rfl⟩

theorem Begins.specNow {s t : State} (h : Begins s t) (op : Nat) : specNow t op = specNow s op := by
  obtain ⟨o, j, rfl⟩ := h
  rfl
theorem Begins.freeTicket {s t : State} (h : Begins s t) : freeTicket t = freeTicket s := by
  obtain ⟨o, j, rfl⟩ := h
  rfl

/-! ## What a request that reaches its command comes to -/

/-- The entry of a command that has been taken. -/
abbrev entryOf (op : Nat) (r : Req) (s : State) : Option JEntry := (beginCmd op r s).mp.journal.find? (isEntry op r)

/-- A command that does not wait: its body decides. -/
theorem runCmd_now {op : Nat} {r : Req} {body : State → Nat → CmdOut} {s : State} {c : CmdSpec}
    (hr : Reaches op r s) (hc : specNow s op = some c) (hw : c.waits = false) :
    runCmd op r body s = match body (beginCmd op r s) 0 with
      | .bad st d => closeCmd op r st d [] [] (endSites (entryOf op r s) false (beginCmd op r s))
      | .deny s' st d => closeCmd op r st d [] [] (endSites (entryOf op r s) false s')
      | .ok s' ws => closeCmd op r stOK 0 ws [] (endSites (entryOf op r s) true s')
      | .okWith s' ws pl => closeCmd op r stOK 0 ws pl (endSites (entryOf op r s) true s')
      | .fail s' st d => closeCmd op r st d [] [] (endSites (entryOf op r s) true s')
      | .later s' => closeCmd op r stOK 0 [] [] (endSites (entryOf op r s) true s') := by
  obtain ⟨h1, h2, h3, h4, h5⟩ := hr
  have h6 : specNow (beginCmd op r s) op = some c := ((beginCmd_frame op r s).specNow op).trans hc
  unfold runCmd
  simp [h1, h2, h3, h4, h5, h6, hw] <;> rfl

/-- A command that waits and is carried out at once: its effect, ACCEPTED, and the ticket finished. -/
theorem runCmd_waits_ok {op : Nat} {r : Req} {body : State → Nat → CmdOut} {s s' : State} {ws : List Word32} {c : CmdSpec}
    (hr : Reaches op r s) (ht : TicketFree s) (hc : specNow s op = some c) (hw : c.waits = true)
    (hb : body (begun op r s) s.mp.nextTicket.toNat = .ok s' ws) :
    runCmd op r body s
      = finishTicket s.mp.nextTicket.toNat stOK 0 ws (answer op r stAccepted 0 s.mp.nextTicket.toNat [] (endSites (entryOf op r s) true s')) := by
  obtain ⟨h1, h2, h3, h4, h5⟩ := hr
  have h6 : specNow (beginCmd op r s) op = some c := ((beginCmd_frame op r s).specNow op).trans hc
  have h7 : freeTicket (beginCmd op r s) = some s.mp.nextTicket.toNat := (beginCmd_frame op r s).freeTicket.trans ht
  unfold begun at hb
  unfold runCmd
  simp [h1, h2, h3, h4, h5, h6, h7, hw, hb]

/-- A command that waits and goes on: its effect, and ACCEPTED. -/
theorem runCmd_later {op : Nat} {r : Req} {body : State → Nat → CmdOut} {s s' : State} {c : CmdSpec}
    (hr : Reaches op r s) (ht : TicketFree s) (hc : specNow s op = some c) (hw : c.waits = true)
    (hb : body (begun op r s) s.mp.nextTicket.toNat = .later s') :
    runCmd op r body s = answer op r stAccepted 0 s.mp.nextTicket.toNat [] (endSites (entryOf op r s) true s') := by
  obtain ⟨h1, h2, h3, h4, h5⟩ := hr
  have h6 : specNow (beginCmd op r s) op = some c := ((beginCmd_frame op r s).specNow op).trans hc
  have h7 : freeTicket (beginCmd op r s) = some s.mp.nextTicket.toNat := (beginCmd_frame op r s).freeTicket.trans ht
  unfold begun at hb
  unfold runCmd
  simp [h1, h2, h3, h4, h5, h6, h7, hw, hb]

/-- What the end of a command's two phases changes: what controllers hold, and what has been sent. -/
theorem endSites_frame (e : Option JEntry) (b : Bool) (s : State) :
    ∃ o h, endSites e b s = { s with out := o, mp := { s.mp with held := h } } := by
  unfold endSites
  cases e with
  | none => exact ⟨s.out, s.mp.held, rfl⟩
  | some e =>
    dsimp only
    split
    · exact ⟨s.out, s.mp.held, rfl⟩
    · have h : ∃ o, (if b then (if e.stage = 0 then toSites 8 [e.op, e.req.tag] e.sites s else s) else toSites 9 [e.op, e.req.tag] e.prepared s)
          = { s with out := o } := by
        split
        · split
          · exact toSites_frame _ _ _ _
          · exact ⟨s.out, rfl⟩
        · exact toSites_frame _ _ _ _
      obtain ⟨o, h⟩ := h
      rw [h]
      exact ⟨o, _, rfl⟩

/-! ## What an answer changes (R338, R358) -/

/-- An answer on a local channel changes M2H, what a channel holds of it, and what has been sent. -/
theorem answer_frame (op : Nat) (r : Req) (st d t : Nat) (ws : List Word32) (s : State) (h : ∀ p q, r.chan ≠ .fm p q) :
    ∃ o full mw wt rs p a b, answer op r st d t ws s = { s with
      out := o, hp := { s.hp with m2hFull := full, m2hMw := mw, m2hWait := wt, rose := rs }
      mp2 := { s.mp2 with oobPeers := p, smbAnswer := a, smbBusy := b } } := by
  unfold answer answerPl deliver toHost
  cases hc : r.chan with
  | pcie =>
    dsimp only
    split
    · exact ⟨_, _, _, _, _, _, _, _, rfl⟩
    · exact ⟨_, _, _, _, _, _, _, _, rfl⟩
  | oob p q => exact ⟨_, _, _, _, _, _, _, _, rfl⟩
  | smbus => exact ⟨_, _, _, _, _, _, _, _, rfl⟩
  | fm p q => exact absurd hc (h p q)

/-- The answer stands on its channel after it has been delivered. -/
theorem answered_answer (op : Nat) (r : Req) (st d t : Nat) (ws : List Word32) (s s' : State)
    (hf : s'.pkg.flashBad = s.pkg.flashBad) (hm : s'.hp.m2hFull = s.hp.m2hFull) (hw : s'.hp.m2hWait = s.hp.m2hWait) :
    Answered r.chan (answerWords op r.tag st (detailOf s d) t ws) s (answer op r st d t ws s') := by
  unfold answer answerPl detailOf deliver Answered toHost
  rw [hf]
  cases r.chan with
  | pcie =>
    rw [← hm, ← hw]
    cases s'.hp.m2hFull <;> simp
  | oob p q => exact List.mem_cons_self
  | smbus => rfl
  | fm p q => exact List.mem_cons_self

/-- An answer that stands is kept by any change that keeps M2H, the SMBus answer, and what has been sent. -/
theorem Answered.mono {ch : Chan} {ws : List Word32} {s t u : State} (h : Answered ch ws s t)
    (h1 : u.hp.m2hFull = t.hp.m2hFull) (h2 : u.hp.m2hMw = t.hp.m2hMw) (h3 : u.hp.m2hWait = t.hp.m2hWait)
    (h4 : u.mp2.smbAnswer = t.mp2.smbAnswer) (h5 : Sends t u) : Answered ch ws s u := by
  unfold Answered at *
  cases ch with
  | pcie => rw [h1, h2, h3]; exact h
  | oob p q => exact h5 _ h
  | smbus => rw [h4]; exact h
  | fm p q => exact h5 _ h

/-- An answer stands after closing, where the isolation of stacks is not looked at. -/
theorem Answered.closing_of {ch : Chan} {ws : List Word32} {s a t : State} (h : Answered ch ws s t) (hi : isolationSettle a t = t) :
    Answered ch ws s (Machine.closing a t) := by
  have e := still_closing_of hi
  exact h.mono (still_hp_m2hFull e) (still_hp_m2hMw e) (still_hp_m2hWait e) (by rw [still_mp2 e]) (sends_closing_of hi)
theorem Answered.closing {ch : Chan} {ws : List Word32} {s a t : State} (h : Answered ch ws s t)
    (hb : a.pho.bundles = t.pho.bundles) (hp : a.xpt.ports = t.xpt.ports) : Answered ch ws s (Machine.closing a t) :=
  h.closing_of (isolationSettle_same hb hp)

/-- The answer of a command that has ended stands on its channel. -/
theorem answered_closeCmd (op : Nat) (r : Req) (st d : Nat) (ws : List Word32) (s s' : State)
    (hf : s'.pkg.flashBad = s.pkg.flashBad) (hm : s'.hp.m2hFull = s.hp.m2hFull) (hw : s'.hp.m2hWait = s.hp.m2hWait) :
    Answered r.chan (answerWords op r.tag st (detailOf s d) 0 ws) s (closeCmd op r st d ws [] s') := by
  have h := answered_answer op r st d 0 ws s s' hf hm hw
  unfold closeCmd
  exact h.mono rfl rfl rfl rfl (.of_eq rfl)

end Sys2Proof.Machine
end

