-- ==== Sys2Proof/Laws/Maps.lean ====
section
/-! SUPPORT. Maps.lean: reading plain data by number after it is written. -/
namespace Sys2Proof.Machine

theorem mfind_mset_self {α : Type} (m : Map α) (k : Nat) (a : α) : mfind (mset m k a) k = some a := by
  induction m with
  | nil => simp [mset, mfind]
  | cons p r ih =>
    obtain ⟨j, b⟩ := p
    by_cases h1 : k < j
    · simp [mset, mfind, h1]
    · by_cases h2 : k = j
      · simp [mset, mfind, h2]
      · have h3 : j ≠ k := fun e => h2 e.symm
        simp [mset, mfind, h1, h2, h3, ih]

theorem mfind_mset_ne {α : Type} (m : Map α) {k j : Nat} (a : α) (h : j ≠ k) : mfind (mset m k a) j = mfind m j := by
  induction m with
  | nil => simp [mset, mfind, Ne.symm h]
  | cons p r ih =>
    obtain ⟨i, b⟩ := p
    by_cases h1 : k < i
    · simp [mset, mfind, h1, Ne.symm h]
    · by_cases h2 : k = i
      · subst h2
        simp [mset, mfind, Ne.symm h]
      · simp [mset, mfind, h1, h2, ih]

@[simp] theorem mget_mset_self {α : Type} (m : Map α) (d : α) (k : Nat) (a : α) : mget (mset m k a) d k = a := by
  simp [mget, mfind_mset_self]

theorem mget_mset_ne {α : Type} (m : Map α) (d : α) {k j : Nat} (a : α) (h : j ≠ k) : mget (mset m k a) d j = mget m d j := by
  simp [mget, mfind_mset_ne m a h]

/-- What an entry holds after a write. -/
theorem mget_mset {α : Type} (m : Map α) (d : α) (k j : Nat) (a : α) :
    mget (mset m k a) d j = if j = k then a else mget m d j := by
  by_cases h : j = k
  · simp [h]
  · simp [h, mget_mset_ne m d a h]

theorem mfind_mdel_self {α : Type} (m : Map α) (k : Nat) : mfind (mdel m k) k = none := by
  induction m with
  | nil => rfl
  | cons p r ih =>
    obtain ⟨j, b⟩ := p
    by_cases h : j = k
    · subst h
      simpa [mdel] using ih
    · simpa [mdel, mfind, h] using ih

theorem mfind_mdel_ne {α : Type} (m : Map α) {k j : Nat} (h : j ≠ k) : mfind (mdel m k) j = mfind m j := by
  induction m with
  | nil => rfl
  | cons p r ih =>
    obtain ⟨i, b⟩ := p
    by_cases h1 : i = k
    · subst h1
      simpa [mdel, mfind, Ne.symm h] using ih
    · by_cases h2 : i = j
      · subst h2
        simp [mdel, mfind, h1]
      · simpa [mdel, mfind, h1, h2] using ih

end Sys2Proof.Machine
end

