-- ==== Sys2Proof/Laws/Mem.lean ====
section
/-! SUPPORT. Mem.lean: memory reads what was written, and every operation keeps its canonical form. -/
namespace Sys2Proof.Machine

/-! ## Cells -/

/-- Every address of a list of cells lies above `a`. -/
def above (a : Nat) (l : List Host.Cell) : Prop := ∀ p ∈ l, a < p.1

theorem rising_cons (a : Nat) (x : Byte) (l : List Host.Cell) : rising ((a, x) :: l) = true ↔ above a l ∧ rising l = true := by
  induction l generalizing a x with
  | nil => simp [rising, above]
  | cons p r ih =>
    obtain ⟨b, y⟩ := p
    simp only [rising, Bool.and_eq_true, decide_eq_true_eq, above, List.mem_cons, forall_eq_or_imp]
    constructor
    · rintro ⟨h1, h2⟩
      have h3 := ((ih b y).mp h2).1
      exact ⟨⟨h1, fun p hp => Nat.lt_trans h1 (h3 p hp)⟩, h2⟩
    · rintro ⟨⟨h1, _⟩, h2⟩
      exact ⟨h1, h2⟩

theorem getCell_above {a : Nat} {l : List Host.Cell} (h : above a l) : getCell l a = 0 := by
  induction l with
  | nil => rfl
  | cons p r ih =>
    obtain ⟨b, y⟩ := p
    have h1 : a < b := h (b, y) (by simp)
    simp [getCell, Nat.ne_of_gt h1, ih (fun q hq => h q (by simp [hq]))]

theorem filter_rising {l : List Host.Cell} (f : Host.Cell → Bool) (h : rising l = true) : rising (l.filter f) = true := by
  induction l with
  | nil => rfl
  | cons c r ih =>
    obtain ⟨a, x⟩ := c
    obtain ⟨h1, h2⟩ := (rising_cons a x r).mp h
    by_cases hc : f (a, x) = true
    · rw [List.filter_cons_of_pos hc]
      exact (rising_cons a x _).mpr ⟨fun b hb => h1 b (List.mem_filter.mp hb).1, ih h2⟩
    · rw [List.filter_cons_of_neg hc]
      exact ih h2

theorem insCell_mem {l : List Host.Cell} {a : Nat} {x : Byte} {p : Host.Cell} (h : p ∈ insCell l a x) : p = (a, x) ∨ p ∈ l := by
  induction l with
  | nil => exact .inl (by simpa [insCell] using h)
  | cons q r ih =>
    obtain ⟨b, y⟩ := q
    simp only [insCell] at h
    split at h
    · rcases List.mem_cons.mp h with h | h
      · exact .inl h
      · exact .inr h
    · split at h
      · rcases List.mem_cons.mp h with h | h
        · exact .inl h
        · exact .inr (by simp [h])
      · rcases List.mem_cons.mp h with h | h
        · exact .inr (by simp [h])
        · rcases ih h with h | h
          · exact .inl h
          · exact .inr (by simp [h])

theorem insCell_rising {l : List Host.Cell} (a : Nat) (x : Byte) (h : rising l = true) : rising (insCell l a x) = true := by
  induction l with
  | nil => rfl
  | cons q r ih =>
    obtain ⟨b, y⟩ := q
    obtain ⟨h1, h2⟩ := (rising_cons b y r).mp h
    simp only [insCell]
    split
    · rename_i hab
      refine (rising_cons a x _).mpr ⟨?_, h⟩
      intro p hp
      rcases List.mem_cons.mp hp with hp | hp
      · simpa [hp] using hab
      · exact Nat.lt_trans hab (h1 p hp)
    · split
      · rename_i hab
        subst hab
        exact (rising_cons a x r).mpr ⟨h1, h2⟩
      · refine (rising_cons b y _).mpr ⟨?_, ih h2⟩
        intro p hp
        rcases insCell_mem hp with hp | hp
        · simp [hp]; omega
        · exact h1 p hp

theorem putCell_rising {l : List Host.Cell} (a : Nat) (x : Byte) (h : rising l = true) : rising (putCell l a x) = true := by
  unfold putCell
  split
  · exact filter_rising _ h
  · exact insCell_rising a x h

theorem putCell_nonzero {l : List Host.Cell} (a : Nat) (x : Byte) (h : l.all (fun p => p.2 != 0) = true) :
    (putCell l a x).all (fun p => p.2 != 0) = true := by
  simp only [List.all_eq_true] at h ⊢
  intro p hp
  unfold putCell at hp
  split at hp
  · exact h p (List.mem_filter.mp hp).1
  · rename_i hx
    rcases insCell_mem hp with e | e
    · simpa [e] using hx
    · exact h p e

theorem getCell_filter_ne {l : List Host.Cell} {a b : Nat} (h : b ≠ a) : getCell (l.filter (fun p => !(p.1 == a))) b = getCell l b := by
  induction l with
  | nil => rfl
  | cons q r ih =>
    obtain ⟨c, y⟩ := q
    by_cases hc : c = a
    · subst hc
      simp [getCell, Ne.symm h, ih]
    · simp [getCell, hc, ih]

theorem getCell_filter_self {l : List Host.Cell} (a : Nat) : getCell (l.filter (fun p => !(p.1 == a))) a = 0 := by
  induction l with
  | nil => rfl
  | cons q r ih =>
    obtain ⟨c, y⟩ := q
    by_cases hc : c = a
    · subst hc
      simpa using ih
    · simp [getCell, hc, ih]

theorem getCell_insCell_ne {l : List Host.Cell} {a b : Nat} (x : Byte) (h : b ≠ a) : getCell (insCell l a x) b = getCell l b := by
  induction l with
  | nil => simp [insCell, getCell, Ne.symm h]
  | cons q r ih =>
    obtain ⟨c, y⟩ := q
    simp only [insCell]
    split
    · simp [getCell, Ne.symm h]
    · split
      · rename_i hc
        subst hc
        simp [getCell, Ne.symm h]
      · simp [getCell, ih]

theorem getCell_insCell_self {l : List Host.Cell} (a : Nat) (x : Byte) : getCell (insCell l a x) a = x := by
  induction l with
  | nil => simp [insCell, getCell]
  | cons q r ih =>
    obtain ⟨c, y⟩ := q
    simp only [insCell]
    split
    · simp [getCell]
    · split
      · simp [getCell]
      · rename_i h4
        simp [getCell, Ne.symm h4, ih]

theorem getCell_putCell_ne {l : List Host.Cell} {a b : Nat} (x : Byte) (h : b ≠ a) : getCell (putCell l a x) b = getCell l b := by
  unfold putCell
  split
  · exact getCell_filter_ne h
  · exact getCell_insCell_ne x h

theorem getCell_putCell_self {l : List Host.Cell} (a : Nat) (x : Byte) : getCell (putCell l a x) a = x := by
  unfold putCell
  split
  · rename_i hx
    rw [getCell_filter_self, hx]
  · exact getCell_insCell_self a x

/-! ## Poison -/

theorem risingN_cons (a : Nat) (l : List Nat) : risingN (a :: l) = true ↔ (∀ b ∈ l, a < b) ∧ risingN l = true := by
  induction l generalizing a with
  | nil => simp [risingN]
  | cons b r ih =>
    simp only [risingN, Bool.and_eq_true, decide_eq_true_eq, List.mem_cons, forall_eq_or_imp]
    constructor
    · rintro ⟨h1, h2⟩
      exact ⟨⟨h1, fun c hc => Nat.lt_trans h1 (((ih b).mp h2).1 c hc)⟩, h2⟩
    · rintro ⟨⟨h1, _⟩, h2⟩
      exact ⟨h1, h2⟩

theorem putN_mem {l : List Nat} {a b : Nat} (h : b ∈ putN l a) : b = a ∨ b ∈ l := by
  induction l with
  | nil => simpa [putN] using h
  | cons c r ih =>
    simp only [putN] at h
    split at h
    · simpa using h
    · split at h
      · exact .inr h
      · rcases List.mem_cons.mp h with h | h
        · exact .inr (by simp [h])
        · rcases ih h with h | h
          · exact .inl h
          · exact .inr (by simp [h])

theorem putN_rising {l : List Nat} (a : Nat) (h : risingN l = true) : risingN (putN l a) = true := by
  induction l with
  | nil => rfl
  | cons c r ih =>
    obtain ⟨h1, h2⟩ := (risingN_cons c r).mp h
    simp only [putN]
    split
    · rename_i hac
      refine (risingN_cons a _).mpr ⟨?_, h⟩
      intro b hb
      rcases List.mem_cons.mp hb with hb | hb
      · omega
      · exact Nat.lt_trans hac (h1 b hb)
    · split
      · exact h
      · refine (risingN_cons c _).mpr ⟨?_, ih h2⟩
        intro b hb
        rcases putN_mem hb with hb | hb
        · omega
        · exact h1 b hb

theorem filter_risingN {l : List Nat} (f : Nat → Bool) (h : risingN l = true) : risingN (l.filter f) = true := by
  induction l with
  | nil => rfl
  | cons c r ih =>
    obtain ⟨h1, h2⟩ := (risingN_cons c r).mp h
    by_cases hc : f c = true
    · rw [List.filter_cons_of_pos hc]
      exact (risingN_cons c _).mpr ⟨fun b hb => h1 b (List.mem_filter.mp hb).1, ih h2⟩
    · rw [List.filter_cons_of_neg hc]
      exact ih h2

/-! ## Every memory operation keeps the canonical form -/

theorem wf_iff (m : Mem) : Memory.wf m = true ↔ rising m.bytes = true ∧ m.bytes.all (fun p => p.2 != 0) = true ∧ risingN m.poison = true := by
  simp [Memory.wf, and_assoc]

theorem wf_putB {m : Mem} (a : Nat) (x : Byte) (h : Memory.wf m = true) : Memory.wf (putB m a x) = true := by
  obtain ⟨h1, h2, h3⟩ := (wf_iff m).mp h
  exact (wf_iff _).mpr ⟨putCell_rising a x h1, putCell_nonzero a x h2, h3⟩

theorem wf_putBs {m : Mem} (a : Nat) (bs : List Byte) (h : Memory.wf m = true) : Memory.wf (putBs m a bs) = true := by
  induction bs generalizing m a with
  | nil => exact h
  | cons b r ih => exact ih _ (wf_putB a b h)

theorem wf_setPoison {m : Mem} (a : Nat) (h : Memory.wf m = true) : Memory.wf (setPoison m a) = true := by
  obtain ⟨h1, h2, h3⟩ := (wf_iff m).mp h
  exact (wf_iff _).mpr ⟨h1, h2, putN_rising _ h3⟩

theorem wf_clearPoison {m : Mem} (a : Nat) (h : Memory.wf m = true) : Memory.wf (clearPoison m a) = true := by
  obtain ⟨h1, h2, h3⟩ := (wf_iff m).mp h
  exact (wf_iff _).mpr ⟨h1, h2, filter_risingN _ h3⟩

/-- A fold of operations that each keep the form keeps it. -/
theorem wf_foldl {α : Type} (f : Mem → α → Mem) (hf : ∀ m a, Memory.wf m = true → Memory.wf (f m a) = true) (l : List α) {m : Mem}
    (h : Memory.wf m = true) : Memory.wf (l.foldl f m) = true := by
  induction l generalizing m with
  | nil => exact h
  | cons a r ih => exact ih (hf m a h)

theorem wf_writeBs {m : Mem} (a : Nat) (bs : List Byte) (h : Memory.wf m = true) : Memory.wf (writeBs m a bs) = true :=
  wf_foldl _ (fun _ u hm => wf_clearPoison u hm) _ (wf_putBs a bs h)

theorem wf_wipe {m : Mem} (lo hi : Nat) (h : Memory.wf m = true) : Memory.wf (wipe m lo hi) = true := by
  obtain ⟨h1, h2, h3⟩ := (wf_iff m).mp h
  refine (wf_iff _).mpr ⟨filter_rising _ h1, ?_, filter_risingN _ h3⟩
  simp only [List.all_eq_true] at h2 ⊢
  intro p hp
  exact h2 p (List.mem_filter.mp hp).1

theorem wf_copyRange {m : Mem} (src dst n : Nat) (h : Memory.wf m = true) : Memory.wf (copyRange m src dst n) = true :=
  wf_foldl _ (fun _ _ hm => wf_setPoison _ hm) _ (wf_writeBs dst _ h)

/-! ## Reading what was written -/

theorem getB_putB_ne (m : Mem) {a b : Nat} (x : Byte) (h : b ≠ a) : getB (putB m a x) b = getB m b := getCell_putCell_ne x h

theorem getB_putB_self {m : Mem} (a : Nat) (x : Byte) : getB (putB m a x) a = x :=
  getCell_putCell_self a x

/-- A byte outside a range written keeps its value. -/
theorem getB_putBs_outside (m : Mem) (a : Nat) (bs : List Byte) (b : Nat) (h : b < a ∨ a + bs.length ≤ b) :
    getB (putBs m a bs) b = getB m b := by
  induction bs generalizing m a with
  | nil => rfl
  | cons x r ih =>
    have hl : (x :: r).length = r.length + 1 := rfl
    rw [putBs, ih (putB m a x) (a + 1) (by omega), getB_putB_ne m x (by omega)]

/-- A byte of a range written reads as written. -/
theorem getB_putBs_inside {m : Mem} (a : Nat) (bs : List Byte) (i : Nat) (hi : i < bs.length) :
    getB (putBs m a bs) (a + i) = bs[i] := by
  induction bs generalizing m a i with
  | nil => simp at hi
  | cons x r ih =>
    cases i with
    | zero =>
      rw [putBs, getB_putBs_outside _ (a + 1) r (a + 0) (by omega)]
      simpa using getB_putB_self a x
    | succ j =>
      have := ih (m := putB m a x) (a + 1) j (by simpa using hi)
      rw [putBs, show a + (j + 1) = a + 1 + j by omega]
      simpa using this

@[simp] theorem getB_setPoison (m : Mem) (a b : Nat) : getB (setPoison m a) b = getB m b := rfl
@[simp] theorem getB_clearPoison (m : Mem) (a b : Nat) : getB (clearPoison m a) b = getB m b := rfl

/-- Clearing poison leaves every byte. -/
theorem getB_foldl_clear (l : List Nat) (m : Mem) (b : Nat) : getB (l.foldl (fun m u => clearPoison m u) m) b = getB m b := by
  induction l generalizing m with
  | nil => rfl
  | cons u r ih => rw [List.foldl_cons, ih]; rfl

theorem getB_writeBs_outside (m : Mem) (a : Nat) (bs : List Byte) (b : Nat) (h : b < a ∨ a + bs.length ≤ b) :
    getB (writeBs m a bs) b = getB m b := by
  rw [writeBs, getB_foldl_clear, getB_putBs_outside m a bs b h]

theorem getB_writeBs_inside {m : Mem} (a : Nat) (bs : List Byte) (i : Nat) (hi : i < bs.length) :
    getB (writeBs m a bs) (a + i) = bs[i] := by
  rw [writeBs, getB_foldl_clear, getB_putBs_inside a bs i hi]

end Sys2Proof.Machine
end

