-- ==== Sys2Proof/WellFormed.lean ====
section
/-! DEFINITION. WellFormed.lean: the operands that name something the block can have. A meaning is total: it also says what it does with others. -/
namespace Sys2Proof

/-- A logical core: stack 0 to 11, cluster 0 to 7, core 0 to 11 (spec/12 R368), as stack * 128 + cluster * 16 + core. -/
def okCore (c : Nat) : Bool := decide (c < 1536) && decide (c % 16 < 12)
/-- A physical core, spares included. -/
def okPhys (c : Nat) : Bool := decide (c < 1536)
/-- A SITE_ID of a die position (spec/01 R26). -/
def okSite (site : Nat) : Bool := (decide (0x20 ≤ site) && decide (site ≤ 0x2B)) || (decide (0x40 ≤ site) && decide (site ≤ 0x44)) || site == 0x60
/-- A bundle and a wavelength (spec/05 R143, R139). -/
def okBundle (b : Nat) : Bool := decide (b < 452)
def okLambda (l : Nat) : Bool := decide (l < 18)
/-- A down port and one of its sides: stack * 12 + port; 0 die, 1 tile (spec/06 R201). -/
def okPort (port : Nat) : Bool := decide (port < 144)
def okSide (side : Nat) : Bool := decide (side ≤ 1)
/-- An Ethernet port (spec/09 R275). -/
def okEth (port : Nat) : Bool := decide (port < 16)
/-- An HBM4 stack (spec/01 R3). -/
def okStack (m : Nat) : Bool := decide (m < 16)
/-- A request: a tag of 16 bits and at most 13 arguments (spec/12 R357). -/
def okReq (r : Req) : Bool := decide (r.tag < 2 ^ 16) && decide (r.args.length ≤ 13)
/-- An on-package packet: LEN gives its payload, of at most 4,096 bytes (spec/06 R188). -/
def okPkt (p : OPkt) : Bool := p.payload.length == p.len && decide (p.len ≤ 4096)
/-- A fabric packet carries at most 4,096 bytes (spec/09 R276), and a message of the FM channel its envelope and words beside them (spec/12 R362). -/
def okFab (p : FabPkt) : Bool := decide (p.payload.length ≤ if p.type = 7 then 4176 else 4096)
/-- A message of sixteen words (spec/12 R357). -/
def okMsg (ws : List Word32) : Bool := ws.length == 16

/-- The operands of a command are such as the block can meet. -/
def Instr.wf (i : Instr) : Bool :=
  match i with
  | .packageStart _ _ _ _ => true
  | .rootPllFirstLock site => okSite site
  | .pwrgdFall => true
  | .hwrstAssert => true
  | .perstAssert _ => true
  | .vin12Removal => true
  | .wakeInEdge => true
  | .coolantInletTrip => true
  | .hotSpotTrip => true
  | .vin12WindowTrip => true
  | .vin12TripTimeout => true
  | .jtagInstruction _ => true
  | .nop c _ => okCore c
  | .endInstr c _ => okCore c
  | .rdcyc c _ => okCore c
  | .rdgtc c _ => okCore c
  | .waitcyc c _ => okCore c
  | .waitcycExpiry c => okCore c
  | .br c _ => okCore c
  | .beqz c _ => okCore c
  | .bnez c _ => okCore c
  | .loopInstr c _ => okCore c
  | .salu c _ => okCore c
  | .simm c _ => okCore c
  | .slsLoad c _ _ => okCore c
  | .slsStore c _ _ => okCore c
  | .scmLoad c _ _ => okCore c
  | .scmStore c _ _ => okCore c
  | .vlsLd c _ _ => okCore c
  | .vlsSt c _ => okCore c
  | .vcmLd c _ _ => okCore c
  | .vcmSt c _ => okCore c
  | .vf32 c _ => okCore c
  | .vf64 c _ => okCore c
  | .vint c _ => okCore c
  | .cvt c _ => okCore c
  | .blockCvt c _ => okCore c
  | .vred c _ => okCore c
  | .tzero c _ _ => okCore c
  | .tmma c _ => okCore c
  | .tslice c _ => okCore c
  | .tstore c _ _ => okCore c
  | .tensorQueueAdvance c _ => okCore c
  | .tensorResultReady c => okCore c
  | .vcx c _ => okCore c
  | .hmx c _ => okCore c
  | .dpost c _ _ => okCore c
  | .dpostResume c => okCore c
  | .vcxCompletion c _ => okCore c
  | .hmxCompletion _ _ _ _ => true
  | .waitt c _ => okCore c
  | .waittResume c => okCore c
  | .tstat c _ => okCore c
  | .waitall c _ => okCore c
  | .waitallResume c => okCore c
  | .csrr c _ => okCore c
  | .csrw c _ => okCore c
  | .brk c _ => okCore c
  | .sinit c _ => okCore c
  | .spost c _ => okCore c
  | .swait c _ => okCore c
  | .swaitResume c => okCore c
  | .stry c _ => okCore c
  | .sread c _ => okCore c
  | .spostr c _ => okCore c
  | .spostrResume c => okCore c
  | .post _ _ => true
  | .bcfg c _ => okCore c
  | .barr c _ => okCore c
  | .bwait c _ => okCore c
  | .bar c _ => okCore c
  | .bstat c _ => okCore c
  | .arrive _ _ _ _ => true
  | .release _ _ _ => true
  | .planBoundary _ _ => true
  | .sramScrub _ _ _ _ => true
  | .sramScrubTimeout _ _ => true
  | .vcBeatReplay p _ => okPhys p
  | .laneTest p => okPhys p
  | .laneTestDone p _ _ _ => okPhys p
  | .vlaneRecal p => okPhys p
  | .hbmPatrolRead m _ => okStack m
  | .hbmRowSparing m _ _ => okStack m
  | .hbmChannelCopyLine m _ => okStack m
  | .hbmSpareFailed m => okStack m
  | .hbmSpareTest m _ => okStack m
  | .ringLoopUpdate b l _ _ => okBundle b && okLambda l
  | .ringNoLight b l _ => okBundle b && okLambda l
  | .housekeepingRound site _ => okSite site
  | .castlingLambda16Switch _ _ _ => true
  | .castlingLineMove _ _ _ => true
  | .bundleUp b _ _ => okBundle b
  | .calDue b l => okBundle b && okLambda l
  | .calBegin b l => okBundle b && okLambda l
  | .calMeasurementDone b l _ _ => okBundle b && okLambda l
  | .calLaneReturn b l => okBundle b && okLambda l
  | .calStoreWrite _ _ => true
  | .identityWordReceived b l _ => okBundle b && okLambda l
  | .trainingFrameRequest b => okBundle b
  | .mislockAttemptDone b l _ _ => okBundle b && okLambda l
  | .flitReceived b _ _ => okBundle b
  | .nakReceived b _ _ => okBundle b
  | .nakRepeatTimeout b _ => okBundle b
  | .write p => okPkt p
  | .read p _ _ => okPkt p
  | .readData p => okPkt p
  | .signal p _ _ => okPkt p
  | .completion p => okPkt p
  | .mgmt p _ _ _ => okPkt p
  | .portPartialReset port side => okPort port && okSide side
  | .start port side _ => okPort port && okSide side
  | .startRepeat port side => okPort port && okSide side
  | .portLaneTestDone port side _ => okPort port && okSide side
  | .propose port side _ => okPort port && okSide side
  | .confirm port side _ => okPort port && okSide side
  | .handshakeTimeout port side => okPort port && okSide side
  | .portFailCountReset port => okPort port
  | .pllLossOfLock site _ => okSite site
  | .pllStandbyReady site => okSite site
  | .pllFail site => okSite site
  | .refFallback site => okSite site
  | .refRestored site => okSite site
  | .refLost site => okSite site
  | .droopTrip site _ => okSite site
  | .roodHoldExpiry site _ => okSite site
  | .roodStop site _ => okSite site
  | .roodFreq site _ => okSite site
  | .timeMarkSend => true
  | .timeMarkReceived site _ _ _ => okSite site
  | .delayEcho site _ _ _ => okSite site
  | .gtcHoldoverEv site _ => okSite site
  | .timeSrcChange _ => true
  | .ptpMessage _ => true
  | .ptmDialogue _ _ => true
  | .counterExtensionPoll => true
  | .stalemate _ _ => true
  | .descEngineTurn _ _ _ => true
  | .descriptorCompletion _ _ => true
  | .desc p => okPkt p
  | .txdata p => okPkt p
  | .comp p => okPkt p
  | .rxdata p => okPkt p
  | .rxsignal p _ _ => okPkt p
  | .rxread p _ _ => okPkt p
  | .rddata p => okPkt p
  | .hqcredit p => okPkt p
  | .fabData p _ _ => okFab p
  | .fabRead p _ => okFab p
  | .fabReadData p _ => okFab p
  | .fabComplete p _ => okFab p
  | .fabAck p _ => okFab p
  | .fabBarrier p _ => okFab p
  | .fabMgmt p _ _ _ => okFab p
  | .ackSendTimeout _ _ => true
  | .retransmitTimeout _ _ _ => true
  | .pathProbe _ => true
  | .rateIncrease _ => true
  | .pfcPauseReceived port _ _ => okEth port
  | .drainComplete port => okEth port
  | .teardownReportTimeout _ => true
  | .telemetryRecord port => okEth port
  | .requestFrame _ _ _ _ _ => true
  | .openRec _ _ _ _ _ _ _ => true
  | .closeRec _ _ _ _ _ _ _ => true
  | .ping _ _ _ _ _ _ _ => true
  | .infer _ _ _ _ _ _ _ => true
  | .updateRec _ _ _ _ _ _ _ => true
  | .hostRingPip _ => true
  | .batchClose => true
  | .batchDispatch => true
  | .batchReturn _ => true
  | .deadlineMiss => true
  | .sessionIdleTimeout _ _ => true
  | .mw15Write _ => true
  | .m2hRelease _ => true
  | .h2dRing _ => true
  | .d2hTake _ => true
  | .d2hMaskWrite _ => true
  | .vecMaskWrite _ => true
  | .wvRead _ => true
  | .wvWrite _ => true
  | .wvComplete => true
  | .evqConsWrite _ => true
  | .registerWrite _ _ _ => true
  | .bar2Read _ _ _ => true
  | .bar2Write _ _ _ _ => true
  | .paritySweep _ _ => true
  | .oobDatagram _ _ _ _ ws => okMsg ws
  | .oobPeerExpiry _ => true
  | .fmMessage _ _ => true
  | .smbBlockWrite _ _ ws => okMsg ws
  | .smbBlockRead => true
  | .smbReadByte => true
  | .smbAlertResponse => true
  | .prepare site _ _ r _ => okSite site && okReq r
  | .commit site _ => okSite site
  | .abortCmd site _ => okSite site
  | .prepareTimeout site => okSite site
  | .controllerStatus site => okSite site
  | .controllerUnresponsive site => okSite site
  | .ctrlRestart site _ _ => okSite site
  | .journalResolution => true
  | .nopCommand r => okReq r
  | .cmdResult r => okReq r
  | .mpStatus r => okReq r
  | .identRead r => okReq r
  | .partForm r => okReq r
  | .partDissolve r => okReq r
  | .partWindow r => okReq r
  | .partOverlay r => okReq r
  | .partStalemate r => okReq r
  | .partApply r => okReq r
  | .partReport r => okReq r
  | .planLoad r _ => okReq r
  | .planStart r => okReq r
  | .planStop r => okReq r
  | .planUnload r => okReq r
  | .ctxSave r _ _ => okReq r
  | .ctxRestore r _ => okReq r
  | .ctxReset r => okReq r
  | .coreRetire r _ => okReq r
  | .syncRead r => okReq r
  | .syncWrite r => okReq r
  | .debugCtl r => okReq r
  | .memStatus r => okReq r
  | .memGranules r => okReq r
  | .memScrub r => okReq r
  | .phoChannel r => okReq r
  | .phoCal r => okReq r
  | .portStatus r => okReq r
  | .portRetrain r => okReq r
  | .timeStatus r => okReq r
  | .pipInBind r => okReq r
  | .pipOutBind r => okReq r
  | .hqAssign r => okReq r
  | .ethPortCfg r => okReq r
  | .ethPortDrain r => okReq r
  | .engDirPut r _ => okReq r
  | .engDirDelete r _ => okReq r
  | .engDirGet r _ => okReq r
  | .engBucketClear r => okReq r
  | .engSessionRead r _ => okReq r
  | .engSessionClose r _ => okReq r
  | .podForm r _ => okReq r
  | .jobLaunch r _ => okReq r
  | .jobEnd r => okReq r
  | .capAdd r _ => okReq r
  | .capRemove r => okReq r
  | .podState r => okReq r
  | .fabMap r => okReq r
  | .roleSet r => okReq r
  | .fabAddrWrite r => okReq r
  | .fabRankWrite r => okReq r
  | .fabGroupWrite r => okReq r
  | .fabJobSet r => okReq r
  | .fabJobActivate r => okReq r
  | .fabTeardown r => okReq r
  | .fabFence r => okReq r
  | .fabEpoch r => okReq r
  | .fabPodState r => okReq r
  | .fabHeartbeat r => okReq r
  | .fabMapReq r => okReq r
  | .fabDrainNotice r => okReq r
  | .fabPathReport r => okReq r
  | .jobEndFwd r => okReq r
  | .cfgRead r => okReq r
  | .cfgWriteCmd r => okReq r
  | .ctrRead r => okReq r
  | .testRun r => okReq r
  | .testDone _ _ => true
  | .traceSample site => okSite site
  | .atbDisconnect _ _ => true
  | .mpDrill r _ site _ => okReq r && okSite site
  | .powerState r _ _ => okReq r
  | .wake _ => true
  | .powerBudget r => okReq r
  | .budgetRecompute => true
  | .grant _ _ _ => true
  | .grantAck _ _ => true
  | .request _ _ => true
  | .returnWatts _ _ => true
  | .pwrPhaseLost site _ _ => okSite site
  | .roodRegate site _ => okSite site
  | .thermalCapStep site => okSite site
  | .thermalRestart site _ => okSite site
  | .mpHeartbeat _ => true
  | .mpTakeover => true
  | .standbyFault => true
  | .takeoverResetTimer => true
  | .standbyReady _ => true
  | .mpReturn => true
  | .mpWatchdog => true
  | .fmHeartbeatSend => true
  | .managerLost => true
  | .fmLeaseExpiry => true
  | .fmTakeover _ => true
  | .fmReturn => true
  | .guestPacket p _ _ => okPkt p
  | .guestLinkDown => true
  | .updStage r _ _ => okReq r
  | .updActivate r => okReq r
  | .activationReloadDone _ _ => true
  | .updLock r => okReq r
  | .attest r => okReq r
  | .rcvBegin r => okReq r
  | .rcvData r => okReq r
  | .rcvEnd r _ => okReq r
  | .rcvFromSd r _ => okReq r
  | .alwaysOnDomainUp => true
  | .perstRelease => true
  | .pcieLinkChange _ _ => true
  | .ethLinkDown port => okEth port
  | .ethLinkUp port => okEth port
  | .oobLinkChange _ => true
  | .guestLinkUp => true
  | .hbmInterfaceError m _ _ => okStack m
  | .laneMonitorFailure port side => okPort port && okSide side
  | .comparatorClear _ => true
  | .refclkReturn => true
  | .msixTableWrite _ _ _ => true
  | .fenceBitmapResend _ _ _ _ => true
  | .egressFrameSent port => okEth port

end Sys2Proof
end

