-- ==== Sys2Proof/Tests/Slice0.lean ====
section
/-! SUPPORT. Slice0.lean: tests: worked examples of the spec, ill-formed operands that WellFormed refuses, and for every obligation with
hypotheses states and operands that meet them, one witness per clause, in the clauses' order. -/
namespace Sys2Proof.Tests
open Sys2Proof Sys2Proof.Machine
set_option maxRecDepth 100000
set_option Elab.async false

/-! ## The spec's worked examples -/

/-- spec/04, the worked example after R128: TL_SHARE 0. -/
theorem test_interleave_package :
    hbmMap 1 0 0x1234567ABC = (4, 0x123456ABC) ∧ pcMap 0x123456ABC = (63, 0x48D15BC) := by decide +kernel
/-- The same example, TL_SHARE 16. -/
theorem test_interleave_tileLocal : hbmMap 1 16 0xA000005000 = (8, 0x800001000) := by decide +kernel
/-- The standard check value of the CRC of R477 (polynomial 0x1021, initial value 0xFFFF), worked out outside the model. -/
theorem test_crc16 : crc16 [0x31, 0x32, 0x33, 0x34, 0x35, 0x36, 0x37, 0x38, 0x39] = 0x29B1#16 := by decide +kernel
/-- spec/06, the worked example of the retraining of P3 on S5: bundles 123 and 141 go out, 224 and 414 come in. -/
theorem test_port_bundles : (List.range 452).filter (fun b => (bPorts b).contains (5 * 12 + 3)) = [123, 141, 224, 414] := by decide +kernel
/-- spec/05, the worked example of a casting comb: comb 7 of LT1 feeds bundles 100 to 103, and its spare is comb 29. -/
theorem test_comb : combBundles 1 1 7 = [100, 101, 102, 103] ∧ spareComb 1 7 = 29 := by decide +kernel
/-- spec/02, the worked example of a fence: core 7.0.5 has the spare 7.1.12. -/
theorem test_spare : spareOf ((7 * 8 + 0) * 16 + 5) = (7 * 8 + 1) * 16 + 12 := by decide +kernel
/-- spec/14, the examples of event codes after R407. -/
theorem test_event_codes : Ev.castlingStart = 0x1307 ∧ Ev.coreFenced = 0x5101 := by decide +kernel
/-- spec/02, the worked example after R72: BF16 with NCH 127 takes 256 cycles. -/
theorem test_occupancy : occupancy { slice := false, td := 3, fmtA := 3, fmtB := 3, a := 0, b := 0, nch := 127, acc := false } = 256 := by decide +kernel
/-- spec/03, the example of R90: the FP32 number nearest 3.1 gives the scale code 120 and the element 384 in FP8 E4M3 (exponent field 15,
mantissa 4: 2^8 * 1.5). -/
theorem test_block_conversion : blockConv .e4m3 .near [(valueOf .fp32 0x40466666, 0)] = ([(0x7C, 16)], 120) := by decide +kernel

/-! ## Ill-formed operands -/

/-- A core that is a spare, or beyond the package; a die position, bundle, wavelength, port, side, Ethernet port or stack that does not exist. -/
theorem test_wf_units : (Instr.nop 12 0).wf = false ∧ (Instr.nop 0 0).wf = true ∧ (Instr.laneTest 1536).wf = false ∧
    (Instr.rootPllFirstLock 0x2C).wf = false ∧ (Instr.calBegin 452 0).wf = false ∧ (Instr.calBegin 0 18).wf = false ∧
    (Instr.startRepeat 144 0).wf = false ∧ (Instr.startRepeat 0 2).wf = false ∧ (Instr.ethLinkDown 16).wf = false ∧
    (Instr.hbmSpareFailed 16).wf = false := by decide +kernel
/-- A request with fourteen arguments; a packet whose LEN is not its payload's; a fabric packet too long; a message of fifteen words. -/
theorem test_wf_messages : (Instr.nopCommand { chan := .pcie, tag := 7, args := List.replicate 14 0 }).wf = false ∧
    (Instr.signal { op := 5, dst := 0, final := 0, src := 0, part := 0, tag := 0, addr := 0, arg := 0, payload := [], len := 1, vc := 0, flits := 1 } [] {}).wf = false ∧
    (Instr.fabAck { type := 1, dstPkg := 1, seq := 3, payload := List.replicate 4097 0 } { port := 0, udp := 49152 }).wf = false ∧
    (Instr.smbBlockWrite 64 true (List.replicate 15 0)).wf = false := by decide +kernel
/-- No row of the table gives bits, so no word spells a command, and the machine stands as it was. -/
theorem test_no_word (s : State) : decodeTableWord 64 0 = none ∧ s.withFetchWord 64 0 = s := ⟨rfl, rfl⟩

/-! ## Small states -/

/-- A request kv the host's mailbox, and one in the pod from package 0. -/
def rq (args : List Nat) (payload : List Byte := []) : Req := { chan := .pcie, tag := 7, args := args.map (BitVec.ofNat 32), payload := payload }
def fq (args : List Nat) (payload : List Byte := []) : Req := { rq args payload with chan := .fm 0 0 }

/-- An identity block of a site in a package of KV-480 (spec/01 R25, R26). -/
def blk (site : Nat) : Nat :=
  let w := site + 2 ^ 24 + 2 ^ 40
  w + identCrc w * 2 ^ 48

/-- A KV-480 in RUN, 100 s after reset: every die present and locked, both processors healthy, the link to the host and the hub's bundles to the tiles up. -/
def kv : State := { State.reset with
  now := 100000000000
  fuses := { State.reset.fuses with blocks := (sitesOf 1).map (fun n => (n, BitVec.ofNat 256 (blk n))) }
  pkg := { power := 0, part := 1, present := sitesOf 1 }
  aon := { up := true }
  pins := { vin12 := true, pwrgd := true, perst := false }
  mp := { running := true, standbyOk := true, standbyReset := false }
  hl := { linkUp := true }
  pho := { bundles := (List.range 4).map (fun i => (448 + i, { lit := true, st := 0 })) }
  clk := { dies := (sitesOf 1).map (fun n => (n, { locked := true, timeRun := true, ref := if n < siteLH then 0 else 3, hold := false, stepped := true })) } }

/-- A partition of stack 0 whose window takes in all of HBM4. -/
def pt0 : Part := { stackSet := 1, mode := 1, owner := 0, plan := 2, named := [(0, 0), (1, 1)], windows := [(0, ⟨0, 2 ^ 39, true, true⟩)] }
/-- `kv` with that partition. -/
def onP (p : Part := pt0) : State := { kv with parts := [(0, p)] }
/-- Core 0 issues the words of a schedule. -/
def core0 (ws : List (BitVec 64)) (k : Core := {}) (p : Part := pt0) : State := { onP p with
  cores := { core := [(0, { k with cond := .issuing, words := ws.length })] }
  mem := { m := writeBs {} (scrBase 0 + 524288 - 8 * ws.length) (ws.flatMap (fun w => leBytes 8 w.toNat)) } }
/-- A word in the general layout (spec/02 R56). -/
def gw (major minor d a b c imm : Nat) : BitVec 64 :=
  BitVec.ofNat 64 (major * 2 ^ 58 + minor * 2 ^ 52 + d * 2 ^ 47 + a * 2 ^ 42 + b * 2 ^ 37 + c * 2 ^ 32 + imm)
/-- Core 0 at a word, with NOP behind it. -/
def at0 (w : BitVec 64) (k : Core := {}) : State := core0 [w, 0] k
/-- A configuration item set. -/
def withCfg (item inst v : Nat) (s : State) : State := setCfg s item inst { base := BitVec.ofNat 64 v, eff := BitVec.ofNat 64 v }
/-- A descriptor (spec/09 R268). -/
def dsc (op flags target laddr len : Nat) : List Byte :=
  leBytes 1 op ++ leBytes 1 flags ++ leBytes 2 0 ++ leBytes 4 target ++ leBytes 8 laddr ++ leBytes 8 0 ++ leBytes 4 len ++ leBytes 28 0 ++ leBytes 8 0
/-- A partition whose job is active: rank 0 is endpoint 0 here, rank 1 endpoint 0 of package 1, at an address behind ports 0 to 15. -/
def job0 (f : Fabric → Fabric := id) : State := { onP with
  jobs := [(0, { id := 1, rankCount := 2, groupCount := 1, state := 1 })]
  fab := f { ranks := [(0, 0x8000), (1, 0x18000)], addrs := [(1, { ip := leBytes 16 1, portmask := 0xFFFF, valid := true })]
             ports := [(0, { mode := 1, link := true })] }
  pho := { bundles := (List.range 24 ++ (List.range 16).map (436 + ·)).map (fun b => (b, { lit := true, st := 0 })) } }
/-- A descriptor at the hub. -/
def hd0 : HubDesc := { src := 0, tag := 7, pt := 0, job := 1, op := 1, flags := 0, dstPkg := 1, dstEp := 0, laddr := 0, raddr := 0, len := 2048, saddr := 0, sval := 0, npkt := 1 }
def xf0 : Xfer := { toScr := true, tok := 31, scr := 0, far := 0, len := 128, sem := some 31 }
/-- A frame that arrives at port 0; a packet that waits for its acknowledgement. -/
def ar0 : Arr := { port := 0, udp := fabPort job0 }
def ua0 (tries : Nat) : Unacked := { p := { type := 1, dstPkg := 1, seq := 3 }, tries := tries, port := 0, tried := 0 }
/-- A peer of package 0. -/
def peer1 (p : Peer) : State := job0 (fun f => { f with peers := [(1, p)] })
/-- Port 15. -/
def port15 (p : EthPort) : State := job0 (fun f => { f with ports := [(15, p)] })
/-- An entry of a pod description (spec/12 R489). -/
def podEnt (pkg : Nat) : List Byte := leBytes 2 pkg ++ leBytes 14 0 ++ addrBytes { ip := leBytes 16 1, portmask := 0xFFFF, valid := true }
/-- A job of the manager. -/
def mj0 : MgrJob := { members := [(0, 0)], eps := [0], rankBase := 0, rankCount := 1, groupBase := 0, groupCount := 0 }
/-- The manager of a pod with package 5 in it, its job 1, and bytes at 0x1000 in HBM4. -/
def mgr (bs : List Byte := []) (p : Pod → Pod := id) : State := { job0 (fun f => { f with mgr := { jobs := [(1, mj0)] } }) with
  pod := p { role := 1, podState := 1, leaseHeld := true, members := [5] }
  mem := { m := writeBs {} 0x1000 bs } }
/-- `pt0` in a plan state, and `kv` with it. -/
def pl (n : Nat) (runs : Option Nat := none) : Part := { pt0 with plan := n, runs := runs }
def onPl (n : Nat) : State := onP (pl n)
/-- A plan with one core and the word END (spec/02 R44, R45). -/
def planImg : List Byte :=
  leBytes 4 0x4E414C50 ++ leBytes 2 1 ++ leBytes 2 0 ++ [1, 0] ++ leBytes 2 1 ++ leBytes 4 0 ++ leBytes 8 64 ++ leBytes 8 88 ++ leBytes 32 0
    ++ (leBytes 2 0 ++ leBytes 2 1 ++ leBytes 4 0 ++ leBytes 8 80) ++ leBytes 8 (2 ^ 52)
/-- Bytes at 0x1000. -/
def withMem (bs : List Byte) (s : State) : State := { s with mem := { m := writeBs {} 0x1000 bs } }
/-- A vertical channel; HBM4 stack 15. -/
def vc0 (v : Vc) : State := { kv with mem := { vcs := [(0, v)] } }
def hbm15 (h : Hbm) : State := { kv with mem := { hbms := [(15, h)] } }
/-- The start of a context at 0x1000: VERSION 1 and g0 of 7 (spec/02 R75). -/
def ctxIn : State := withMem (leBytes 2 1 ++ leBytes 62 0 ++ leBytes 8 7) kv
theorem leBytes_length (n w : Nat) : (leBytes n w).length = n := by
  induction n generalizing w with
  | zero => rfl
  | succ n ih => simp [leBytes, ih]
theorem flatMap_length (l : List Nat) (f : Nat → List Byte) (n : Nat) (h : ∀ i, (f i).length = n) : (l.flatMap f).length = l.length * n := by
  induction l with
  | nil => simp
  | cons a r ih => simp [ih, h, Nat.add_mul, Nat.add_comm]
theorem tileBytes_length (t : Tile) : (tileBytes t).length = 2048 := by
  rw [tileBytes, flatMap_length _ _ 16 (fun _ => leBytes_length _ _), List.length_range]
theorem ctxBytes_length (s : State) (c : Nat) : (ctxBytes s c).length = 25600 := by
  simp only [ctxBytes, ctxGs, List.length_append, leBytes_length, flatMap_length _ _ 8 (fun _ => leBytes_length _ _),
    flatMap_length _ _ 2 (fun _ => leBytes_length _ _), flatMap_length _ _ 256 (fun _ => leBytes_length _ _),
    flatMap_length _ _ 2048 (fun _ => tileBytes_length _), List.length_range, Nat.reduceAdd, Nat.reduceMul]
theorem pieces_hbm (a : Nat) (bs : List Byte) (n : Nat) (hn : bs.length = n) (ha : a + n ≤ 2 ^ 39) (q : Nat × List Byte × List (Nat × Nat))
    (hq : q ∈ pieces a bs 0) : dpaOf 1 q.1 = .hbm := by
  simp only [pieces, linesOf, List.mem_map] at hq
  obtain ⟨l, hl, rfl⟩ := hq
  split at hl
  · simp at hl
  · simp only [List.mem_map, List.mem_range] at hl
    obtain ⟨i, hi, rfl⟩ := hl
    have h : max a ((a / 64 + i) * 64) < hbmSize 1 := by simp [hbmSize]; omega
    simp [dpaOf, h]
theorem lines_hbm (a n : Nat) (ha : a + n ≤ 2 ^ 39) (l : Nat) (hl : l ∈ linesOf a n) : dpaOf 1 l = .hbm := by
  unfold linesOf at hl
  split at hl
  · simp at hl
  · simp only [List.mem_map, List.mem_range] at hl
    obtain ⟨i, hi, rfl⟩ := hl
    have h : (a / 64 + i) * 64 < hbmSize 1 := by simp [hbmSize]; omega
    simp [dpaOf, h]
theorem uncut {s : State} {l e : Nat} (he : epOfAddr s l = e) (h : reachesEp s 12 e = true) : lineCut s 12 l = false := by
  unfold lineCut
  simp only [he, h, Bool.not_true, Bool.and_false]
theorem ep_hbm {s : State} {l : Nat} (h : dpaOf s.pkg.part l = .hbm) : epOfAddr s l = 16 + (placeOf s l).stack / 4 := by
  unfold epOfAddr
  simp only [h]
theorem place_stack (s : State) (l : Nat) : (placeOf s l).stack = (hbmMap s.pkg.part (tlShare s) l).1 := by
  simp only [placeOf]
/-- The hub's bundles reach the tile of each line. -/
theorem lines_lit {s : State} (a n sh : Nat) (hp : s.pkg.part = 1) (hs : tlShare s = sh)
    (h : ∀ l, l ∈ linesOf a n → dpaOf 1 l = .hbm ∧ [16, 17, 18, 19].contains (16 + (hbmMap 1 sh l).1 / 4) = true)
    (r : ∀ e, e ∈ [16, 17, 18, 19] → reachesEp s 12 e = true) (l : Nat) (hl : l ∈ linesOf a n) : lineCut s 12 l = false := by
  have e := ep_hbm (hp.symm ▸ (h l hl).1)
  rw [place_stack, hp, hs] at e
  exact uncut e (r _ (List.contains_iff_mem.mp (h l hl).2))
theorem pieces_lines (a : Nat) (bs : List Byte) (n : Nat) (hn : bs.length = n) (ha : a % 64 = 0) (q : Nat × List Byte × List (Nat × Nat))
    (hq : q ∈ pieces a bs 0) : q.1 ∈ linesOf a n := by
  simp only [pieces, List.mem_map, hn] at hq
  obtain ⟨l, hl, rfl⟩ := hq
  have h : a ≤ l := by
    unfold linesOf at hl
    split at hl
    · simp at hl
    · simp only [List.mem_map, List.mem_range] at hl
      obtain ⟨i, _, rfl⟩ := hl
      omega
  rw [Nat.max_eq_right h]
  exact hl
theorem gather1 (r : Req) (s : State) (a : Nat) (bs : List Byte) (ha : addrArg r 2 = a) (hb : ctxAreas r = [(2, 25600)])
    (h : (bufRead a 25600 [] s).1 = .data bs) : (ctxGather r [] s).1 = (none, [(2, bs)]) := by
  unfold ctxGather
  generalize hg : bufRead a 25600 [] s = g at h
  obtain ⟨x, y⟩ := g
  simp only at h
  subst h
  simp only [hb, List.foldl_cons, List.foldl_nil, ha, hg, List.nil_append]
theorem ctxIn_read : (ctxGather (rq [0, 0, 0x1000, 0]) [] (begun 0x0201 (rq [0, 0, 0x1000, 0]) ctxIn)).1 =
    (none, [(2, getBs ctxIn.mem.m 0x1000 25600)]) :=
  gather1 (rq [0, 0, 0x1000, 0]) (begun 0x0201 (rq [0, 0, 0x1000, 0]) ctxIn) 0x1000 _ (by decide) (by decide)
    (bufRead_clear (s := begun 0x0201 (rq [0, 0, 0x1000, 0]) ctxIn) 0x1000 25600 ⟨rfl, rfl, rfl⟩ rfl (lines_hbm 0x1000 25600 (by decide))
      (lines_lit 0x1000 25600 0 (by decide +kernel) (by decide +kernel) (by decide +kernel) (by decide +kernel)))
theorem ctxIn_parse : ctxParse (mget [(2, getBs ctxIn.mem.m 0x1000 25600)] [] 2) = some ((ctxParse (getBs ctxIn.mem.m 0x1000 25600)).getD {}) := by
  have h : (ctxParse (getBs ctxIn.mem.m 0x1000 25600)).isSome = true := by decide +kernel
  obtain ⟨k, hk⟩ := Option.isSome_iff_exists.mp h
  rw [show mget [(2, getBs ctxIn.mem.m 0x1000 25600)] [] 2 = getBs ctxIn.mem.m 0x1000 25600 from rfl, hk]
  rfl
theorem save_fits : (bufWrite (addrArg (rq [0, 0, 0x1000, 0]) 2) (ctxBytes kv 0) (begun 0x0200 (rq [0, 0, 0x1000, 0]) kv)).1 = none := by
  rw [show addrArg (rq [0, 0, 0x1000, 0]) 2 = 0x1000 by decide]
  exact bufWrite_clear 0x1000 (ctxBytes kv 0) ⟨rfl, rfl, rfl⟩ (by decide) (by rw [ctxBytes_length]) (pieces_hbm 0x1000 (ctxBytes kv 0) 25600 (ctxBytes_length _ _) (by decide))
    (fun q hq => lines_lit 0x1000 25600 0 (by decide +kernel) (by decide +kernel) (by decide +kernel) (by decide +kernel) q.1 (pieces_lines 0x1000 (ctxBytes kv 0) 25600 (ctxBytes_length _ _) (by decide) q hq))
theorem pair_eq {α β : Type} {p : α × β} {a : α} (h : p.1 = a) : p = (a, p.2) := by rw [← h]
/-- A record of a session's operation kv key 5; the entry of session 7, of a peer of the fabric (`h` 0) or of the host (1); the entry of key 5
(spec/10 R313, R316, R319). -/
def rec0 (op : Nat) : List Byte := leBytes 2 op ++ leBytes 6 0 ++ leBytes 8 5 ++ leBytes 4 100 ++ leBytes 44 0
def sess0 (h : Nat) : List Byte :=
  leBytes 1 1 ++ leBytes 1 h ++ leBytes 2 0 ++ leBytes 4 9 ++ leBytes 4 100 ++ leBytes 4 1000 ++ leBytes 16 1 ++ leBytes 2 2 ++ leBytes 30 0
def dir0 : List Byte := leBytes 8 5 ++ leBytes 8 0x30000000 ++ leBytes 4 64 ++ leBytes 2 1 ++ leBytes 2 0 ++ leBytes 8 1
def frame0 (op : Nat) : List Byte := [1, 1, 1, 0] ++ leBytes 4 7 ++ leBytes 4 9 ++ leBytes 4 0 ++ rec0 op
def peer0 : Peer10 := ⟨7, 9, false, 1, 2⟩
/-- A request held. -/
def er0 : EReq := { recd := rec0 1, session := 7, nonce := 9, host := false, peerIp := 1, peerPort := 2, arrival := 0, deadline := 1600000, block := 0, blen := 64, tag := 0, version := 1, bucket := bucketOf 5, adm := 0 }
/-- The engine serves partition 0, with session 7 and key 5. -/
def srv (e : Eng := {}) (h : Nat := 0) (more : Mem → Mem := id) : State := withCfg 6 0 (cfgDefault 6 + 3) { onP { pt0 with mode := 3 } with
  jobs := [(0, { id := 1, rankCount := 2, groupCount := 1, state := 1 })]
  fab := { ranks := [(0, 0x800C), (1, 0x8000)], addrs := [(0, { ip := leBytes 16 1, portmask := 0xFFFF, valid := true })], hqs := [(31, { owner := some 12 })], ports := [(0, { mode := 1, link := true })] }
  hp := { h2dPending := 2 ^ 31 }
  eng := { e with state := 3, cleared := true, started := true }
  mem := { m := more (writeBs (writeBs {} (64 * 7) (sess0 h)) (0x04000000 + 128 * bucketOf 5) dir0) } }
/-- A flit whose payload is zero: its link header, CRC and check symbols, worked out from spec/06 R183, R184. -/
def flit (hdr crc par : Nat) : List Byte := leBytes 7 hdr ++ leBytes 240 0 ++ leBytes 4 crc ++ leBytes 5 par
/-- A HEAD flit of VC 0 with SEQ 0; one of VC 3 with SEQ 5; bytes that are no flit. -/
def flit0 : List Byte := flit 0x2000000 0xEB3139AA 0x46651F2D96
def flit5 : List Byte := flit 0x50001A000000 0xF61D962B 0x8D287F7DBE
def flitBad : List Byte := flit 0x2000000 0 0
/-- A channel of bundle 451 or of bundle 0, the bundle lit; a comb that is CASTLING; a link. -/
def chan (b l : Nat) (c : Ch) (u : Bundle := { lit := true, st := 0 }) : State := { kv with pho := { chans := [(b * 32 + l, c)], bundles := [(b, u)] } }
def castg (k : Cast) (bs : Map Bundle := []) : State := { kv with pho := { bundles := bs, combs := [(0, { lit := true, cast := some k })] } }
def lnk (k : Nat) (x : Link) : State := { kv with xpt := { links := [(k, x)] } }
/-- A packet of partition 0 (spec/06 R187). -/
def pk (op dst vc addr arg : Nat) (pl : List Byte := []) : OPkt :=
  { op := op, dst := dst, final := dst, src := 0, part := 0, tag := 7, addr := addr, arg := arg, payload := pl, len := pl.length, vc := vc, flits := flitsOf pl.length }
/-- Port 143, the tile's side, and the die's. -/
def prt (p : PortSide) (q : PortSide := {}) : State := { kv with xpt := { ports := [(286, q), (287, p)] } }
/-- The guest's window at `win`, 2 MiB long. -/
def gst (win : BitVec 64) (s : State) : State := { s with guest := { ctl := 2 ^ 12 + 2 ^ 11 + 2 ^ 10, win := win, fitted := true, linkUp := true } }
theorem nearTemp_nil (broken near : List Nat) : nearTemp broken [] near = 400 := by
  unfold nearTemp
  rw [List.findSome?_eq_none_iff.mpr (fun i _ => by split <;> simp)]
  rfl
/-- Before a housekeeping round of its tile a ring is taken to be at 25 °C. -/
theorem ringTemp_start {s : State} (h : s.pwr.tileTemps = []) (b l ring : Nat) : ringTemp s b l ring = 400 := by
  unfold ringTemp
  rw [h]
  exact nearTemp_nil _ _
/-- A training message of a type with its CRC (spec/06 R202). -/
def tmsg (typ : Nat) (m : TrainMsg) : TrainMsg := { m with crc := trainCrc typ m }

/-! ## Witnesses -/

theorem witness_HostRegisterWritesComplete :
    (∃ (s : State), bar0Up s = true ∧ s.hp.h2mFull = false) ∧
    (∃ (s : State), bar0Up s = true ∧ s.hp.h2mFull = true) ∧
    (∃ (v : Word32) (s : State), bar0Up s = true ∧ v ≠ 1) ∧
    (∃ (s : State), bar0Up s = true ∧ s.hp.m2hFull = true ∧ s.hp.m2hWait = [] ∧ s.hp.h2mFull = false) ∧
    (∃ (w : List Word32) (l : List (List Word32)) (s : State), bar0Up s = true ∧ s.hp.m2hFull = true ∧ s.hp.m2hWait = w :: l ∧
      s.hp.h2mFull = false) ∧
    (∃ (s : State), bar0Up s = true ∧ s.pkg.recovery = false) ∧
    (∃ (s : State), bar0Up s = true ∧ s.pkg.recovery = false) ∧
    (∃ (s : State), bar0Up s = true ∧ s.pkg.recovery = false) ∧
    (∃ (vec : Nat) (s : State), bar0Up s = true ∧ vec < 64) ∧
    (∃ (off : Nat) (be : Nat) (s : State), bar0Up s = true ∧ s.pkg.recovery = false ∧ off % 4 = 0 ∧ be % 16 = 15) ∧
    (∃ (s : State) (kh : Nat), kh = (mget s.fuses.blocks 0 siteKH).toNat) :=
  ⟨⟨kv, by decide +kernel⟩,
   ⟨{ kv with hp := { h2mFull := true } }, by decide +kernel⟩,
   ⟨0, kv, by decide +kernel⟩,
   ⟨{ kv with hp := { m2hFull := true } }, by decide +kernel⟩,
   ⟨[1, 2], [], { kv with hp := { m2hFull := true, m2hWait := [[1, 2]] } }, by decide +kernel⟩,
   ⟨{ kv with hp := { d2hPending := 7 } }, by decide +kernel⟩,
   ⟨kv, by decide +kernel⟩,
   ⟨kv, by decide +kernel⟩,
   ⟨63, kv, by decide +kernel⟩,
   ⟨0x138, 15, kv, by decide +kernel⟩,
   ⟨kv, _, rfl⟩⟩

theorem witness_HostAttachmentRowsComplete :
    (∃ (v : Word32) (s : State), bar0Up s = true ∧ s.pkg.recovery = false ∧ v.getLsbD 31 = false ∧ s.hp.wvState ≠ 1) ∧
    (∃ (v : Word32) (item : Nat) (n : Nat) (x : Nat) (s : State), bar0Up s = true ∧ s.pkg.recovery = false ∧ v.getLsbD 31 = true ∧
      s.hp.wvState ≠ 1 ∧ item = bitsN v.toNat 0 16 ∧ wvItem s item (bitsN v.toNat 16 8) = some (n, x)) ∧
    (∃ (s : State), s.hp.wvState = 1) ∧
    (∃ (s : State), bar0Up s = true ∧ s.pkg.recovery = false) ∧
    (∃ (v : Word32) (src : Nat) (q : EvQueue) (s : State), bar0Up s = true ∧ s.pkg.recovery = false ∧ s.hl.safe.contains 1 = false ∧
      src = (s.hl.evqSelect &&& 0xFF).toNat ∧ isSource src = true ∧ q = mget s.evq {} src ∧
      (v - (q.prod - BitVec.ofNat 32 q.recs.length)).toNat ≤ q.recs.length) ∧
    (∃ (s : State), s.pins.perst = false ∧ s.pkg.power ≠ 3) ∧
    (∃ (blk : Nat) (s : State), s.pkg.power ≠ 3 ∧ s.mp.running = true ∧ blk ≤ 7) ∧
    (∃ (key : Nat) (at_ : Nat) (fails : Nat) (s : State), s.pending = [] ∧ s.mp.running = true ∧ s.hl.rewriting = [(key, at_, fails)] ∧
      at_ ≤ s.now + 1) ∧
    (∃ (x : Nat) (n : Nat) (s : State), bar2Hit s x n = true ∧ hbmServes s = true ∧ (∀ l,
      l ∈ linesOf (s.hl.bar2Base.toNat + x) n → dpaOf s.pkg.part l = .hbm ∧ LineClean s l)) ∧
    (∃ (x : Nat) (bs : List Byte) (s : State), bar2Hit s x bs.length = true ∧ hbmServes s = true ∧ (∀ l,
      l ∈ linesOf (s.hl.bar2Base.toNat + x) bs.length → dpaOf s.pkg.part l = .hbm ∧ lineFenced s (placeOf s l) = false ∧
      findOf s.mem.flips l = none ∧ lineCut s 12 l = false)) :=
  ⟨⟨2, kv, by decide +kernel⟩,
   ⟨0x80000009, 9, 2, 0, { kv with hp := { wvData := [0x200000, 0, 0, 0] } }, by decide +kernel⟩,
   ⟨{ kv with hp := { wvState := 1, wvNext := 2 } }, by decide +kernel⟩,
   ⟨kv, by decide +kernel⟩,
   ⟨0, 0x20, {}, kv, by decide +kernel⟩,
   ⟨kv, by decide +kernel⟩,
   ⟨7, kv, by decide +kernel⟩,
   ⟨8, 5, 2, { kv with now := 10, hl := { kv.hl with rewriting := [(8, 5, 2)] } }, by decide +kernel⟩,
   ⟨60, 8, kv, by decide +kernel⟩,
   ⟨2 ^ 38 - 2, [1, 2], kv, by decide +kernel⟩⟩

theorem witness_GeneralCommandsComplete :
    (∃ (r : Req) (s : State), Reaches 0x0000 r s) ∧
    (∃ (r : Req) (k : Ticket) (s : State), Reaches 0x0001 r s ∧ mfind s.mp.tickets (argN r 0) = some k ∧ k.done = true) ∧
    (∃ (r : Req) (s : State), Reaches 0x0002 r s) ∧
    (∃ (r : Req) (s : State), Reaches 0x0003 r s ∧ siteReserved (argN r 0) = false ∧ siteAbsent s (argN r 0) = false) ∧
    (∃ (r : Req) (s : State), Reaches 0x0900 r s ∧ argN r 1 < cfgInstances s.pkg.part (argN r 0)) ∧
    (∃ (r : Req) (s : State) (s1 : State) (h : Bool), Reaches 0x0901 r s ∧ argN r 1 < cfgInstances s.pkg.part (argN r 0) ∧ (argN r 0 ≠ 1 ∧
      argN r 0 ≠ 2 ∨ r.chan = .pcie) ∧ cfgWrite true (argN r 0) (argN r 1) (argN r 2 + 2 ^ 32 * argN r 3) 2 s = .done s1 h) ∧
    (∃ (r : Req) (s : State), Reaches 0x0707 r s ∧ anyJob s = false) ∧
    (∃ (r : Req) (s : State), Reaches 0x0404 r s ∧ siteReserved (argN r 0) = false ∧ siteAbsent s (argN r 0) = false) :=
  ⟨⟨rq [], kv, by decide +kernel⟩,
   ⟨rq [3], { op := 0x110, done := true }, { kv with mp := { kv.mp with tickets := [(3, { op := 0x110, done := true })] } },
     by decide +kernel⟩,
   ⟨rq [], kv, by decide +kernel⟩,
   ⟨rq [0x20], kv, by decide +kernel⟩,
   ⟨rq [3, 3], kv, by decide +kernel⟩,
   ⟨rq [2, 0, 1, 0], kv, (match cfgWrite true 2 0 1 2 kv with | .done z _ => z | _ => kv),
     (match cfgWrite true 2 0 1 2 kv with | .done _ b => b | _ => false), by decide +kernel⟩,
   ⟨rq [1, 5, 6, 5], kv, by decide +kernel⟩,
   ⟨rq [0x60], kv, by decide +kernel⟩⟩

theorem witness_CommandChannelsComplete :
    (∃ (s : State), s.pkg.power ≠ 3) ∧
    (∃ (peer : Nat) (port : Nat) (seq : Nat) (ws : List Word32) (s : State), s.mp.running = true ∧ s.pkg.recovery = false ∧
      s.mp2.oobUp = true ∧ port = oobPort s ∧ (oobLive s).find? (fun q => q.addr == peer) = none ∧ (oobLive s).length < 4 ∧
      badMessage ws = false ∧ s.mp.takeoverAt = none ∧ journalOpen s = true ∧
      firstCheck s (reqOf (.oob peer seq) ws []).1 (reqOf (.oob peer seq) ws []).2 = none) ∧
    (∃ (peer : Nat) (port : Nat) (seq : Nat) (a : List Word32) (q : OobPeer) (s : State), s.mp.running = true ∧ s.pkg.recovery = false ∧
      s.mp2.oobUp = true ∧ port = oobPort s ∧ (oobLive s).find? (fun q => q.addr == peer) = some q ∧
      q.kept.find? (fun k => k.1 == seq) = some (seq, some a)) ∧
    (∃ (peer : Nat) (s : State), (∀ q, q ∈ s.mp2.oobPeers → q.addr = peer → q.lastAt + 60000000000 ≤ s.now)) ∧
    (∃ (m : FmMsg) (n : Nat) (ms : List Nat) (s : State), s.mp.running = true ∧ s.pkg.recovery = false ∧ m.payload.length ≤ 4096 ∧
      (¬ (0x0810 ≤ (reqOf (.fm m.srcPkg m.fmSeq) m.words m.payload).1 ∧ (reqOf (.fm m.srcPkg m.fmSeq) m.words m.payload).1 ≤ 0x0811)) ∧
      fmSender s m = true ∧ seqTake s.pod.fmNewest s.pod.fmMarks m.fmSeq = some (n, ms)) ∧
    (∃ (s : State), s.mp.running = true ∧ s.pod.role ≠ 1 ∧ s.pod.podState ≠ 0 ∧ s.pod.managerLost = false ∧ (∀ h,
      s.pod.lastHeartbeat = some h → h + 5000000 ≤ s.now)) ∧
    (∃ (ws : List Word32) (s : State), smbUp s = true ∧ s.mp2.smbBusy = false ∧ s.mp2.smbAnswer = none ∧ badMessage ws = false ∧
      s.mp.takeoverAt = none ∧ journalOpen s = true ∧ firstCheck s (reqOf .smbus ws []).1 (reqOf .smbus ws []).2 = none) ∧
    (∃ (ws : List Word32) (s : State), smbUp s = true ∧ s.mp2.smbAnswer = some ws) ∧
    (∃ (s : State), smbUp s = true) ∧
    (∃ (s : State), smbUp s = true ∧ alertPin s = true) :=
  ⟨⟨kv, by decide +kernel⟩,
   ⟨9, 50213, 1, answerWords 0 7 0 0 0 [], { kv with mp2 := { oobUp := true } }, by decide +kernel⟩,
   ⟨9, 50213, 1, [5], { addr := 9, lastAt := 10 ^ 11, kept := [(1, some [5])] },
     { kv with mp2 := { oobUp := true, oobPeers := [{ addr := 9, lastAt := 10 ^ 11, kept := [(1, some [5])] }] } }, by decide +kernel⟩,
   ⟨0, kv, by decide +kernel⟩,
   ⟨{ fmSeq := 5, srcPkg := 0, term := 0, epoch := 0, words := answerWords 0 7 0 0 0 [] }, 5, ((seqTake none [] 5).getD (0, [])).2, kv,
     by decide +kernel⟩,
   ⟨{ kv with pod := { podState := 3 } }, by decide +kernel⟩,
   ⟨answerWords 0 7 0 0 0 [], kv, by decide +kernel⟩,
   ⟨[3], { kv with mp2 := { smbAnswer := some [3] } }, by decide +kernel⟩,
   ⟨kv, by decide +kernel⟩,
   ⟨{ kv with mp2 := { smbAnswer := some [3] } }, by decide +kernel⟩⟩

theorem witness_TwoPhaseRowsComplete :
    (∃ (site : Nat) (term : Nat) (s : State), siteUp s site = true ∧ newer 16 (mget s.mp.ctrlTerm 0 site).toNat term = false) ∧
    (∃ (site : Nat) (term : Nat) (s : State), newer 16 (mget s.mp.ctrlTerm 0 site).toNat term = false) ∧
    (∃ (site : Nat) (term : Nat) (s : State), newer 16 (mget s.mp.ctrlTerm 0 site).toNat term = false) ∧
    (∃ (site : Nat) (term : Nat) (op : Nat) (r : Req) (e : JEntry) (s : State), siteUp s site = true ∧
      newer 16 (mget s.mp.ctrlTerm 0 site).toNat term = false ∧ s.mp.journal.find? (isEntry op r) = some e ∧ e.stage = 0 ∧
      e.sites.all (fun x => decide (x = site) || e.prepared.contains x) = true) ∧
    (∃ (site : Nat) (term : Nat) (op : Nat) (r : Req) (e : JEntry) (s : State), siteUp s site = true ∧
      newer 16 (mget s.mp.ctrlTerm 0 site).toNat term = false ∧ s.mp.journal.find? (isEntry op r) = some e ∧ e.stage = 0) ∧
    (∃ (site : Nat) (e : JEntry) (s : State), s.mp.running = true ∧ s.mp.takeoverAt = none ∧
      s.mp.journal.find? (fun e => e.stage == 0 && e.sites.contains site && !e.prepared.contains site && decide (e.takenAt + 1000000 ≤ s.now)) = some e) ∧
    (∃ (site : Nat) (s : State), siteUp s site = true ∧ s.mp2.ctrlDown.contains site = false) ∧
    (∃ (s : State) (a : Nat), s.mp.running = true ∧ s.mp.takeoverAt = some a ∧ a + 2000000 ≤ s.now) ∧
    (∃ (s : State) (a : Nat) (e : JEntry), s.mp.running = true ∧ s.mp.takeoverAt = some a ∧ a + 2000000 ≤ s.now ∧ s.mp.waitMsgs = [] ∧
      s.mp.journal = [e] ∧ e.stage = 0 ∧ e.ticket = none ∧ ((specNow s e.op).map (·.waits)).getD false = false) :=
  ⟨⟨0x20, 1, kv, by decide +kernel⟩,
   ⟨0x20, 0, kv, by decide +kernel⟩,
   ⟨0x20, 0, kv, by decide +kernel⟩,
   ⟨0x20, 1, 0x901, rq [], { op := 0x901, req := rq [], stage := 0, sites := [0x20, 0x44], prepared := [0x44], takenAt := 0 },
     { kv with now := 2000000, mp := { kv.mp with journal := [{ op := 0x901, req := rq [], stage := 0, sites := [0x20, 0x44], prepared := [0x44], takenAt := 0 }] } },
     by decide +kernel⟩,
   ⟨0x20, 1, 0x901, rq [], { op := 0x901, req := rq [], stage := 0, sites := [0x20, 0x44], prepared := [0x44], takenAt := 0 },
     { kv with now := 2000000, mp := { kv.mp with journal := [{ op := 0x901, req := rq [], stage := 0, sites := [0x20, 0x44], prepared := [0x44], takenAt := 0 }] } },
     by decide +kernel⟩,
   ⟨0x20, { op := 0x901, req := rq [], stage := 0, sites := [0x20, 0x44], prepared := [0x44], takenAt := 0 },
     { kv with now := 2000000, mp := { kv.mp with journal := [{ op := 0x901, req := rq [], stage := 0, sites := [0x20, 0x44], prepared := [0x44], takenAt := 0 }] } },
     by decide +kernel⟩,
   ⟨0x44, kv, by decide +kernel⟩,
   ⟨{ kv with now := 2000000, mp := { kv.mp with takeoverAt := some 0 } }, 0, by decide +kernel⟩,
   ⟨{ kv with now := 2000000, mp := { kv.mp with takeoverAt := some 0, journal := [{ op := 0x901, req := rq [], stage := 0, sites := [0x20, 0x44], prepared := [0x44], takenAt := 0 }] } },
     0, { op := 0x901, req := rq [], stage := 0, sites := [0x20, 0x44], prepared := [0x44], takenAt := 0 }, by decide +kernel⟩⟩

theorem witness_PllAndReferenceRowsComplete :
    (∃ (site : Nat) (s : State), (dieClk s site).locked = false ∧ (sitesOf s.pkg.part).contains site = true ∧
      (s.pkg.power < 2 ∨ s.pkg.starting = true)) ∧
    (∃ (site : Nat) (s : State), (dieClk s site).locked = true ∧ (dieClk s site).unlocked = false) ∧
    (∃ (site : Nat) (a : Nat) (s : State), (dieClk s site).unlocked = false ∧ (otherPll (dieClk s site)).failed = false ∧
      (otherPll (dieClk s site)).lost = some a ∧ a + 10000000000 ≤ s.now) ∧
    (∃ (site : Nat) (a : Nat) (s : State), (dieClk s site).unlocked = true ∧ (activePll (dieClk s site)).failed = false ∧
      (activePll (dieClk s site)).lost = some a ∧ a + 10000000000 ≤ s.now) ∧
    (∃ (site : Nat) (a : Nat) (s : State), (dieClk s site).unlocked = true ∧
      lostSince s.now 10000000000 (activePll (dieClk s site)) = false ∧ (otherPll (dieClk s site)).failed = false ∧
      (otherPll (dieClk s site)).lost = some a ∧ a + 10000000000 ≤ s.now) ∧
    (∃ (site : Nat) (a : Nat) (s : State), (otherPll (dieClk s site)).failed = false ∧ (otherPll (dieClk s site)).lost = some a ∧
      a + 1000000000 ≤ s.now) ∧
    (∃ (site : Nat) (a : Nat) (s : State), lostSince s.now 1000000000 (otherPll (dieClk s site)) = false ∧
      (activePll (dieClk s site)).failed = false ∧ (activePll (dieClk s site)).lost = some a ∧ a + 1000000000 ≤ s.now) ∧
    (∃ (site : Nat) (s : State), site < siteLH ∧ (dieClk s site).locked = true ∧ (dieClk s site).ref ≤ 1 ∧
      serviceUp s (hubBundle site) = false ∧ (peerFraming s site).isSome = true) ∧
    (∃ (site : Nat) (s : State), site < siteLH ∧ (dieClk s site).locked = true ∧ 2 ≤ (dieClk s site).ref ∧
      serviceUp s (hubBundle site) = true ∧ (mget s.pho.bundles {} (hubBundle site)).upAt + 10000000 ≤ s.now) ∧
    (∃ (site : Nat) (s : State), (dieClk s site).locked = true ∧ (dieClk s site).ref ≠ 4 ∧
      (site < siteLH → serviceUp s (hubBundle site) = false ∧ peerFraming s site = none)) ∧
    (∃ (site : Nat) (s : State), (dieClk s site).locked = false ∧ site < siteLH ∧ s.pkg.present.contains site = true) ∧
    (∃ (s : State), (dieClk s siteKH).locked = true ∧ (dieClk s siteKH).ref = 4) :=
  ⟨⟨0x60, setDie kv 0x60 {  }, by decide +kernel⟩,
   ⟨0x20, kv, by decide +kernel⟩,
   ⟨0x20, 0, { setDie kv 0x20 { locked := true, pllBeta := { lost := some 0 } } with now := 10 ^ 11 }, by decide +kernel⟩,
   ⟨0x20, 0, { setDie kv 0x20 { locked := true, unlocked := true, pllA := { lost := some 0 }, pllBeta := { failed := true } } with now := 10 ^ 11 },
     by decide +kernel⟩,
   ⟨0x43, 0, { setDie kv 0x43 { locked := true, unlocked := true, ref := 0, pllA := { failed := true }, pllBeta := { lost := some 0 } } with now := 10 ^ 11 },
     by decide +kernel⟩,
   ⟨0x20, 0, { setDie kv 0x20 { locked := true, pllBeta := { lost := some 0 } } with now := 10 ^ 11 }, by decide +kernel⟩,
   ⟨0x60, 0, { setDie kv 0x60 { locked := true, unlocked := true, pllA := { lost := some 0 }, pllBeta := { failed := true } } with now := 10 ^ 11 },
     by decide +kernel⟩,
   ⟨0x20, { setDie kv 0x20 { locked := true, timeRun := true, ref := 0 } with pho := { bundles := [(436, { serviceLost := true }), (35, { serviceLost := false })] } },
     by decide +kernel⟩,
   ⟨0x20, { setDie { kv with pho := { bundles := [(436, { lit := true, st := 0, serviceLost := false })] } } 0x20 { locked := true, timeRun := true, ref := 2 } with now := 10 ^ 11 },
     by decide +kernel⟩,
   ⟨0x60, kv, by decide +kernel⟩,
   ⟨0x20, setDie kv 0x20 {}, by decide +kernel⟩,
   ⟨setDie kv 0x60 { locked := true, ref := 4 }, by decide +kernel⟩⟩

theorem witness_RoodRowsComplete :
    (∃ (site : Nat) (id : Nat) (n : Nat) (s : State), (roodsOf site).contains id = true ∧ (dieClk s site).locked = true ∧
      (rood s site id).stopped = false ∧ (rood s site id).gated = false ∧ n = tripPeriod (site * 16 + id) (rood s site id)) ∧
    (∃ (site : Nat) (id : Nat) (h : Nat) (s : State), (rood s site id).holdUntil = some h ∧ h ≤ s.now) ∧
    (∃ (site : Nat) (id : Nat) (d : Nat) (s : State), site < 0x40 ∧ id < 8 ∧ (rood s site id).heldDiv = some d ∧
      (rood s site id).stopped = false ∧ (rood s site id).gated = false) ∧
    (∃ (site : Nat) (id : Nat) (d : Nat) (s : State), (rood s site id).loading = some d ∧ (rood s site id).stopped = true) ∧
    (∃ (site : Nat) (id : Nat) (u : Nat) (s : State), site < 0x40 ∧ id < 8 ∧ (rood s site id).ungatedAt = some u ∧ u + 100000 ≤ s.now) :=
  ⟨⟨0x20, 7, _, kv, by decide +kernel, by decide +kernel, by decide +kernel, by decide +kernel, rfl⟩,
   ⟨0x20, 0, (((rood (setRood kv 0x20 0 { holdUntil := some 0 } : State) (0x20 : Nat) 0).holdUntil).getD 0),
     setRood kv 0x20 0 { holdUntil := some 0 }, by decide +kernel⟩,
   ⟨0x2B, 7, (((rood (setRood kv 0x2B 7 { heldDiv := some 1 } : State) (0x2B : Nat) 7).heldDiv).getD 0),
     setRood kv 0x2B 7 { heldDiv := some 1 }, by decide +kernel⟩,
   ⟨0x20, 0, 1, setRood kv 0x20 0 { loading := some 1, stopped := true }, by decide +kernel⟩,
   ⟨0x20, 0, (((rood (setRood kv 0x20 0 { ungatedAt := some 0 } : State) (0x20 : Nat) 0).ungatedAt).getD 0),
     setRood kv 0x20 0 { ungatedAt := some 0 }, by decide +kernel⟩⟩

theorem witness_GlobalTimeRowsComplete :
    (∃ (s : State), (dieClk s siteKH).timeRun = true ∧ s.clk.hub.lastMark ≠ some ((hubGtc s).toNat / 16000)) ∧
    (∃ (site : Nat) (dl : Nat) (m : Mark) (s : State), site ≠ siteKH ∧ m.reserved = 0 ∧ (dieClk s site).timeRun = true ∧
      (dieClk s site).ref ≠ 2 ∧ (dieClk s site).lastMseq.all (fun q => newer 16 m.mseq q) = true ∧ delayNow s site = some dl) ∧
    (∃ (site : Nat) (s : State), site ≠ siteKH ∧ (dieClk s site).timeRun = true) ∧
    (∃ (site : Nat) (s : State), site ≠ siteKH ∧ (dieClk s site).timeRun = true ∧ (dieClk s site).hold = false) ∧
    (∃ (a : Nat) (s : State), (dieClk s siteKH).timeRun = true ∧ s.clk.hub.src ≠ primarySrc s ∧ s.clk.hub.primaryLockAt = some a ∧
      a + 10000000000 ≤ s.now) ∧
    (∃ (a : Nat) (s : State), (dieClk s siteKH).timeRun = true ∧ s.clk.hub.src ≠ fallbackSrc s ∧ s.clk.hub.primaryLockAt = none ∧
      (s.clk.hub.primaryLostAt = some a ∧ a + 1000000000 ≤ s.now ∨ s.clk.hub.primaryLostAt = none ∧ s.clk.hub.startAt = some a ∧
      a + 10000000000 ≤ s.now)) ∧
    (∃ (m : PtpMsg) (t4 : Nat) (off : Int) (s : State), (dieClk s siteKH).timeRun = true ∧ m.port ≤ 15 ∧
      m.domain = bitsN (cfgEff s 4 0) 24 8 ∧ m.transport = bitsN (cfgEff s 4 0) 12 4 ∧ m.kind = .delayResp t4 ∧ slavePort s = some m.port ∧
      ptpOffset s (ptpOf s m.port) t4 = some off ∧ s.clk.hub.src = 2 ∧ (primarySrc s = 2 ∨ fallbackSrc s = 2) ∧
      s.hl.safe.contains 6 = false) ∧
    (∃ (m : PtpMsg) (s : State), (dieClk s siteKH).timeRun = true ∧ m.port ≤ 15 ∧ m.domain = bitsN (cfgEff s 4 0) 24 8 ∧
      m.transport = bitsN (cfgEff s 4 0) 12 4) ∧
    (∃ (s : State), (dieClk s siteKH).timeRun = true ∧ s.clk.hub.src = 1 ∧ (primarySrc s = 1 ∨ fallbackSrc s = 1) ∧
      s.hl.safe.contains 6 = false ∧ s.hl.linkUp = true ∧ (∀ a, s.clk.hub.ptmAt = some a → a + 1000000 ≤ s.now)) ∧
    (∃ (k : Nat) (c : Ctr) (s : State), s.pkg.power < 2 ∧ mfind s.obs.ctrs k = some c) :=
  ⟨⟨kv, by decide +kernel⟩,
   ⟨0x20, 3, { frameGtc := 100, rate := 0, mseq := 1, step := false, srcLocked := true },
     setDie kv 0x20 { locked := true, timeRun := true, ref := 0, lastMseq := some 0, delay17 := some 3 }, by decide +kernel⟩,
   ⟨0x20, kv, by decide +kernel⟩,
   ⟨0x20, kv, by decide +kernel⟩,
   ⟨0, { kv with now := 10 ^ 10, clk := { kv.clk with hub := { src := 0, primaryLockAt := some 0 } } }, by decide +kernel⟩,
   ⟨0, { kv with now := 10 ^ 9, clk := { kv.clk with hub := { src := 7, primaryLostAt := some 0 } } }, by decide +kernel⟩,
   ⟨{ port := 0, domain := bitsN (cfgEff kv 4 0) 24 8, transport := bitsN (cfgEff kv 4 0) 12 4, kind := .delayResp 16000000000 },
     16000000000, 8000000000,
     { kv with now := 0, clk := { kv.clk with hub := { src := 2, ptp := [(0, { master := some [0], t1 := some 0, t2 := some 0, t3 := some 0 })] } } },
     by decide +kernel⟩,
   ⟨{ port := 0, domain := bitsN (cfgEff kv 4 0) 24 8, transport := bitsN (cfgEff kv 4 0) 12 4, kind := .announce [1] }, kv,
     by decide +kernel⟩,
   ⟨{ kv with now := 10 ^ 6, clk := { kv.clk with hub := { src := 1 } } }, by decide +kernel⟩,
   ⟨0x80020000, { raw := 5, prev := 2, ext := 2 }, { kv with obs := { ctrs := [(0x80020000, { raw := 5, prev := 2, ext := 2 })] } },
     by decide +kernel⟩⟩

theorem witness_FailoverRowsComplete :
    (∃ (s : State), s.pkg.power ≠ 3 ∧ (s.mp.activeB = true ∨ s.mp.standbyReset = false) ∧ (s.mp.activeB = true → s.mp.running = true) ∧
      s.mp.hbBat + 500000 ≤ s.now) ∧
    (∃ (s : State), s.pkg.power ≠ 3 ∧ (s.mp.activeB = false ∨ s.mp.standbyReset = false) ∧ (s.mp.activeB = false → s.mp.running = true) ∧
      s.mp.hbAat + 500000 ≤ s.now) ∧
    (∃ (s : State), s.mp.standbyOk = true ∧ s.mp.running = true ∧ hbAt s s.mp.activeB + 5000000 ≤ s.now) ∧
    (∃ (s : State), s.mp.standbyOk = true ∧ s.mp.running = true ∧ hbAt s (!s.mp.activeB) + 5000000 ≤ s.now) ∧
    (∃ (s : State), s.mp.formerReset = false ∧ s.mp.running = true ∧ (∀ x, s.mp.takeoverAt = some x → x + 2000000 ≤ s.now)) ∧
    (∃ (s : State), s.mp.running = true ∧ s.mp.standbyOk = false ∧ s.mp.standbyReset = true ∧ s.mp.selfFails < 3 ∧ s.pkg.power ≠ 2 ∧ (∀ x,
      s.mp.selfFailAt = some x → x + 60000000000 ≤ s.now)) ∧
    (∃ (z : Nat) (s : State), s.mp.running = true ∧ s.mp.standbyOk = true ∧ s.mp2.lostCtlAt.isSome = true ∧ s.mp2.noReturn = false ∧
      s.mp2.standbySince = some z ∧ z + 10000000000 ≤ s.now) ∧
    (∃ (s : State), s.mp.standbyOk = false ∧ s.mp.running = true ∧ hbAt s s.mp.activeB + 50000000 ≤ s.now) ∧
    (∃ (r : Req) (s : State), Reaches 0x0A02 r s ∧ TicketFree s ∧ s.mp.standbyOk = true ∧ s.upd.activation = none ∧ s.mp2.drill = none) ∧
    (∃ (site : Nat) (s : State), running s = true ∧ ctrlOn s site = true ∧ s.mp2.ctrlDown.contains site = false ∧
      mfind s.mp2.episodes site = none ∧ mget s.mp2.ctrlSeen 0 site + 1000000 ≤ s.now) ∧
    (∃ (site : Nat) (us : Nat) (s : State), running s = true ∧ s.mp2.ctrlDown.contains site = true ∧
      s.upd.activation.bind (·.unit) ≠ some site ∧ us ≤ 100000 ∧ identFails s site = none) :=
  ⟨⟨{ kv with mp := { kv.mp with activeB := true } }, by decide +kernel⟩,
   ⟨kv, by decide +kernel⟩,
   ⟨kv, by decide +kernel⟩,
   ⟨kv, by decide +kernel⟩,
   ⟨{ kv with mp := { kv.mp with formerReset := false } }, by decide +kernel⟩,
   ⟨{ kv with mp := { kv.mp with standbyOk := false, standbyReset := true } }, by decide +kernel⟩,
   ⟨0, { kv with mp2 := { lostCtlAt := some 0, standbySince := some 0 } }, by decide +kernel⟩,
   ⟨{ kv with mp := { kv.mp with standbyOk := false } }, by decide +kernel⟩,
   ⟨rq [], kv, by decide +kernel⟩,
   ⟨0x44, kv, by decide +kernel⟩,
   ⟨0x44, 1, { kv with mp2 := { ctrlDown := [0x44] } }, by decide +kernel⟩⟩

theorem witness_PowerBudgetRowsComplete :
    (∃ (n : Nat) (w : Nat) (s : State), running s = true ∧ (n, w) ∈ targets s ∧ (∀ x, s.pwr.dividedAt = some x → x + 1000000000 ≤ s.now)) ∧
    (∃ (n : Nat) (s : State), stackUp s n = true) ∧
    (∃ (n : Nat) (q : Nat) (w : Nat) (s : State), (diePower s n).decrease = some (w, q) ∧ (diePower s n).rise = none) ∧
    (∃ (n : Nat) (w : Nat) (g : Nat) (s : State), running s = true ∧ stackUp s n = true ∧ w ≤ unallocated s ∧
      g = ((diePower s n).decrease.map (·.1)).getD (diePower s n).acct + w ∧ g ≤ ceilingW s n) ∧
    (∃ (n : Nat) (s : State), running s = true ∧ stackUp s n = true ∧ (diePower s n).rise = none) ∧
    (∃ (r : Req) (s : State), Reaches 0x0B01 r s ∧ argN r 0 ≤ tdp s.pkg.part) ∧
    (∃ (s : State), s.pkg.power ≠ 3) ∧
    (∃ (n : Nat) (s : State), s.pkg.power < 2 ∧ n < 12 ∧ stackUp s n = true ∧ kcThrottled s n = true ∧
      (diePower s n).capAt + 10000000 ≤ s.now) ∧
    (∃ (n : Nat) (s : State), s.pkg.power < 2 ∧ n < 12 ∧ stackUp s n = true ∧ kcThrottled s n = false ∧ (diePower s n).cap < 380 ∧
      (diePower s n).capAt + 10000000 ≤ s.now ∧ s.aon.inletTrip = false ∧ s.aon.vinTrip = false ∧ (mget s.pwr.cool {} 3).on = false) :=
  ⟨⟨0, ((targets kv).headD (0, 0)).2, kv, by decide +kernel⟩,
   ⟨11, kv, by decide +kernel⟩,
   ⟨0, 1, 140, setDiePower kv 0 { decrease := some (140, 1) }, by decide +kernel⟩,
   ⟨0, 0, _, kv, by decide +kernel, by decide +kernel, by decide +kernel, rfl, by decide +kernel⟩,
   ⟨0, kv, by decide +kernel⟩,
   ⟨rq [7200], kv, by decide +kernel⟩,
   ⟨kv, by decide +kernel⟩,
   ⟨11, setTherm kv (siteKC 11) { throttle := true }, by decide +kernel⟩,
   ⟨0, setDiePower kv 0 { cap := 140 }, by decide +kernel⟩⟩

theorem witness_HousekeepingRowsComplete :
    (∃ (r : Round) (s : State), s.pkg.power < 2 ∧ s.pkg.starting = false ∧ siteUp s siteKH = true ∧ s.mp2.ctrlDown.contains siteKH = false ∧
      (∀ x, mfind s.pwr.roundAt siteKH = some x → x + 1000000 ≤ s.now) ∧ (∀ x, x ∈ r.temps → x.all (fun v => decide (v < 1840)) = true)) ∧
    (∃ (site : Nat) (s : State), running s = true ∧ site < 0x40 ∧ (neighbours s site).all (coolFor s) = true ∧ identFails s site = none ∧
      (dieClk s (siteKC (site - 0x20))).stepped = true ∧ mfind s.rel.stackF (site - 0x20) = some 8 ∧ joined s (site - 0x20) 12 = true ∧
      mfind s.rel.tileF ((site - 0x20) / 3) = none) :=
  ⟨⟨{ temps := [some 1839, none], inlet := 480, outlet := 560, pFlow := 11000, power := 5000, draw := 700 }, kv, by decide +kernel⟩,
   ⟨0x20, { kv with pho := { bundles := [(11, { lit := true, st := 0 })] }, rel := { stackF := [(0, 8)] }, pwr := { therm := (0x44 :: (sitesOf 1)).map (fun n => (n, { coolSince := some 0 })) } },
     by decide +kernel⟩⟩

theorem witness_PowerRowsComplete :
    (∃ (s : State), s.aon.up = false) ∧
    (∃ (s : State), s.aon.up = true ∧ s.aon.inletTrip = false) ∧
    (∃ (s : State), s.aon.up = true ∧ s.pkg.power ≤ 3 ∧ s.pkg.power ≠ 2) ∧
    (∃ (s : State), s.aon.up = true ∧ s.aon.vinTrip = false) ∧
    (∃ (s : State), s.aon.vinTrip = true ∧ s.pkg.power < 2 ∧ s.aon.vinTripAt + 10000000 ≤ s.now) ∧
    (∃ (s : State), s.aon.up = true ∧ s.pkg.power < 2) ∧
    (∃ (s : State), s.aon.up = true ∧ s.pkg.power = 2) ∧
    (∃ (r : Req) (s : State), Reaches 0x0B00 r s ∧ TicketFree s ∧ s.pkg.transition = none ∧ s.pkg.power < 2 ∧ argN r 0 < 2) ∧
    (∃ (r : Req) (s : State), Reaches 0x0B00 r s ∧ TicketFree s ∧ s.pkg.transition = none ∧ s.pkg.power < 2 ∧ anyJob s = false ∧
      argN r 0 = 2) ∧
    (∃ (r : Req) (s : State), Reaches 0x0B00 r s ∧ TicketFree s ∧ s.pkg.transition = none ∧ s.pkg.power = 2 ∧ argN r 0 < 2) ∧
    (∃ (f : StartFind) (tk : Nat) (k : Nat) (s : State), s.pkg.transition = some (tk, k) ∧ s.pkg.power = 2 ∧ wakeHeld s = false ∧
      s.pkg.waitingPower = [] ∧ f.silent = []) :=
  ⟨⟨State.reset, by decide +kernel⟩,
   ⟨kv, by decide +kernel⟩,
   ⟨kv, by decide +kernel⟩,
   ⟨kv, by decide +kernel⟩,
   ⟨{ kv with aon := { up := true, vinTrip := true } }, by decide +kernel⟩,
   ⟨kv, by decide +kernel⟩,
   ⟨{ kv with pkg := { kv.pkg with power := 2 } }, by decide +kernel⟩,
   ⟨rq [1], kv, by decide +kernel⟩,
   ⟨rq [2], kv, by decide +kernel⟩,
   ⟨rq [1], { kv with pkg := { kv.pkg with power := 2 } }, by decide +kernel⟩,
   ⟨{}, 2 ^ 16, 0, { kv with pkg := { kv.pkg with power := 2, transition := some (2 ^ 16, 0) } }, by decide +kernel⟩⟩

theorem witness_StartAndRecoveryRowsComplete :
    (∃ (tm : Bool) (s : State), s.aon.up = true ∧ s.pkg.power = 3 ∧ (s.aon.holdOff = true ∨ tm = true)) ∧
    (∃ (f : StartFind) (s : State), s.aon.up = true ∧ s.pkg.power = 3 ∧ s.aon.holdOff = false ∧ f.flashGood = false) ∧
    (∃ (f : StartFind) (site : Nat) (n : Nat) (s : State), s.aon.up = true ∧ s.pkg.power = 3 ∧ s.aon.holdOff = false ∧ f.flashGood = true ∧
      f.sdImage = none ∧ hubFault s = some (site, n)) ∧
    (∃ (a1 : Bool) (a0 : Bool) (f : StartFind) (s : State) (s1 : State), s.aon.up = true ∧ s.pkg.power = 3 ∧ s.aon.holdOff = false ∧
      f.flashGood = true ∧ f.selfFail = false ∧ f.sdImage = none ∧ f.silent = [] ∧ (governing s).all (fun g => !g.2.rolling) = true ∧
      s1 = romBegins (strapped false a1 a0 s) ∧ hubFault s1 = none ∧ (∀ x, x ∈ sitesOf s1.pkg.part → identFails s1 x = none) ∧ (∀ b m,
      (romBank s1).1 = some (b, m) → m.rb ≤ rbCount s)) ∧
    (∃ (r : Req) (s : State), Reaches 0x0D00 r s ∧ s.pkg.recovery = true ∧ 0 < argN r 0 ∧ argN r 0 ≤ 50331648) ∧
    (∃ (r : Req) (len : Nat) (s : State), Reaches 0x0D01 r s ∧ s.pkg.recovery = true ∧ s.upd.rcvLen = some len ∧ 0 < argN r 1 ∧
      argN r 1 ≤ 44 ∧ argN r 0 + argN r 1 ≤ len) ∧
    (∃ (r : Req) (n : Nat) (img : List Byte) (s : State), Reaches 0x0D02 r s ∧ s.pkg.recovery = true ∧ r.chan = .pcie ∧
      s.hp.m2hFull = false ∧ s.pkg.flashBad = false ∧ s.upd.rcvLen = some n ∧
      img = (s.upd.rcvImage ++ List.replicate (n - s.upd.rcvImage.length) 0xFF#8).take n) ∧
    (∃ (r : Req) (f : StartFind) (img : List Byte) (s : State), Reaches 0x0D03 r s ∧ s.pkg.recovery = true ∧ r.chan = .pcie ∧
      s.hp.m2hFull = false ∧ s.pkg.flashBad = false ∧ f.sdImage = some img) :=
  ⟨⟨true, { kv with clk := State.reset.clk, mp := State.reset.mp, pkg := State.reset.pkg, pins := State.reset.pins, hl := State.reset.hl, aon := { up := true } },
    by decide +kernel⟩,
   ⟨{ flashGood := false },
     { kv with clk := State.reset.clk, mp := State.reset.mp, pkg := State.reset.pkg, pins := State.reset.pins, hl := State.reset.hl, aon := { up := true } },
     by decide +kernel⟩,
   ⟨{}, siteKH, 0, { State.reset with aon := { up := true }, fuses := { blocks := [(siteKH, 1)] } }, by decide +kernel⟩,
   ⟨true, false, {}, { kv with clk := State.reset.clk, mp := State.reset.mp, pkg := State.reset.pkg, pins := State.reset.pins, hl := State.reset.hl, aon := { up := true } },
     _, by decide +kernel, by decide +kernel, by decide +kernel, by decide +kernel, by decide +kernel, (by decide +kernel),
     by decide +kernel, by decide +kernel, rfl, by decide +kernel, by decide +kernel,
     by intro b m h; revert h; rw [show (romBank _).1 = none by decide +kernel]; exact nofun⟩,
   ⟨rq [50331648], { kv with pkg := { kv.pkg with recovery := true } }, by decide +kernel⟩,
   ⟨rq [0, 44, 1], 44, { kv with pkg := { kv.pkg with recovery := true }, upd := { rcvLen := some 44 } }, by decide +kernel⟩,
   ⟨rq [], 44, _, { kv with pkg := { kv.pkg with recovery := true }, upd := { rcvLen := some 44 } }, by decide +kernel, by decide +kernel,
     by decide +kernel, by decide +kernel, by decide +kernel, (by decide +kernel), rfl⟩,
   ⟨rq [], { sdImage := some [] }, [], { kv with pkg := { kv.pkg with recovery := true } }, by decide +kernel⟩⟩

theorem witness_UpdateRowsComplete :
    (∃ (r : Req) (s : State), Reaches 0x0C00 r s ∧ TicketFree s ∧ s.upd.activation = none ∧ s.mp2.drill = none ∧ updRefusal s = none) ∧
    (∃ (r : Req) (s : State), Reaches 0x0C01 r s ∧ TicketFree s ∧ s.upd.activation = none ∧ s.mp2.drill = none ∧ updRefusal s = none ∧
      s.upd.staged.isSome = true ∧ s.upd.log.length + 64 ≤ 4096) ∧
    (∃ (a : Activation) (u : Nat) (s : State), s.upd.activation = some a ∧ (a.unit.isSome = true ∨ updRefusal s = none) ∧
      u = a.unit.getD ((rollNext s a).getD 0x103)) ∧
    (∃ (r : Req) (s : State), Reaches 0x0C02 r s ∧ s.upd.activation = none) ∧
    (∃ (r : Req) (s : State), Reaches 0x0C03 r s ∧ TicketFree s ∧ attestSize s ≤ argN r 10 ∧
      inHbm s.pkg.part (addrArg r 8) (attestSize s) = true) :=
  ⟨⟨rq [], kv, by decide +kernel⟩,
   ⟨rq [], { kv with upd := { staged := some 2 } }, by decide +kernel⟩,
   ⟨{ ticket := 0, oldVersion := 1, newVersion := 2 }, _,
     { kv with upd := { activation := some { ticket := 0, oldVersion := 1, newVersion := 2 } } }, by decide +kernel, by decide +kernel,
     rfl⟩,
   ⟨rq [1], kv, by decide +kernel⟩,
   ⟨rq [0, 0, 0, 0, 0, 0, 0, 0, 0, 0, 0xFFFFFFFF], kv, by decide +kernel⟩⟩

theorem witness_ControlRowsComplete :
    (∃ (c : Nat) (w : BitVec 64) (s : State) (r : State), Issues c w .nop s r ∧ NotLast c r) ∧
    (∃ (c : Nat) (pt : Nat) (w : BitVec 64) (p : Part) (s : State) (r : State), Issues c w .endPlan s r ∧ coreParts r c = some pt ∧
      part r pt = some p ∧ p.plan = 2) ∧
    (∃ (c : Nat) (d : Nat) (w : BitVec 64) (s : State) (r : State), Issues c w (.rdcyc d) s r ∧ NotLast c r) ∧
    (∃ (c : Nat) (d : Nat) (w : BitVec 64) (s : State) (r : State), Issues c w (.rdgtc d) s r ∧ NotLast c r) ∧
    (∃ (c : Nat) (w : BitVec 64) (s : State) (r : State), Issues c w (.waitcyc 0) s r ∧ NotLast c r) ∧
    (∃ (c : Nat) (n : Nat) (w : BitVec 64) (s : State) (r : State), Issues c w (.waitcyc n) s r ∧ n ≠ 0) ∧
    (∃ (c : Nat) (n : Nat) (s : State), (coreAt s c).cond = .issuing ∧ (coreAt s c).wait = .cycles n ∧ NotLast c s) ∧
    (∃ (c : Nat) (w : BitVec 64) (off : Int) (s : State) (r : State), Issues c w (.br off) s r ∧ inSchedule (coreAt r c) off = true) ∧
    (∃ (c : Nat) (a : Nat) (w : BitVec 64) (off : Int) (s : State) (r : State), Issues c w (.beqz a off) s r ∧ getG r c a = 0 ∧
      inSchedule (coreAt r c) off = true) ∧
    (∃ (c : Nat) (a : Nat) (w : BitVec 64) (off : Int) (s : State) (r : State), Issues c w (.beqz a off) s r ∧ getG r c a ≠ 0 ∧
      NotLast c r) ∧
    (∃ (c : Nat) (a : Nat) (w : BitVec 64) (off : Int) (s : State) (r : State), Issues c w (.bnez a off) s r ∧ getG r c a ≠ 0 ∧
      inSchedule (coreAt r c) off = true) ∧
    (∃ (c : Nat) (a : Nat) (w : BitVec 64) (off : Int) (s : State) (r : State), Issues c w (.bnez a off) s r ∧ getG r c a = 0 ∧
      NotLast c r) ∧
    (∃ (c : Nat) (a : Nat) (w : BitVec 64) (off : Int) (s : State) (r : State), Issues c w (.loop a off) s r ∧ getG r c a ≠ 1 ∧
      inSchedule (coreAt r c) off = true) ∧
    (∃ (c : Nat) (a : Nat) (w : BitVec 64) (off : Int) (s : State) (r : State), Issues c w (.loop a off) s r ∧ getG r c a = 1 ∧
      NotLast c r) :=
  ⟨⟨0, gw 0 0 0 0 0 0 0, at0 (gw 0 0 0 0 0 0 0) {}, at0 (gw 0 0 0 0 0 0 0) {}, by decide +kernel⟩,
   ⟨0, 0, gw 0 1 0 0 0 0 0, pt0, at0 (gw 0 1 0 0 0 0 0) {}, at0 (gw 0 1 0 0 0 0 0) {}, by decide +kernel⟩,
   ⟨0, 31, gw 0 2 31 0 0 0 0, at0 (gw 0 2 31 0 0 0 0) {}, at0 (gw 0 2 31 0 0 0 0) {}, by decide +kernel⟩,
   ⟨0, 1, gw 0 3 1 0 0 0 0, at0 (gw 0 3 1 0 0 0 0) {}, at0 (gw 0 3 1 0 0 0 0) {}, by decide +kernel⟩,
   ⟨0, gw 0 4 0 0 0 0 0, at0 (gw 0 4 0 0 0 0 0) {}, at0 (gw 0 4 0 0 0 0 0) {}, by decide +kernel⟩,
   ⟨0, 65535, gw 0 4 0 0 0 0 65535, at0 (gw 0 4 0 0 0 0 65535) {}, at0 (gw 0 4 0 0 0 0 65535) {}, by decide +kernel⟩,
   ⟨0, 5, at0 0 { wait := .cycles 5 }, by decide +kernel⟩,
   ⟨0, gw 1 0 0 0 0 0 1, 1, at0 (gw 1 0 0 0 0 0 1) {}, at0 (gw 1 0 0 0 0 0 1) {}, by decide +kernel⟩,
   ⟨0, 1, gw 1 1 0 1 0 0 1, 1, at0 (gw 1 1 0 1 0 0 1) {}, at0 (gw 1 1 0 1 0 0 1) {}, by decide +kernel⟩,
   ⟨0, 1, gw 1 1 0 1 0 0 1, 1, at0 (gw 1 1 0 1 0 0 1) { ctx := { g := [(1, 1)] } }, at0 (gw 1 1 0 1 0 0 1) { ctx := { g := [(1, 1)] } },
     by decide +kernel⟩,
   ⟨0, 1, gw 1 2 0 1 0 0 0, 0, at0 (gw 1 2 0 1 0 0 0) { ctx := { g := [(1, 1)] } }, at0 (gw 1 2 0 1 0 0 0) { ctx := { g := [(1, 1)] } },
     by decide +kernel⟩,
   ⟨0, 1, gw 1 2 0 1 0 0 0, 0, at0 (gw 1 2 0 1 0 0 0) {}, at0 (gw 1 2 0 1 0 0 0) {}, by decide +kernel⟩,
   ⟨0, 1, gw 1 3 0 1 0 0 0, 0, at0 (gw 1 3 0 1 0 0 0) { ctx := { g := [(1, 2)] } }, at0 (gw 1 3 0 1 0 0 0) { ctx := { g := [(1, 2)] } },
     by decide +kernel⟩,
   ⟨0, 1, gw 1 3 0 1 0 0 0, 0, at0 (gw 1 3 0 1 0 0 0) { ctx := { g := [(1, 1)] } }, at0 (gw 1 3 0 1 0 0 0) { ctx := { g := [(1, 1)] } },
     by decide +kernel⟩⟩

theorem witness_ScalarRowsComplete :
    (∃ (c : Nat) (d : Nat) (a : Nat) (b : Nat) (x : Nat) (imm : Nat) (f : SaluFn) (w : BitVec 64) (s : State) (r : State),
      Issues c w (.salu f d a b x imm) s r ∧ NotLast c r) ∧
    (∃ (c : Nat) (d : Nat) (imm : Nat) (w : BitVec 64) (s : State) (r : State), Issues c w (.simm false d imm) s r ∧ NotLast c r) ∧
    (∃ (c : Nat) (d : Nat) (imm : Nat) (w : BitVec 64) (s : State) (r : State), Issues c w (.simm true d imm) s r ∧ NotLast c r) ∧
    (∃ (c : Nat) (d : Nat) (i : Nat) (w : BitVec 64) (s : State) (r : State), Issues c w (.csrr d i) s r ∧ NotLast c r) ∧
    (∃ (c : Nat) (a : Nat) (w : BitVec 64) (s : State) (r : State), Issues c w (.csrw a 2) s r ∧ NotLast c r) ∧
    (∃ (c : Nat) (a : Nat) (i : Nat) (w : BitVec 64) (s : State) (r : State), Issues c w (.csrw a i) s r ∧ i ≠ 2 ∧ NotLast c r) ∧
    (∃ (c : Nat) (d : Nat) (sem : Nat) (w : BitVec 64) (s : State) (r : State), Issues c w (.sread d sem) s r ∧ NotLast c r) ∧
    (∃ (c : Nat) (d : Nat) (slot : Nat) (w : BitVec 64) (s : State) (r : State), Issues c w (.bstat d slot) s r ∧ NotLast c r) :=
  ⟨⟨0, 3, 1, 2, 0, 0, SaluFn.add, gw 2 0 3 1 2 0 0, at0 (gw 2 0 3 1 2 0 0) {}, at0 (gw 2 0 3 1 2 0 0) {}, by decide +kernel⟩,
   ⟨0, 1, 7, gw 3 0 1 0 0 0 7, at0 (gw 3 0 1 0 0 0 7) {}, at0 (gw 3 0 1 0 0 0 7) {}, by decide +kernel⟩,
   ⟨0, 1, 7, gw 3 1 1 0 0 0 7, at0 (gw 3 1 1 0 0 0 7) {}, at0 (gw 3 1 1 0 0 0 7) {}, by decide +kernel⟩,
   ⟨0, 1, 5, gw 0x28 0 1 0 0 0 5, at0 (gw 0x28 0 1 0 0 0 5) {}, at0 (gw 0x28 0 1 0 0 0 5) {}, by decide +kernel⟩,
   ⟨0, 1, gw 0x28 1 0 1 0 0 2, at0 (gw 0x28 1 0 1 0 0 2) {}, at0 (gw 0x28 1 0 1 0 0 2) {}, by decide +kernel⟩,
   ⟨0, 1, 0, gw 0x28 1 0 1 0 0 0, at0 (gw 0x28 1 0 1 0 0 0) {}, at0 (gw 0x28 1 0 1 0 0 0) {}, by decide +kernel⟩,
   ⟨0, 1, 31, gw 0x20 4 1 0 0 0 31, at0 (gw 0x20 4 1 0 0 0 31) {}, at0 (gw 0x20 4 1 0 0 0 31) {}, by decide +kernel⟩,
   ⟨0, 1, 15, gw 0x21 4 1 0 0 0 15, at0 (gw 0x21 4 1 0 0 0 15) {}, at0 (gw 0x21 4 1 0 0 0 15) {}, by decide +kernel⟩⟩

theorem witness_TokenRowsComplete :
    (∃ (c : Nat) (d : Nat) (k : Nat) (v : BitVec 64) (w : BitVec 64) (s : State) (r : State), Issues c w (.waitt d k) s r ∧
      getTok r c k = .done v ∧ NotLast c r) ∧
    (∃ (c : Nat) (d : Nat) (k : Nat) (w : BitVec 64) (s : State) (r : State), Issues c w (.waitt d k) s r ∧ getTok r c k = .pending) ∧
    (∃ (c : Nat) (d : Nat) (k : Nat) (v : BitVec 64) (s : State), (coreAt s c).cond = .issuing ∧ (coreAt s c).wait = .waitt d k ∧
      getTok s c k = .done v ∧ NotLast c s) ∧
    (∃ (c : Nat) (d : Nat) (k : Nat) (v : BitVec 64) (w : BitVec 64) (s : State) (r : State), Issues c w (.tstat d k) s r ∧
      getTok r c k = .done v ∧ NotLast c r) ∧
    (∃ (c : Nat) (d : Nat) (k : Nat) (w : BitVec 64) (s : State) (r : State), Issues c w (.tstat d k) s r ∧ getTok r c k = .pending ∧
      NotLast c r) ∧
    (∃ (c : Nat) (w : BitVec 64) (s : State) (r : State), Issues c w .waitall s r ∧ anyPending (coreAt r c) = false ∧ NotLast c r) ∧
    (∃ (c : Nat) (w : BitVec 64) (s : State) (r : State), Issues c w .waitall s r ∧ anyPending (coreAt r c) = true) ∧
    (∃ (c : Nat) (s : State), (coreAt s c).cond = .issuing ∧ (coreAt s c).wait = .waitall ∧ anyPending (coreAt s c) = false ∧ NotLast c s) ∧
    (∃ (c : Nat) (w : BitVec 64) (s : State) (r : State), Issues c w .brk s r ∧ (coreAt r c).debugger = false ∧ NotLast c r) ∧
    (∃ (c : Nat) (w : BitVec 64) (s : State) (r : State), Issues c w .brk s r ∧ (coreAt r c).debugger = true) :=
  ⟨⟨0, 1, 31, 1, gw 0x22 0 1 0 0 0 31, at0 (gw 0x22 0 1 0 0 0 31) { tokens := [(31, .done 1)] },
    at0 (gw 0x22 0 1 0 0 0 31) { tokens := [(31, .done 1)] }, by decide +kernel⟩,
   ⟨0, 1, 31, gw 0x22 0 1 0 0 0 31, at0 (gw 0x22 0 1 0 0 0 31) { tokens := [(31, .pending)] },
     at0 (gw 0x22 0 1 0 0 0 31) { tokens := [(31, .pending)] }, by decide +kernel⟩,
   ⟨0, 1, 31, 1, at0 0 { tokens := [(31, .done 1)], wait := .waitt 1 31 }, by decide +kernel⟩,
   ⟨0, 1, 31, 1, gw 0x22 1 1 0 0 0 31, at0 (gw 0x22 1 1 0 0 0 31) { tokens := [(31, .done 1)] },
     at0 (gw 0x22 1 1 0 0 0 31) { tokens := [(31, .done 1)] }, by decide +kernel⟩,
   ⟨0, 1, 31, gw 0x22 1 1 0 0 0 31, at0 (gw 0x22 1 1 0 0 0 31) { tokens := [(31, .pending)] },
     at0 (gw 0x22 1 1 0 0 0 31) { tokens := [(31, .pending)] }, by decide +kernel⟩,
   ⟨0, gw 0x22 2 0 0 0 0 0, at0 (gw 0x22 2 0 0 0 0 0) {}, at0 (gw 0x22 2 0 0 0 0 0) {}, by decide +kernel⟩,
   ⟨0, gw 0x22 2 0 0 0 0 0, at0 (gw 0x22 2 0 0 0 0 0) { tokens := [(31, .pending)] },
     at0 (gw 0x22 2 0 0 0 0 0) { tokens := [(31, .pending)] }, by decide +kernel⟩,
   ⟨0, at0 0 { wait := .waitall }, by decide +kernel⟩,
   ⟨0, gw 0x3F 0 0 0 0 0 0, at0 (gw 0x3F 0 0 0 0 0 0) {}, at0 (gw 0x3F 0 0 0 0 0 0) {}, by decide +kernel⟩,
   ⟨0, gw 0x3F 0 0 0 0 0 0, at0 (gw 0x3F 0 0 0 0 0 0) { debugger := true }, at0 (gw 0x3F 0 0 0 0 0 0) { debugger := true },
     by decide +kernel⟩⟩

theorem witness_MemoryRowsComplete :
    (∃ (c : Nat) (n : Nat) (d : Nat) (a : Nat) (p : Nat) (off : Int) (w : BitVec 64) (e : Ecc) (s : State) (r : State),
      Issues c w (.slsLoad n d a off) s r ∧ NotLast c r ∧ p = effAddr (getG r c a) off ∧ scrFault (coreAt r c) n p n = none ∧
      badWords r.mem.m (scrBase c + p) n e.bad = []) ∧
    (∃ (c : Nat) (d : Nat) (a : Nat) (p : Nat) (off : Int) (w : BitVec 64) (e : Ecc) (s : State) (r : State),
      Issues c w (.vlsLd d a off) s r ∧ NotLast c r ∧ p = effAddr (getG r c a) off ∧ scrFault (coreAt r c) 64 p 256 = none ∧
      badWords r.mem.m (scrBase c + p) 256 e.bad = []) ∧
    (∃ (c : Nat) (n : Nat) (a : Nat) (b : Nat) (p : Nat) (off : Int) (w : BitVec 64) (e : Ecc) (s : State) (r : State),
      Issues c w (.slsStore n a b off) s r ∧ r.parts = s.parts ∧ NotLast c r ∧ p = effAddr (getG r c a) off ∧
      scrFault (coreAt r c) n p n = none ∧ (n ≠ 4 ∨ e.bad = [] ∧ isPoison r.mem.m (scrBase c + p) = false)) ∧
    (∃ (c : Nat) (a : Nat) (b : Nat) (p : Nat) (off : Int) (w : BitVec 64) (s : State) (r : State), Issues c w (.vlsSt a b off) s r ∧
      r.parts = s.parts ∧ NotLast c r ∧ p = effAddr (getG r c a) off ∧ scrFault (coreAt r c) 64 p 256 = none) ∧
    (∃ (c : Nat) (n : Nat) (d : Nat) (a : Nat) (p : Nat) (off : Int) (w : BitVec 64) (s : State) (r : State),
      Issues c w (.scmLoad n d a off) s r ∧ NotLast c r ∧ p = effAddr (getG r c a) off ∧ rangeFault cmSize n p n = none) ∧
    (∃ (c : Nat) (d : Nat) (a : Nat) (p : Nat) (off : Int) (w : BitVec 64) (s : State) (r : State), Issues c w (.vcmLd d a off) s r ∧
      NotLast c r ∧ p = effAddr (getG r c a) off ∧ rangeFault cmSize 64 p 256 = none) ∧
    (∃ (c : Nat) (n : Nat) (a : Nat) (b : Nat) (p : Nat) (off : Int) (w : BitVec 64) (s : State) (r : State),
      Issues c w (.scmStore n a b off) s r ∧ NotLast c r ∧ p = effAddr (getG r c a) off ∧ rangeFault cmSize n p n = none) ∧
    (∃ (c : Nat) (a : Nat) (b : Nat) (p : Nat) (off : Int) (w : BitVec 64) (s : State) (r : State), Issues c w (.vcmSt a b off) s r ∧
      NotLast c r ∧ p = effAddr (getG r c a) off ∧ rangeFault cmSize 64 p 256 = none) :=
  ⟨⟨0, 8, 1, 2, _, 8, gw 4 0 1 2 0 0 8, {}, at0 (gw 4 0 1 2 0 0 8) {}, at0 (gw 4 0 1 2 0 0 8) {}, by decide +kernel, by decide +kernel, rfl,
    by decide +kernel⟩,
   ⟨0, 1, 2, _, 0, gw 0xC 0 1 2 0 0 0, {}, at0 (gw 0xC 0 1 2 0 0 0) {}, at0 (gw 0xC 0 1 2 0 0 0) {}, by decide +kernel, by decide +kernel,
     rfl, by decide +kernel⟩,
   ⟨0, 4, 2, 1, _, 4, gw 4 3 0 2 1 0 4, {}, at0 (gw 4 3 0 2 1 0 4) {}, at0 (gw 4 3 0 2 1 0 4) {}, by decide +kernel, by decide +kernel,
     by decide +kernel, rfl, by decide +kernel⟩,
   ⟨0, 2, 1, _, 0, gw 0xC 1 0 2 1 0 0, at0 (gw 0xC 1 0 2 1 0 0) {}, at0 (gw 0xC 1 0 2 1 0 0) {}, by decide +kernel, by decide +kernel,
     by decide +kernel, rfl, by decide +kernel⟩,
   ⟨0, 8, 1, 2, _, 16777208, gw 5 0 1 2 0 0 16777208, at0 (gw 5 0 1 2 0 0 16777208) {}, at0 (gw 5 0 1 2 0 0 16777208) {}, by decide +kernel,
     by decide +kernel, rfl, by decide +kernel⟩,
   ⟨0, 1, 2, _, 0, gw 0xE 0 1 2 0 0 0, at0 (gw 0xE 0 1 2 0 0 0) {}, at0 (gw 0xE 0 1 2 0 0 0) {}, by decide +kernel, by decide +kernel, rfl,
     by decide +kernel⟩,
   ⟨0, 8, 2, 1, _, 0, gw 5 1 0 2 1 0 0, at0 (gw 5 1 0 2 1 0 0) {}, at0 (gw 5 1 0 2 1 0 0) {}, by decide +kernel, by decide +kernel, rfl,
     by decide +kernel⟩,
   ⟨0, 2, 1, _, 0, gw 0xE 1 0 2 1 0 0, at0 (gw 0xE 1 0 2 1 0 0) {}, at0 (gw 0xE 1 0 2 1 0 0) {}, by decide +kernel, by decide +kernel, rfl,
     by decide +kernel⟩⟩

theorem witness_VectorRowsComplete :
    (∃ (c : Nat) (d : Nat) (a : Nat) (b : Nat) (x : Nat) (fn : VfFn) (rz : Bool) (w : BitVec 64) (s : State) (r : State),
      Issues c w (.vf false fn rz d a b x) s r ∧ fn ≠ .bcast ∧ NotLast c r) ∧
    (∃ (c : Nat) (d : Nat) (a : Nat) (b : Nat) (x : Nat) (w : BitVec 64) (s : State) (r : State),
      Issues c w (.vf false .bcast false d a b x) s r ∧ NotLast c r) ∧
    (∃ (c : Nat) (d : Nat) (a : Nat) (b : Nat) (x : Nat) (fn : VfFn) (rz : Bool) (w : BitVec 64) (s : State) (r : State),
      Issues c w (.vf true fn rz d a b x) s r ∧ fn ≠ .bcast ∧ NotLast c r) ∧
    (∃ (c : Nat) (d : Nat) (a : Nat) (b : Nat) (x : Nat) (w : BitVec 64) (s : State) (r : State),
      Issues c w (.vf true .bcast false d a b x) s r ∧ NotLast c r) ∧
    (∃ (c : Nat) (wd : Nat) (d : Nat) (a : Nat) (b : Nat) (sh : Nat) (fn : VintFn) (w : BitVec 64) (s : State) (r : State) (va : BitVec 2048) (l : List (Nat × Nat)),
      Issues c w (.vint fn wd d a b sh) s r ∧ NotLast c r ∧
      va = (if fn = .bcast then packLanes wd (List.replicate (2048 / wd) (getG r c a).toNat) else getV r c a) ∧
      l = (List.range (2048 / wd)).map (fun i => vintLane fn wd sh (bitsN va.toNat (wd * i) wd) (bitsN (getV r c b).toNat (wd * i) wd))) ∧
    (∃ (c : Nat) (sg : Nat) (dg : Nat) (d : Nat) (a : Nat) (n : Nat) (rd : Rnd) (src : Fm) (dst : Fm) (w : BitVec 64) (s : State) (r : State) (l : List (Nat × Nat)),
      Issues c w (.cvt rd src dst sg dg d a) s r ∧ NotLast c r ∧ (n = (if src = .fp64 ∨ dst = .fp64 then 32 else 64)) ∧
      l = ((elems (getV r c a) (fmWidth src) (sg * n) n).zip (takeDraws c rd n r).1).map (fun p => convert dst rd p.2 (valueOf src p.1))) ∧
    (∃ (c : Nat) (dg : Nat) (d : Nat) (a : Nat) (x : Nat) (rd : Rnd) (dst : Fm) (w : BitVec 64) (s : State) (r : State) (vs : List (Fv × Nat)) (b0 : List (Nat × Nat) × Nat) (b1 : List (Nat × Nat) × Nat),
      Issues c w (.block rd dst dg d a x) s r ∧ NotLast c r ∧
      vs = ((elems (getV r c a) 32 0 64).map (valueOf .fp32)).zip (takeDraws c rd 64 r).1 ∧ b0 = blockConv dst rd (vs.take 32) ∧
      b1 = blockConv dst rd (vs.drop 32)) ∧
    (∃ (c : Nat) (d : Nat) (a : Nat) (fn : RedFn) (dbl : Bool) (rz : Bool) (w : BitVec 64) (s : State) (r : State) (f : Fm) (v : Nat × Nat),
      Issues c w (.vred fn dbl rz d a) s r ∧ NotLast c r ∧ f = (if dbl then Fm.fp64 else Fm.fp32) ∧
      v = redTree f fn rz (if dbl then 5 else 6) (lanesOf (fmWidth f) (getV r c a)) 0) :=
  ⟨⟨0, 1, 2, 3, 0, VfFn.add, true, gw 8 0x20 1 2 3 0 0, at0 (gw 8 0x20 1 2 3 0 0) {}, at0 (gw 8 0x20 1 2 3 0 0) {}, by decide +kernel⟩,
   ⟨0, 1, 2, 0, 0, gw 8 15 1 2 0 0 0, at0 (gw 8 15 1 2 0 0 0) {}, at0 (gw 8 15 1 2 0 0 0) {}, by decide +kernel⟩,
   ⟨0, 1, 2, 3, 0, VfFn.add, false, gw 9 0 1 2 3 0 0, at0 (gw 9 0 1 2 3 0 0) {}, at0 (gw 9 0 1 2 3 0 0) {}, by decide +kernel⟩,
   ⟨0, 1, 2, 0, 0, gw 9 15 1 2 0 0 0, at0 (gw 9 15 1 2 0 0 0) {}, at0 (gw 9 15 1 2 0 0 0) {}, by decide +kernel⟩,
   ⟨0, 64, 1, 2, 3, 0, VintFn.add, gw 0xA 0x30 1 2 3 0 0, at0 (gw 0xA 0x30 1 2 3 0 0) {}, at0 (gw 0xA 0x30 1 2 3 0 0) {}, _, _,
     by decide +kernel, by decide +kernel, rfl, rfl⟩,
   ⟨0, 0, 0, 1, 2, _, Rnd.near, Fm.fp32, Fm.bf16, gw 0xB 0 1 2 0 0 (1 + 16 * 3), at0 (gw 0xB 0 1 2 0 0 (1 + 16 * 3)) {},
     at0 (gw 0xB 0 1 2 0 0 (1 + 16 * 3)) {}, _, by decide +kernel, by decide +kernel, rfl, rfl⟩,
   ⟨0, 0, 1, 2, 3, Rnd.near, Fm.e4m3, gw 0xB 1 1 2 0 3 (1 + 16 * 5), at0 (gw 0xB 1 1 2 0 3 (1 + 16 * 5)) {},
     at0 (gw 0xB 1 1 2 0 3 (1 + 16 * 5)) {}, _, _, _, by decide +kernel, by decide +kernel, rfl, rfl, rfl⟩,
   ⟨0, 1, 2, RedFn.sum, true, false, gw 0xD 3 1 2 0 0 0, at0 (gw 0xD 3 1 2 0 0 0) {}, at0 (gw 0xD 3 1 2 0 0 0) {}, _, _, by decide +kernel,
     by decide +kernel, rfl, rfl⟩⟩

theorem witness_TensorRowsComplete :
    (∃ (c : Nat) (t0 : Nat) (int : Bool) (w : BitVec 64) (e : Ecc) (s : State) (r : State) (y : State), Issues c w (.tzero int t0) s r ∧
      y = awaitTile c t0 e (issued c (.tzero int t0) r) ∧ stillRuns y c = true ∧ NotLast c y) ∧
    (∃ (c : Nat) (td : Nat) (ga : Nat) (gb : Nat) (nch : Nat) (fa : Fm) (fb : Fm) (mxa : Bool) (mxb : Bool) (acc : Bool) (x : TOp) (w : BitVec 64) (s : State) (r : State),
      Issues c w (.tmma td fa fb ga gb nch mxa mxb acc) s r ∧
      x = { slice := false, td := td, fmtA := fmId fa, fmtB := fmId fb, a := (getG r c ga).toNat, b := (getG r c gb).toNat, nch := nch, mxa := mxa, mxb := mxb, acc := acc } ∧
      tensorFault (coreAt r c) x = none ∧ (coreAt r c).queue.length < 5 ∧ NotLast c r) ∧
    (∃ (c : Nat) (td : Nat) (ga : Nat) (gb : Nat) (nch : Nat) (fa : Fm) (fb : Fm) (mxa : Bool) (mxb : Bool) (acc : Bool) (x : TOp) (w : BitVec 64) (s : State) (r : State),
      Issues c w (.tmma td fa fb ga gb nch mxa mxb acc) s r ∧
      x = { slice := false, td := td, fmtA := fmId fa, fmtB := fmId fb, a := (getG r c ga).toNat, b := (getG r c gb).toNat, nch := nch, mxa := mxa, mxb := mxb, acc := acc } ∧
      tensorFault (coreAt r c) x = none ∧ 5 ≤ (coreAt r c).queue.length) ∧
    (∃ (c : Nat) (td : Nat) (shift : Nat) (ga : Nat) (gb : Nat) (nch : Nat) (ua : Bool) (ub : Bool) (acc : Bool) (x : TOp) (w : BitVec 64) (s : State) (r : State),
      Issues c w (.tslice td shift ua ub ga gb nch acc) s r ∧
      x = { slice := true, td := td, a := (getG r c ga).toNat, b := (getG r c gb).toNat, nch := nch, acc := acc, shift := shift, ua := ua, ub := ub } ∧
      tensorFault (coreAt r c) x = none ∧ (coreAt r c).queue.length < 5 ∧ NotLast c r) ∧
    (∃ (c : Nat) (td : Nat) (shift : Nat) (ga : Nat) (gb : Nat) (nch : Nat) (ua : Bool) (ub : Bool) (acc : Bool) (x : TOp) (w : BitVec 64) (s : State) (r : State),
      Issues c w (.tslice td shift ua ub ga gb nch acc) s r ∧
      x = { slice := true, td := td, a := (getG r c ga).toNat, b := (getG r c gb).toNat, nch := nch, acc := acc, shift := shift, ua := ua, ub := ub } ∧
      tensorFault (coreAt r c) x = none ∧ 5 ≤ (coreAt r c).queue.length) ∧
    (∃ (c : Nat) (ts : Nat) (gd : Nat) (a : Nat) (f : Option (Fm × Rnd)) (zero : Bool) (w : BitVec 64) (e : Ecc) (s : State) (r : State) (y : State) (x : Tile) (n : Nat) (o : List Byte × Nat),
      Issues c w (.tstore ts gd f zero) s r ∧ y = awaitTile c ts e (issued c (.tstore ts gd f zero) r) ∧ stillRuns y c = true ∧ NotLast c y ∧
      y.parts = s.parts ∧ x = getTile y c ts ∧ a = (getG y c gd).toNat ∧
      o = storeBytes x f (takeDraws c ((f.map (·.2)).getD .near) 128 y).1 ∧
      n = (match f with | none => if x.int then 1024 else 2048 | some q => 128 * fmWidth q.1 / 8) ∧ scrFault (coreAt y c) 64 a n = none ∧
      (f.isSome && x.int) = false) ∧
    (∃ (c : Nat) (e : Ecc) (x : TOp) (rest : List TOp) (s : State) (o : List (BitVec 128) × Nat), (coreAt s c).queue = x :: rest ∧
      (coreAt s c).wait = .none ∧
      badWords s.mem.m (scrBase c + x.a) (operandBytes (fmD x.fmtA) 16 x.nch x.mxa) (badIn e x.a (operandBytes (fmD x.fmtA) 16 x.nch x.mxa)) = [] ∧
      badWords s.mem.m (scrBase c + x.b) (operandBytes (fmD x.fmtB) 8 x.nch x.mxb) (badIn e x.b (operandBytes (fmD x.fmtB) 8 x.nch x.mxb)) = [] ∧
      o = (if x.slice then tsliceEls s.mem.m c x (tileEls (getTile s c x.td)) else tmmaEls s.mem.m c x (tileEls (getTile s c x.td)))) ∧
    (∃ (c : Nat) (f : Nat) (t0 : Nat) (rest : List (Nat × Nat)) (s : State), (coreAt s c).unready = (t0, f) :: rest) :=
  ⟨⟨0, 7, false, gw 0x10 0 0 0 0 0 7, {}, at0 (gw 0x10 0 0 0 0 0 7) {}, at0 (gw 0x10 0 0 0 0 0 7) {}, _, by decide +kernel, rfl,
    by decide +kernel⟩,
   ⟨0, 7, 1, 2, 0, Fm.bf16, Fm.fp16, false, false, true,
     { slice := false, td := 7, fmtA := 3, fmtB := 4, a := 0, b := 1024, nch := 0, acc := true },
     BitVec.ofNat 64 (17 * 2 ^ 58 + 7 * 2 ^ 55 + 3 * 2 ^ 51 + 4 * 2 ^ 47 + 1 * 2 ^ 42 + 2 * 2 ^ 37 + 1 * 2 ^ 26),
     at0 (BitVec.ofNat 64 (17 * 2 ^ 58 + 7 * 2 ^ 55 + 3 * 2 ^ 51 + 4 * 2 ^ 47 + 1 * 2 ^ 42 + 2 * 2 ^ 37 + 1 * 2 ^ 26)) { ctx := { g := [(2, 1024)] } },
     at0 (BitVec.ofNat 64 (17 * 2 ^ 58 + 7 * 2 ^ 55 + 3 * 2 ^ 51 + 4 * 2 ^ 47 + 1 * 2 ^ 42 + 2 * 2 ^ 37 + 1 * 2 ^ 26)) { ctx := { g := [(2, 1024)] } },
     by decide +kernel⟩,
   ⟨0, 7, 1, 2, 0, Fm.bf16, Fm.fp16, false, false, true,
     { slice := false, td := 7, fmtA := 3, fmtB := 4, a := 0, b := 1024, nch := 0, acc := true },
     BitVec.ofNat 64 (17 * 2 ^ 58 + 7 * 2 ^ 55 + 3 * 2 ^ 51 + 4 * 2 ^ 47 + 1 * 2 ^ 42 + 2 * 2 ^ 37 + 1 * 2 ^ 26),
     at0 (BitVec.ofNat 64 (17 * 2 ^ 58 + 7 * 2 ^ 55 + 3 * 2 ^ 51 + 4 * 2 ^ 47 + 1 * 2 ^ 42 + 2 * 2 ^ 37 + 1 * 2 ^ 26)) { ctx := { g := [(2, 1024)] }, queue := List.replicate 5 { slice := false, td := 7, fmtA := 3, fmtB := 4, a := 0, b := 1024, nch := 0, acc := true } },
     at0 (BitVec.ofNat 64 (17 * 2 ^ 58 + 7 * 2 ^ 55 + 3 * 2 ^ 51 + 4 * 2 ^ 47 + 1 * 2 ^ 42 + 2 * 2 ^ 37 + 1 * 2 ^ 26)) { ctx := { g := [(2, 1024)] }, queue := List.replicate 5 { slice := false, td := 7, fmtA := 3, fmtB := 4, a := 0, b := 1024, nch := 0, acc := true } },
     by decide +kernel⟩,
   ⟨0, 7, 63, 1, 2, 0, true, false, true, { slice := true, td := 7, a := 0, b := 512, nch := 0, acc := true, shift := 63, ua := true },
     BitVec.ofNat 64 (18 * 2 ^ 58 + 7 * 2 ^ 55 + 63 * 2 ^ 49 + 1 * 2 ^ 48 + 1 * 2 ^ 42 + 2 * 2 ^ 37 + 1 * 2 ^ 26),
     at0 (BitVec.ofNat 64 (18 * 2 ^ 58 + 7 * 2 ^ 55 + 63 * 2 ^ 49 + 1 * 2 ^ 48 + 1 * 2 ^ 42 + 2 * 2 ^ 37 + 1 * 2 ^ 26)) { ctx := { g := [(2, 512)], tiles := [(7, { int := true })] } },
     at0 (BitVec.ofNat 64 (18 * 2 ^ 58 + 7 * 2 ^ 55 + 63 * 2 ^ 49 + 1 * 2 ^ 48 + 1 * 2 ^ 42 + 2 * 2 ^ 37 + 1 * 2 ^ 26)) { ctx := { g := [(2, 512)], tiles := [(7, { int := true })] } },
     by decide +kernel⟩,
   ⟨0, 7, 63, 1, 2, 0, true, false, true, { slice := true, td := 7, a := 0, b := 512, nch := 0, acc := true, shift := 63, ua := true },
     BitVec.ofNat 64 (18 * 2 ^ 58 + 7 * 2 ^ 55 + 63 * 2 ^ 49 + 1 * 2 ^ 48 + 1 * 2 ^ 42 + 2 * 2 ^ 37 + 1 * 2 ^ 26),
     at0 (BitVec.ofNat 64 (18 * 2 ^ 58 + 7 * 2 ^ 55 + 63 * 2 ^ 49 + 1 * 2 ^ 48 + 1 * 2 ^ 42 + 2 * 2 ^ 37 + 1 * 2 ^ 26)) { ctx := { g := [(2, 512)], tiles := [(7, { int := true })] }, queue := List.replicate 5 { slice := true, td := 7, a := 0, b := 512, nch := 0, acc := true, shift := 63, ua := true } },
     at0 (BitVec.ofNat 64 (18 * 2 ^ 58 + 7 * 2 ^ 55 + 63 * 2 ^ 49 + 1 * 2 ^ 48 + 1 * 2 ^ 42 + 2 * 2 ^ 37 + 1 * 2 ^ 26)) { ctx := { g := [(2, 512)], tiles := [(7, { int := true })] }, queue := List.replicate 5 { slice := true, td := 7, a := 0, b := 512, nch := 0, acc := true, shift := 63, ua := true } },
     by decide +kernel⟩,
   ⟨0, 7, 1, _, none, false, BitVec.ofNat 64 (19 * 2 ^ 58 + 7 * 2 ^ 55 + 1 * 2 ^ 47 + 1 * 2 ^ 42), {},
     at0 (BitVec.ofNat 64 (19 * 2 ^ 58 + 7 * 2 ^ 55 + 1 * 2 ^ 47 + 1 * 2 ^ 42)) {},
     at0 (BitVec.ofNat 64 (19 * 2 ^ 58 + 7 * 2 ^ 55 + 1 * 2 ^ 47 + 1 * 2 ^ 42)) {}, _, _, _, _, by decide +kernel, rfl, by decide +kernel,
     by decide +kernel, by decide +kernel, rfl, rfl, rfl, rfl, by decide +kernel⟩,
   ⟨0, {}, { slice := false, td := 7, fmtA := 3, fmtB := 4, a := 0, b := 1024, nch := 0, acc := true },
     [{ slice := true, td := 7, a := 0, b := 512, nch := 0, acc := true, shift := 63, ua := true }],
     at0 0 { queue := [{ slice := false, td := 7, fmtA := 3, fmtB := 4, a := 0, b := 1024, nch := 0, acc := true }, { slice := true, td := 7, a := 0, b := 512, nch := 0, acc := true, shift := 63, ua := true }] },
     _, by decide +kernel, by decide +kernel, by decide +kernel, by decide +kernel, rfl⟩,
   ⟨0, 1, 7, [], at0 0 { unready := [(7, 1)] }, by decide +kernel⟩⟩

theorem witness_TransferRowsComplete :
    (∃ (c : Nat) (tok : Nat) (gs : Nat) (gv : Nat) (gl : Nat) (toSlice : Bool) (sem : Option Nat) (w : BitVec 64) (s : State) (r : State),
      Issues c w (.vcx toSlice tok gs gv gl sem) s r ∧ NotLast c r ∧
      xferFault r c 128 tok (getG r c gs).toNat (getG r c gv).toNat (getG r c gl).toNat (some (2 ^ 21)) = none) ∧
    (∃ (c : Nat) (tok : Nat) (gs : Nat) (ga : Nat) (gl : Nat) (toFar : Bool) (sem : Option Nat) (x : Xfer) (w : BitVec 64) (s : State) (r : State),
      Issues c w (.hmx toFar tok gs ga gl sem) s r ∧ NotLast c r ∧
      xferFault r c 64 tok (getG r c gs).toNat (getG r c ga).toNat (getG r c gl).toNat none = none ∧
      x = { toScr := !toFar, tok := tok, scr := (getG r c gs).toNat, far := (getG r c ga).toNat, len := (getG r c gl).toNat, sem := sem }) ∧
    (∃ (c : Nat) (src : Nat) (dst : Nat) (e : Ecc) (x : Xfer) (rest : List Xfer) (s : State), (coreAt s c).vcx = x :: rest ∧
      (mget s.mem.vcs {} (physOf s c)).testing = false ∧ src = (if x.toScr then slBase c + x.far else scrBase c + x.scr) ∧
      dst = (if x.toScr then scrBase c + x.scr else slBase c + x.far) ∧ badWords s.mem.m src x.len e.bad = []) ∧
    (∃ (c : Nat) (e : Ecc) (x : Xfer) (rest : List Xfer) (s : State), (coreAt s c).vcx = x :: rest ∧
      (mget s.mem.vcs {} (physOf s c)).testing = false ∧ x.sem.all (fun n => decide (getSem s c n < 65535)) = true ∧
      badWords s.mem.m (if x.toScr then slBase c + x.far else scrBase c + x.scr) x.len e.bad = []) ∧
    (∃ (c : Nat) (tok : Nat) (x : Xfer) (p : Part) (s : State), (coreAt s c).hmx.find? (fun x => x.tok == tok) = some x ∧
      (coreParts s c).bind (part s) = some p) ∧
    (∃ (c : Nat) (tok : Nat) (x : Xfer) (p : Part) (s : State), (coreAt s c).hmx.find? (fun x => x.tok == tok) = some x ∧
      (coreParts s c).bind (part s) = some p ∧ x.toScr = true ∧ (∀ i, i < x.len / 64 → mfind x.got i = some 1)) ∧
    (∃ (c : Nat) (tok : Nat) (e : Ecc) (fs : List LineFind) (x : Xfer) (p : Part) (bs : List Byte) (bad : List Nat) (s : State) (y : State) (z : State),
      (coreAt s c).hmx.find? (fun x => x.tok == tok) = some x ∧ (coreParts s c).bind (part s) = some p ∧ x.toScr = true ∧ x.len = 64 ∧
      x.got = [] ∧ x.sem.all (fun n => decide (getSem s c n < 65535)) = true ∧
      y = setCore s c { coreAt s c with hmx := (coreAt s c).hmx.filter (fun y => y.tok != tok) } ∧ reaches y p false x.far = true ∧
      (epOfAddr y x.far = coreStack c ∨ reachesEp y (coreStack c) (epOfAddr y x.far) = true) ∧
      readDpaQ x.far fs (if dpaOf y.pkg.part x.far == .hbm then {} else eccOf e x.far x.far) y = (.data bs, bad, z)) ∧
    (∃ (c : Nat) (queue : Nat) (tok : Nat) (gs : Nat) (a : Nat) (sem : Option Nat) (hub : Bool) (w : BitVec 64) (e : Ecc) (s : State) (r : State),
      Issues c w (.dpost queue tok gs sem hub) s r ∧ a = (getG r c gs).toNat ∧ scrFault (coreAt r c) 64 a 64 = none ∧
      getTok r c tok = .free ∧ badWords r.mem.m (scrBase c + a) 64 e.bad = []) ∧
    (∃ (c : Nat) (d : DPostOp) (s : State) (r : State) (y : State), (coreAt s c).wait = .dpost d ∧ r = pastReach c d s ∧
      acceptPost c d r = some y ∧ (coreAt s c).cond = .issuing ∧ NotLast c s) ∧
    (∃ (c : Nat) (d : DPostOp) (s : State) (r : State) (y : State), (coreAt s c).wait = .dpost d ∧ r = pastReach c d s ∧
      acceptPost c d r = some y ∧ (coreAt s c).cond ≠ .issuing) ∧
    (∃ (c : Nat) (d : DPostOp) (s : State) (r : State) (y : State), (coreAt s c).wait = .dpost d ∧ r = pastReach c d s ∧
      acceptPost c d r = some y ∧ d.hub = false) ∧
    (∃ (st : Nat) (h : Nat) (x : Handle) (v : BitVec 64) (s : State), mfind (dieEng s st).handles h = some x ∧ x.comp = some v) :=
  ⟨⟨0, 31, 1, 2, 3, true, some 31,
    BitVec.ofNat 64 (24 * 2 ^ 58 + 1 * 2 ^ 57 + 31 * 2 ^ 52 + 1 * 2 ^ 47 + 2 * 2 ^ 42 + 3 * 2 ^ 37 + 31 * 2 ^ 31),
    at0 (BitVec.ofNat 64 (24 * 2 ^ 58 + 1 * 2 ^ 57 + 31 * 2 ^ 52 + 1 * 2 ^ 47 + 2 * 2 ^ 42 + 3 * 2 ^ 37 + 31 * 2 ^ 31)) { ctx := { g := [(3, 128)] } },
    at0 (BitVec.ofNat 64 (24 * 2 ^ 58 + 1 * 2 ^ 57 + 31 * 2 ^ 52 + 1 * 2 ^ 47 + 2 * 2 ^ 42 + 3 * 2 ^ 37 + 31 * 2 ^ 31)) { ctx := { g := [(3, 128)] } },
    by decide +kernel⟩,
   ⟨0, 31, 1, 2, 3, true, some 31, _,
     BitVec.ofNat 64 (26 * 2 ^ 58 + 1 * 2 ^ 57 + 31 * 2 ^ 52 + 1 * 2 ^ 47 + 2 * 2 ^ 42 + 3 * 2 ^ 37 + 31 * 2 ^ 31),
     at0 (BitVec.ofNat 64 (26 * 2 ^ 58 + 1 * 2 ^ 57 + 31 * 2 ^ 52 + 1 * 2 ^ 47 + 2 * 2 ^ 42 + 3 * 2 ^ 37 + 31 * 2 ^ 31)) { ctx := { g := [(3, 64)] } },
     at0 (BitVec.ofNat 64 (26 * 2 ^ 58 + 1 * 2 ^ 57 + 31 * 2 ^ 52 + 1 * 2 ^ 47 + 2 * 2 ^ 42 + 3 * 2 ^ 37 + 31 * 2 ^ 31)) { ctx := { g := [(3, 64)] } },
     by decide +kernel, by decide +kernel, by decide +kernel, rfl⟩,
   ⟨0, _, _, {}, xf0, [], at0 0 { vcx := [xf0], tokens := [(31, .pending)] }, by decide +kernel, by decide +kernel, rfl, rfl,
     by decide +kernel⟩,
   ⟨0, {}, { xf0 with toScr := false }, [], at0 0 { vcx := [{ xf0 with toScr := false }], tokens := [(31, .pending)] }, by decide +kernel⟩,
   ⟨0, 31, xf0, pt0, at0 0 { hmx := [xf0], tokens := [(31, .pending)] }, by decide +kernel⟩,
   ⟨0, 31, { xf0 with len := 64, got := [(0, 1)] }, pt0,
     at0 0 { hmx := [{ xf0 with len := 64, got := [(0, 1)] }], tokens := [(31, .pending)] }, by decide +kernel⟩,
   ⟨0, 31, {}, [], { xf0 with far := cmBase 0, len := 64 }, pt0, List.replicate 64 0, [],
     at0 0 { hmx := [{ xf0 with far := cmBase 0, len := 64 }], tokens := [(31, .pending)] }, _,
     (readDpaQ (cmBase 0) [] {} (setCore (at0 0) 0 { coreAt (at0 0) 0 with tokens := [(31, .pending)] })).2.2, by decide +kernel,
     by decide +kernel, by decide +kernel, by decide +kernel, by decide +kernel, (by decide +kernel), rfl, by decide +kernel⟩,
   ⟨0, 15, 31, 1, _, some 31, false, BitVec.ofNat 64 (28 * 2 ^ 58 + 15 * 2 ^ 54 + 31 * 2 ^ 49 + 1 * 2 ^ 44 + 31 * 2 ^ 38), {},
     at0 (BitVec.ofNat 64 (28 * 2 ^ 58 + 15 * 2 ^ 54 + 31 * 2 ^ 49 + 1 * 2 ^ 44 + 31 * 2 ^ 38)) {},
     at0 (BitVec.ofNat 64 (28 * 2 ^ 58 + 15 * 2 ^ 54 + 31 * 2 ^ 49 + 1 * 2 ^ 44 + 31 * 2 ^ 38)) {}, by decide +kernel, rfl,
     by decide +kernel⟩,
   ⟨0, { tok := 31, sem := none, hub := false, queue := 15, desc := [] },
     at0 0 { wait := .dpost { tok := 31, sem := none, hub := false, queue := 15, desc := [] } }, _,
     ((acceptPost 0 ({ tok := 31, sem := none, hub := false, queue := 15, desc := [] } : DPostOp) ((pastReach 0 ({ tok := 31, sem := none, hub := false, queue := 15, desc := [] } : DPostOp) (at0 0 { wait := .dpost { tok := 31, sem := none, hub := false, queue := 15, desc := [] } } : State)) : State)).getD kv),
     by decide +kernel, rfl, by decide +kernel⟩,
   ⟨0, { tok := 31, sem := none, hub := false, queue := 15, desc := [] },
     setCore (at0 0) 0 { cond := .stopped, wait := .dpost { tok := 31, sem := none, hub := false, queue := 15, desc := [] } }, _,
     ((acceptPost 0 ({ tok := 31, sem := none, hub := false, queue := 15, desc := [] } : DPostOp) ((pastReach 0 ({ tok := 31, sem := none, hub := false, queue := 15, desc := [] } : DPostOp) (setCore (at0 0) 0 { cond := .stopped, wait := .dpost { tok := 31, sem := none, hub := false, queue := 15, desc := [] } } : State)) : State)).getD kv),
     by decide +kernel, rfl, by decide +kernel⟩,
   ⟨0, { tok := 31, sem := none, hub := false, queue := 15, desc := [] },
     at0 0 { wait := .dpost { tok := 31, sem := none, hub := false, queue := 15, desc := [] } }, _,
     ((acceptPost 0 ({ tok := 31, sem := none, hub := false, queue := 15, desc := [] } : DPostOp) ((pastReach 0 ({ tok := 31, sem := none, hub := false, queue := 15, desc := [] } : DPostOp) (at0 0 { wait := .dpost { tok := 31, sem := none, hub := false, queue := 15, desc := [] } } : State)) : State)).getD kv),
     by decide +kernel, rfl, by decide +kernel⟩,
   ⟨0, 0, { core := 0, tok := 31, sem := none, queue := 0, comp := some 1 }, 1,
     { kv with fab := { dies := [(0, { handles := [(0, { core := 0, tok := 31, sem := none, queue := 0, comp := some 1 })] })] } },
     by decide +kernel⟩⟩

theorem witness_SemaphoreRowsComplete :
    (∃ (c : Nat) (sem : Nat) (n : Nat) (w : BitVec 64) (s : State) (r : State), Issues c w (.sinit sem n) s r ∧ NotLast c r) ∧
    (∃ (c : Nat) (sem : Nat) (n : Nat) (w : BitVec 64) (s : State) (r : State), Issues c w (.spost sem n) s r ∧ NotLast c r) ∧
    (∃ (c : Nat) (sem : Nat) (n : Nat) (w : BitVec 64) (s : State) (r : State), Issues c w (.swait sem n) s r ∧ n ≤ getSem r c sem ∧
      NotLast c r) ∧
    (∃ (c : Nat) (sem : Nat) (n : Nat) (w : BitVec 64) (s : State) (r : State), Issues c w (.swait sem n) s r ∧ getSem r c sem < n) ∧
    (∃ (c : Nat) (sem : Nat) (n : Nat) (s : State), (coreAt s c).cond = .issuing ∧ (coreAt s c).wait = .swait sem n ∧ n ≤ getSem s c sem ∧
      NotLast c s) ∧
    (∃ (c : Nat) (d : Nat) (sem : Nat) (n : Nat) (w : BitVec 64) (s : State) (r : State), Issues c w (.stry d sem n) s r ∧ NotLast c r ∧
      n ≤ getSem r c sem) ∧
    (∃ (c : Nat) (d : Nat) (sem : Nat) (n : Nat) (w : BitVec 64) (s : State) (r : State), Issues c w (.stry d sem n) s r ∧ NotLast c r ∧
      getSem r c sem < n) ∧
    (∃ (c : Nat) (a : Nat) (sem : Nat) (n : Nat) (u : Nat) (p : Part) (w : BitVec 64) (s : State) (r : State),
      Issues c w (.spostr a sem n) s r ∧ (getG r c a).toNat ≤ 4095 ∧ bitN (getG r c a).toNat 4 = false ∧
      (coreParts r c).bind (part r) = some p ∧ coreOfField p (getG r c a).toNat = some u ∧ (mfind p.named u).isSome = true ∧
      postsOf r c < 8 ∧ NotLast c r) ∧
    (∃ (c : Nat) (a : Nat) (sem : Nat) (n : Nat) (u : Nat) (p : Part) (w : BitVec 64) (s : State) (r : State),
      Issues c w (.spostr a sem n) s r ∧ (getG r c a).toNat ≤ 4095 ∧ bitN (getG r c a).toNat 4 = false ∧
      (coreParts r c).bind (part r) = some p ∧ coreOfField p (getG r c a).toNat = some u ∧ (mfind p.named u).isSome = true ∧
      8 ≤ postsOf r c) ∧
    (∃ (c : Nat) (u : Nat) (sem : Nat) (n : Nat) (s : State), (coreAt s c).cond = .issuing ∧ (coreAt s c).wait = .spostr u sem n ∧
      postsOf s c < 8 ∧ NotLast c s) ∧
    (∃ (src : Nat) (target : Nat) (p : RPost) (s : State) (y : State),
      s.sync.posts.find? (fun p => p.src == src && p.target == target) = some p ∧ y = flushStores src p.seq s) :=
  ⟨⟨0, 31, 65535, gw 0x20 0 0 0 0 0 (31 + 65535 * 65536), at0 (gw 0x20 0 0 0 0 0 (31 + 65535 * 65536)) {},
    at0 (gw 0x20 0 0 0 0 0 (31 + 65535 * 65536)) {}, by decide +kernel⟩,
   ⟨0, 31, 65535, gw 0x20 1 0 0 0 0 (31 + 65535 * 65536), at0 (gw 0x20 1 0 0 0 0 (31 + 65535 * 65536)) { ctx := { sems := [(31, 1)] } },
     at0 (gw 0x20 1 0 0 0 0 (31 + 65535 * 65536)) { ctx := { sems := [(31, 1)] } }, by decide +kernel⟩,
   ⟨0, 31, 1, gw 0x20 2 0 0 0 0 (31 + 1 * 65536), at0 (gw 0x20 2 0 0 0 0 (31 + 1 * 65536)) { ctx := { sems := [(31, 1)] } },
     at0 (gw 0x20 2 0 0 0 0 (31 + 1 * 65536)) { ctx := { sems := [(31, 1)] } }, by decide +kernel⟩,
   ⟨0, 31, 1, gw 0x20 2 0 0 0 0 (31 + 1 * 65536), at0 (gw 0x20 2 0 0 0 0 (31 + 1 * 65536)) {}, at0 (gw 0x20 2 0 0 0 0 (31 + 1 * 65536)) {},
     by decide +kernel⟩,
   ⟨0, 31, 1, at0 0 { ctx := { sems := [(31, 1)] }, wait := .swait 31 1 }, by decide +kernel⟩,
   ⟨0, 1, 31, 1, gw 0x20 3 1 0 0 0 (31 + 1 * 65536), at0 (gw 0x20 3 1 0 0 0 (31 + 1 * 65536)) { ctx := { sems := [(31, 1)] } },
     at0 (gw 0x20 3 1 0 0 0 (31 + 1 * 65536)) { ctx := { sems := [(31, 1)] } }, by decide +kernel⟩,
   ⟨0, 1, 31, 1, gw 0x20 3 1 0 0 0 (31 + 1 * 65536), at0 (gw 0x20 3 1 0 0 0 (31 + 1 * 65536)) {},
     at0 (gw 0x20 3 1 0 0 0 (31 + 1 * 65536)) {}, by decide +kernel⟩,
   ⟨0, 1, 31, 1, 1, pt0, gw 0x20 5 0 1 0 0 (31 + 1 * 65536), at0 (gw 0x20 5 0 1 0 0 (31 + 1 * 65536)) { ctx := { g := [(1, 1)] } },
     at0 (gw 0x20 5 0 1 0 0 (31 + 1 * 65536)) { ctx := { g := [(1, 1)] } }, by decide +kernel⟩,
   ⟨0, 1, 31, 1, 1, pt0, gw 0x20 5 0 1 0 0 (31 + 1 * 65536),
     { at0 (gw 0x20 5 0 1 0 0 (31 + 1 * 65536)) { ctx := { g := [(1, 1)] } } with sync := { posts := List.replicate 8 { src := 0, target := 1, sem := 0, n := 1, seq := 0 } } },
     { at0 (gw 0x20 5 0 1 0 0 (31 + 1 * 65536)) { ctx := { g := [(1, 1)] } } with sync := { posts := List.replicate 8 { src := 0, target := 1, sem := 0, n := 1, seq := 0 } } },
     by decide +kernel⟩,
   ⟨0, 1, 31, 1, at0 0 { wait := .spostr 1 31 1 }, by decide +kernel⟩,
   ⟨0, 1, { src := 0, target := 1, sem := 31, n := 65535, seq := 0 },
     { at0 0 with sync := { posts := [{ src := 0, target := 1, sem := 31, n := 65535, seq := 0 }] } }, _, by decide +kernel, rfl⟩⟩

theorem witness_BarrierRowsComplete :
    (∃ (c : Nat) (a : Nat) (slot : Nat) (p : Part) (w : BitVec 64) (s : State) (r : State), Issues c w (.bcfg a slot) s r ∧
      (coreParts r c).bind (part r) = some p ∧ bcfgBad p c (getG r c a) = false ∧ slOut (getSlot r c slot) = 0 ∧ NotLast c r) ∧
    (∃ (c : Nat) (a : Nat) (slot : Nat) (p : Part) (w : BitVec 64) (s : State) (r : State), Issues c w (.bcfg a slot) s r ∧
      (coreParts r c).bind (part r) = some p ∧ bcfgBad p c (getG r c a) = false ∧ slOut (getSlot r c slot) ≠ 0) ∧
    (∃ (c : Nat) (slot : Nat) (pt : Nat) (p : Part) (w : BitVec 64) (s : State) (r : State), Issues c w (.barr slot) s r ∧
      coreParts r c = some pt ∧ part r pt = some p ∧ slCmask (getSlot r c slot) ≠ 0 ∧ slOut (getSlot r c slot) ≠ 2 ∧ NotLast c r) ∧
    (∃ (c : Nat) (slot : Nat) (pt : Nat) (p : Part) (w : BitVec 64) (s : State) (r : State), Issues c w (.barr slot) s r ∧
      coreParts r c = some pt ∧ part r pt = some p ∧ slCmask (getSlot r c slot) ≠ 0 ∧ slOut (getSlot r c slot) = 2) ∧
    (∃ (c : Nat) (slot : Nat) (w : BitVec 64) (s : State) (r : State), Issues c w (.bwait slot) s r ∧ slOut (getSlot r c slot) = 0 ∧
      NotLast c r) ∧
    (∃ (c : Nat) (slot : Nat) (w : BitVec 64) (s : State) (r : State), Issues c w (.bwait slot) s r ∧ slOut (getSlot r c slot) ≠ 0) ∧
    (∃ (c : Nat) (slot : Nat) (pt : Nat) (p : Part) (w : BitVec 64) (s : State) (r : State), Issues c w (.bar slot) s r ∧
      coreParts r c = some pt ∧ part r pt = some p ∧ slCmask (getSlot r c slot) ≠ 0 ∧ slOut (getSlot r c slot) ≠ 2) ∧
    (∃ (c : Nat) (slot : Nat) (pt : Nat) (p : Part) (w : BitVec 64) (s : State) (r : State), Issues c w (.bar slot) s r ∧
      coreParts r c = some pt ∧ part r pt = some p ∧ slCmask (getSlot r c slot) ≠ 0 ∧ slOut (getSlot r c slot) = 2) ∧
    (∃ (lv : Nat) (unit : Nat) (slot : Nat) (sender : Nat) (k : Nat) (a : Arrival) (p : Part) (s : State),
      s.sync.arrivals.find? (fun a => a.level == levelOf lv && a.unit == unit && a.slot == slot && a.sender == sender) = some a ∧
      a.core.all (fun c => !s.sync.posts.any (fun q => q.src == c && decide (q.seq < a.seq))) = true ∧ part s a.pt = some p ∧
      a.level ≠ .fabric ∧ a.run = p.run.toNat ∧ k = combKey a.pt a.level a.unit a.slot a.sense ∧
      (combOf s k).skip.contains a.sender = false ∧ (combOf s k).cfg.all (fun v => levelCfg a.level v == levelCfg a.level a.cfg) = true) ∧
    (∃ (lv : Nat) (unit : Nat) (slot : Nat) (k : Nat) (rl : Release) (p : Part) (w : BitVec 64) (s : State),
      s.sync.releases.find? (fun r => r.level == levelOf lv && r.unit == unit && r.slot == slot) = some rl ∧ part s rl.pt = some p ∧
      rl.level = .cluster ∧ rl.run = p.run.toNat ∧ k = combKey rl.pt .cluster rl.unit rl.slot rl.sense ∧ (combOf s k).cfg = some w ∧ (∀ c,
      c ∈ expected s rl.pt p .cluster rl.unit w → (coreAt s c).wait = .none)) ∧
    (∃ (pt : Nat) (st : Nat) (g : Nat) (p : Part) (s : State), part s pt = some p ∧ mfind s.sync.quiet (pt * 16 + st) = some g ∧
      g + cfgEff s 8 pt % 2 ^ 14 * 16000000 ≤ (gtcOf s (siteKC st)).toNat ∧ bitN (cfgEff s 8 pt) 14 = true ∧ safeState s 5 pt = false ∧
      p.plan = 2 ∧ p.named.any (fun q => waitClass (coreAt s q.1) == 9) = false ∧ dieClasses s p st ≠ [] ∧
      mfind s.sync.stale (pt * 16 + st) = none ∧ ((dieClasses s p st).all (fun q => decide (1 ≤ q.2 ∧ q.2 ≤ 8)) = true) ∧
      ((dieClasses s p st).any (fun q => decide (1 ≤ q.2 ∧ q.2 ≤ 5)) = true)) :=
  ⟨⟨0, 1, 15, pt0, gw 0x21 0 0 1 0 0 15, at0 (gw 0x21 0 0 1 0 0 15) { ctx := { g := [(1, 3 * 2 ^ 52)] } },
    at0 (gw 0x21 0 0 1 0 0 15) { ctx := { g := [(1, 3 * 2 ^ 52)] } }, by decide +kernel⟩,
   ⟨0, 1, 15, pt0, gw 0x21 0 0 1 0 0 15, at0 (gw 0x21 0 0 1 0 0 15) { ctx := { g := [(1, 3 * 2 ^ 52)], slots := [(15, 2 ^ 11)] } },
     at0 (gw 0x21 0 0 1 0 0 15) { ctx := { g := [(1, 3 * 2 ^ 52)], slots := [(15, 2 ^ 11)] } }, by decide +kernel⟩,
   ⟨0, 15, 0, pt0, gw 0x21 1 0 0 0 0 15, at0 (gw 0x21 1 0 0 0 0 15) { ctx := { slots := [(15, 3 * 2 ^ 52 + 2 ^ 11)] } },
     at0 (gw 0x21 1 0 0 0 0 15) { ctx := { slots := [(15, 3 * 2 ^ 52 + 2 ^ 11)] } }, by decide +kernel⟩,
   ⟨0, 15, 0, pt0, gw 0x21 1 0 0 0 0 15, at0 (gw 0x21 1 0 0 0 0 15) { ctx := { slots := [(15, 3 * 2 ^ 52 + 2 ^ 12)] } },
     at0 (gw 0x21 1 0 0 0 0 15) { ctx := { slots := [(15, 3 * 2 ^ 52 + 2 ^ 12)] } }, by decide +kernel⟩,
   ⟨0, 15, gw 0x21 2 0 0 0 0 15, at0 (gw 0x21 2 0 0 0 0 15) { ctx := { slots := [(15, 3 * 2 ^ 52)] } },
     at0 (gw 0x21 2 0 0 0 0 15) { ctx := { slots := [(15, 3 * 2 ^ 52)] } }, by decide +kernel⟩,
   ⟨0, 15, gw 0x21 2 0 0 0 0 15, at0 (gw 0x21 2 0 0 0 0 15) { ctx := { slots := [(15, 3 * 2 ^ 52 + 2 ^ 12)] } },
     at0 (gw 0x21 2 0 0 0 0 15) { ctx := { slots := [(15, 3 * 2 ^ 52 + 2 ^ 12)] } }, by decide +kernel⟩,
   ⟨0, 15, 0, pt0, gw 0x21 3 0 0 0 0 15, at0 (gw 0x21 3 0 0 0 0 15) { ctx := { slots := [(15, 3 * 2 ^ 52 + 2 ^ 11)] } },
     at0 (gw 0x21 3 0 0 0 0 15) { ctx := { slots := [(15, 3 * 2 ^ 52 + 2 ^ 11)] } }, by decide +kernel⟩,
   ⟨0, 15, 0, pt0, gw 0x21 3 0 0 0 0 15, at0 (gw 0x21 3 0 0 0 0 15) { ctx := { slots := [(15, 3 * 2 ^ 52 + 2 ^ 12)] } },
     at0 (gw 0x21 3 0 0 0 0 15) { ctx := { slots := [(15, 3 * 2 ^ 52 + 2 ^ 12)] } }, by decide +kernel⟩,
   ⟨0, 0, 15, 1, _, { pt := 0, run := 0, level := .cluster, unit := 0, slot := 15, sense := false, sender := 1, cfg := 3 * 2 ^ 52, core := some 1 },
     pt0, { at0 0 with sync := { arrivals := [{ pt := 0, run := 0, level := .cluster, unit := 0, slot := 15, sense := false, sender := 1, cfg := 3 * 2 ^ 52, core := some 1 }] } },
     by decide +kernel, by decide +kernel, by decide +kernel, by decide +kernel, by decide +kernel, rfl, by decide +kernel⟩,
   ⟨0, 0, 15, combKey 0 .cluster 0 15 false, { pt := 0, run := 0, level := .cluster, unit := 0, slot := 15, sense := false }, pt0,
     3 * 2 ^ 52, { at0 0 with sync := { releases := [{ pt := 0, run := 0, level := .cluster, unit := 0, slot := 15, sense := false }], combs := [(combKey 0 .cluster 0 15 false, { cfg := some (3 * 2 ^ 52), sent := true, skip := [5] })] } },
     by decide +kernel⟩,
   ⟨0, 0, 0, { pt0 with plan := 2 },
     { withCfg 8 0 (2 ^ 14) { onP with cores := { core := [(0, { cond := .issuing, wait := .swait 0 1 }), (1, { cond := .ended })] } } with sync := { quiet := [(0, 0)] } },
     by decide +kernel⟩⟩

theorem witness_DescriptorRowsComplete :
    (∃ (p : OPkt) (x : Handle) (s : State), FromHub 3 p s ∧ mfind (dieEng s p.dst).handles p.tag = some x ∧ x.comp = none) ∧
    (∃ (p : OPkt) (s : State), FromHub 8 p s) ∧
    (∃ (p : OPkt) (pt : Nat) (queue : Nat) (s : State), ToHub 1 p s ∧ bitN p.arg 12 = true ∧ queue = bitsN p.arg 13 5 ∧
      hubDesc s (hubKey p.src p.tag) = none ∧ p.payload.length = 64 ∧ partOfStack s p.src = some pt ∧
      (mget s.fab.hqs {} queue).owner = some pt ∧ (mget s.fab.hqs {} queue).descs.length < 64) ∧
    (∃ (p : OPkt) (pt : Nat) (pkg : Nat) (ep : Nat) (s : State), ToHub 1 p s ∧ bitN p.arg 12 = false ∧
      hubDesc s (hubKey p.src p.tag) = none ∧ p.payload.length = 64 ∧ partOfStack s p.src = some pt ∧ postCheck s pt p.payload = none ∧
      ((parseDesc p.payload).op = 1 ∨ (parseDesc p.payload).op = 3) ∧ (parseDesc p.payload).len ≠ 0 ∧
      translate s (job s pt) (parseDesc p.payload).target = some (pkg, ep)) ∧
    (∃ (p : OPkt) (d : HubDesc) (s : State), ToHub 2 p s ∧ hubDesc s (hubKey p.src p.tag) = some d ∧ (d.op = 1 ∨ d.op = 3) ∧
      p.addr + p.payload.length ≤ d.len ∧ p.addr % payloadMax s = 0 ∧ d.dstPkg ≠ ownPkg s) ∧
    (∃ (unit : Nat) (pt : Nat) (q : Nat) (h : Nat) (v : Nat) (x : QDesc) (rest : List QDesc) (s : State) (r : State), unit < 12 ∧
      r = settleDie unit s ∧ partOfStack r unit = some pt ∧ nextQueue r pt (dieEng r unit) = some (q, x, rest) ∧
      mfind (dieEng r unit).cur q = none ∧ freeHandle (dieEng r unit) = some h ∧ postCheck r pt x.desc = some v) ∧
    (∃ (unit : Nat) (pt : Nat) (q : Nat) (h : Nat) (x : QDesc) (rest : List QDesc) (s : State) (r : State), unit < 12 ∧
      r = settleDie unit s ∧ partOfStack r unit = some pt ∧ nextQueue r pt (dieEng r unit) = some (q, x, rest) ∧
      mfind (dieEng r unit).cur q = none ∧ freeHandle (dieEng r unit) = some h ∧ postCheck r pt x.desc = none) ∧
    (∃ (unit : Nat) (pt : Nat) (q : Nat) (h : Nat) (off : Nat) (mask : Nat) (x : QDesc) (rest : List QDesc) (fs : List LineFind) (ec : Ecc) (bs : List Byte) (s : State) (r : State) (y : State),
      unit < 12 ∧ r = settleDie unit s ∧ partOfStack r unit = some pt ∧ nextQueue r pt (dieEng r unit) = some (q, x, rest) ∧
      mfind (dieEng r unit).cur q = some (h, off) ∧
      readRange unit ((parseDesc x.desc).laddr + off) (min (payloadMax r) ((parseDesc x.desc).len - off)) fs ec r = (bs, mask, y)) ∧
    (∃ (unit : Nat) (q : Nat) (die : Nat) (tag : Nat) (pt : Nat) (bs : List Byte) (rest : List (Nat × Nat × List Byte)) (s : State),
      12 ≤ unit ∧ die < 12 ∧ hubNext s = some q ∧ (mget s.fab.hqs {} q).descs = (die, tag, bs) :: rest ∧ (mget s.fab.hqs {} q).off = none ∧
      (mget s.fab.hqs {} q).owner = some pt ∧ ((parseDesc bs).op = 2 ∨ (parseDesc bs).len = 0)) :=
  ⟨⟨{ pk 7 0 4 0 (3 + 256 * (0)) (leBytes 8 1) with src := 12, tag := 0, poison := 0 }, { core := 0, tok := 31, sem := none, queue := 0 },
    { kv with fab := { dies := [(0, { handles := [(0, { core := 0, tok := 31, sem := none, queue := 0 })] })] } }, by decide +kernel⟩,
   ⟨{ pk 7 0 4 0 (8 + 256 * (31 + 64 * 256)) ([]) with src := 12, tag := 0, poison := 0 }, kv, by decide +kernel⟩,
   ⟨{ pk 7 12 4 0 (1 + 256 * (16 + 31 * 32)) (dsc 1 0 1 0 64) with tag := 7, poison := 0 }, 0, 31,
     job0 (fun f => { f with hqs := [(31, { owner := some 0 })] }), by decide +kernel⟩,
   ⟨{ pk 7 12 4 0 (1 + 256 * (15)) (dsc 1 0 1 0 64) with tag := 7, poison := 0 }, 0, 1, 0, job0, by decide +kernel⟩,
   ⟨{ pk 7 12 4 0 (2 + 256 * (0)) (List.replicate 64 5) with tag := 7, poison := 0 }, hd0,
     job0 (fun f => { f with descs := [(hubKey 0 7, hd0)] }), by decide +kernel⟩,
   ⟨0, 0, 15, 0, 5, { core := 0, tok := 31, sem := none, desc := dsc 4 0 9 0 64 }, [],
     job0 (fun f => { f with dies := [(0, { queues := [(15, [{ core := 0, tok := 31, sem := none, desc := dsc 4 0 9 0 64 }])]  })] }), _,
     by decide +kernel, rfl, by decide +kernel⟩,
   ⟨0, 0, 15, 0, { core := 0, tok := 31, sem := none, desc := dsc 1 0 1 0 64 }, [],
     job0 (fun f => { f with dies := [(0, { queues := [(15, [{ core := 0, tok := 31, sem := none, desc := dsc 1 0 1 0 64 }])]  })] }), _,
     by decide +kernel, rfl, by decide +kernel⟩,
   ⟨0, 0, 15, 0, 0, (readRange 0 ((parseDesc ({ core := 0, tok := 31, sem := none, desc := dsc 1 0 1 0 64 } : QDesc).desc).laddr + 0) (min (payloadMax ((settleDie 0 (job0 (fun f => { f with dies := [(0, { queues := [(15, [{ core := 0, tok := 31, sem := none, desc := dsc 1 0 1 0 64 }])] , cur := [(15, (0, 0))] })] }) : State)) : State)) ((parseDesc ({ core := 0, tok := 31, sem := none, desc := dsc 1 0 1 0 64 } : QDesc).desc).len - 0)) ([] : List LineFind) ({} : Ecc) ((settleDie 0 (job0 (fun f => { f with dies := [(0, { queues := [(15, [{ core := 0, tok := 31, sem := none, desc := dsc 1 0 1 0 64 }])] , cur := [(15, (0, 0))] })] }) : State)) : State)).2.1,
     { core := 0, tok := 31, sem := none, desc := dsc 1 0 1 0 64 }, [], [], {},
     (readRange 0 ((parseDesc ({ core := 0, tok := 31, sem := none, desc := dsc 1 0 1 0 64 } : QDesc).desc).laddr + 0) (min (payloadMax ((settleDie 0 (job0 (fun f => { f with dies := [(0, { queues := [(15, [{ core := 0, tok := 31, sem := none, desc := dsc 1 0 1 0 64 }])] , cur := [(15, (0, 0))] })] }) : State)) : State)) ((parseDesc ({ core := 0, tok := 31, sem := none, desc := dsc 1 0 1 0 64 } : QDesc).desc).len - 0)) ([] : List LineFind) ({} : Ecc) ((settleDie 0 (job0 (fun f => { f with dies := [(0, { queues := [(15, [{ core := 0, tok := 31, sem := none, desc := dsc 1 0 1 0 64 }])] , cur := [(15, (0, 0))] })] }) : State)) : State)).1,
     job0 (fun f => { f with dies := [(0, { queues := [(15, [{ core := 0, tok := 31, sem := none, desc := dsc 1 0 1 0 64 }])] , cur := [(15, (0, 0))] })] }),
     _, (readRange 0 ((parseDesc ({ core := 0, tok := 31, sem := none, desc := dsc 1 0 1 0 64 } : QDesc).desc).laddr + 0) (min (payloadMax ((settleDie 0 (job0 (fun f => { f with dies := [(0, { queues := [(15, [{ core := 0, tok := 31, sem := none, desc := dsc 1 0 1 0 64 }])] , cur := [(15, (0, 0))] })] }) : State)) : State)) ((parseDesc ({ core := 0, tok := 31, sem := none, desc := dsc 1 0 1 0 64 } : QDesc).desc).len - 0)) ([] : List LineFind) ({} : Ecc) ((settleDie 0 (job0 (fun f => { f with dies := [(0, { queues := [(15, [{ core := 0, tok := 31, sem := none, desc := dsc 1 0 1 0 64 }])] , cur := [(15, (0, 0))] })] }) : State)) : State)).2.2,
     by decide +kernel, rfl, by decide +kernel⟩,
   ⟨12, 31, 0, 7, 0, dsc 2 0 1 0 64, [],
     job0 (fun f => { f with hqs := [(31, { owner := some 0, descs := [(0, 7, dsc 2 0 1 0 64)], open_ := 1 })] }), by decide +kernel⟩⟩

theorem witness_ArrivalRowsComplete :
    (∃ (p : OPkt) (s : State), FromHub 4 p s ∧ epFenced s p.dst = false) ∧
    (∃ (p : OPkt) (cl : Nat) (s : State), FromHub 4 p s ∧ epFenced s p.dst = false ∧ p.poison = 0 ∧
      CmWritable s p.part cl p.addr p.payload.length ∧ lineCut s p.dst p.addr = false) ∧
    (∃ (p : OPkt) (s : State), FromHub 5 p s ∧ epFenced s p.dst = false) ∧
    (∃ (p : OPkt) (cl : Nat) (s : State), FromHub 5 p s ∧ epFenced s p.dst = false ∧ CmWritable s p.part cl p.addr 8 ∧
      lineCut s p.dst p.addr = false ∧ badWords (extTake cl (touchCm cl (takePkt p s))).mem.m p.addr 8 [] = [] ∧ p.part ≠ enginePart s) ∧
    (∃ (p : OPkt) (n : Nat) (mask : Nat) (fs : List LineFind) (ec : Ecc) (q : Part) (bs : List Byte) (s : State) (y : State), FromHub 6 p s ∧
      epFenced s p.dst = false ∧ n = bitsN p.arg 8 16 ∧ n ≤ 4096 ∧ part s p.part = some q ∧ rangeReaches s q false p.addr n = true ∧
      rangeFenced (takePkt p s) p.dst p.addr n = false ∧ readRange p.dst p.addr n fs ec (takePkt p s) = (bs, mask, y)) ∧
    (∃ (p : OPkt) (pkg : Nat) (pt : Nat) (jobId : Nat) (dseq : Nat) (pkt : Nat) (npkt : Nat) (off : Nat) (ep : Nat) (a : Nat) (s : State),
      ToHub 7 p s ∧ mfind s.fab.works p.tag = some (.read pkg pt jobId dseq pkt npkt off ep a p.payload.length) ∧ pkg ≠ ownPkg s) ∧
    (∃ (p : OPkt) (pt : Nat) (jobId : Nat) (dseq : Nat) (pkt : Nat) (npkt : Nat) (off : Nat) (ep : Nat) (a : Nat) (k : Nat) (d : HubDesc) (s : State),
      ToHub 7 p s ∧ mfind s.fab.works p.tag = some (.read (ownPkg s) pt jobId dseq pkt npkt off ep a p.payload.length) ∧
      s.fab.descs.find? (fun q => q.2.job == jobId && q.2.op == 2 && q.2.dstPkg == ownPkg s && q.2.dseq == dseq) = some (k, d) ∧
      d.hq = none ∧ d.src < 12 ∧ canAsk s d.src = true) ∧
    (∃ (p : OPkt) (pkg : Nat) (pt : Nat) (jobId : Nat) (dseq : Nat) (pkt : Nat) (k : Nat) (r : RxDesc) (s : State), PacketTaken 5 p s ∧
      p.dst = 12 ∧ mfind s.fab.works p.tag = some (.data pkg pt jobId dseq pkt) ∧ pkg ≠ ownPkg s ∧ k = ctxKey pkg pt ∧
      (ctxOf s k).low = dseq ∧ (ctxOf s k).descs = [(dseq, r)] ∧ r.reads = [] ∧ r.left = none ∧ r.repl = none ∧ r.sig = none ∧ r.got = [] ∧
      r.npkt = 1) :=
  ⟨⟨{ pk 7 0 4 0 (4 + 256 * (0)) ([1]) with src := 12, tag := 7, poison := 0 }, job0, by decide +kernel⟩,
   ⟨{ pk 7 0 4 (cmBase 0) (4 + 256 * (0)) ([1, 2]) with src := 12, tag := 7, poison := 0 }, 0, job0, by decide +kernel⟩,
   ⟨{ pk 7 0 4 0 (5 + 256 * (0)) (leBytes 8 1) with src := 12, tag := 7, poison := 0 }, job0, by decide +kernel⟩,
   ⟨{ pk 7 0 4 (cmBase 0) (5 + 256 * (0)) (leBytes 8 1) with src := 12, tag := 7, poison := 0 }, 0, withCfg 6 0 (15 * 2 ^ 38) job0,
     by decide +kernel⟩,
   ⟨{ pk 7 0 4 0 (6 + 256 * (4096)) ([]) with src := 12, tag := 7, poison := 0 }, 4096,
     (readRange ({ pk 7 0 4 0 (6 + 256 * (4096)) ([]) with src := 12, tag := 7, poison := 0 } : OPkt).dst ({ pk 7 0 4 0 (6 + 256 * (4096)) ([]) with src := 12, tag := 7, poison := 0 } : OPkt).addr 4096 ([] : List LineFind) ({} : Ecc) (takePkt ({ pk 7 0 4 0 (6 + 256 * (4096)) ([]) with src := 12, tag := 7, poison := 0 } : OPkt) ({ job0 with pho := { bundles := (List.range 24).map (fun b => (b, { lit := true, st := 0 })) } } : State))).2.1,
     [], {}, pt0, (readRange ({ pk 7 0 4 0 (6 + 256 * (4096)) ([]) with src := 12, tag := 7, poison := 0 } : OPkt).dst ({ pk 7 0 4 0 (6 + 256 * (4096)) ([]) with src := 12, tag := 7, poison := 0 } : OPkt).addr 4096 ([] : List LineFind) ({} : Ecc) (takePkt ({ pk 7 0 4 0 (6 + 256 * (4096)) ([]) with src := 12, tag := 7, poison := 0 } : OPkt) ({ job0 with pho := { bundles := (List.range 24).map (fun b => (b, { lit := true, st := 0 })) } } : State))).1,
     { job0 with pho := { bundles := (List.range 24).map (fun b => (b, { lit := true, st := 0 })) } },
     (readRange ({ pk 7 0 4 0 (6 + 256 * (4096)) ([]) with src := 12, tag := 7, poison := 0 } : OPkt).dst ({ pk 7 0 4 0 (6 + 256 * (4096)) ([]) with src := 12, tag := 7, poison := 0 } : OPkt).addr 4096 ([] : List LineFind) ({} : Ecc) (takePkt ({ pk 7 0 4 0 (6 + 256 * (4096)) ([]) with src := 12, tag := 7, poison := 0 } : OPkt) ({ job0 with pho := { bundles := (List.range 24).map (fun b => (b, { lit := true, st := 0 })) } } : State))).2.2,
     by decide +kernel⟩,
   ⟨{ pk 7 12 4 0 (7 + 256 * (0)) (List.replicate 64 5) with tag := 7, poison := 0 }, 1, 0, 1, 0, 0, 1, 0, 0, 0,
     job0 (fun f => { f with works := [(7, .read 1 0 1 0 0 1 0 0 0 64)] }), by decide +kernel⟩,
   ⟨{ pk 7 12 4 0 (7 + 256 * (0)) (List.replicate 64 5) with tag := 7, poison := 0 }, 0, 1, 0, 0, 1, 0, 0, 0, hubKey 0 7,
     { hd0 with op := 2, dstPkg := 0 },
     job0 (fun f => { f with works := [(7, .read 0 0 1 0 0 1 0 0 0 64)], descs := [(hubKey 0 7, { hd0 with op := 2, dstPkg := 0 })] }),
     by decide +kernel⟩,
   ⟨{ pk 5 12 6 0 1 with tag := 7 }, 1, 0, 1, _, 0, _, { npkt := 1, srcEp := 0, chan := 2, sent := [0] },
     job0 (fun f => { f with works := [(7, .data 1 0 1 0 0)], ctxs := [(ctxKey 1 0, { descs := [(0, { npkt := 1, srcEp := 0, chan := 2, sent := [0] })] })] }),
     by decide +kernel, by decide +kernel, by decide +kernel, by decide +kernel, rfl, rfl, by decide +kernel⟩⟩

theorem witness_FabricPacketRowsComplete :
    (∃ (p : FabPkt) (a : Arr) (pt : Nat) (k : Nat) (s : State), p.type = 1 ∧ 1 ≤ p.npkt ∧ TakenNew p a s ∧ partOfJob s p.job = some pt ∧
      (job s pt).state = 1 ∧ bitN p.flags 1 = false ∧ bitN p.flags 2 = false ∧ bitN p.flags 4 = false ∧ epPresent s p.dstEp = true ∧
      epFenced s p.dstEp = false ∧ canAsk s p.dstEp = true ∧ 2 ≤ p.chan ∧ p.srcPkg ≠ ownPkg s ∧ k = ctxKey p.srcPkg pt ∧
      (ctxOf s k).descs = [] ∧ (ctxOf s k).low = p.dseq) ∧
    (∃ (p : FabPkt) (a : Arr) (pt : Nat) (cl : Nat) (k : Nat) (s : State), p.type = 1 ∧ TakenNew p a s ∧ partOfJob s p.job = some pt ∧
      (job s pt).state = 1 ∧ bitN p.flags 1 = false ∧ bitN p.flags 2 = false ∧ bitN p.flags 4 = false ∧ p.dstEp = 12 ∧
      epFenced s 12 = false ∧ lineCut s 12 p.addr = false ∧ 2 ≤ p.chan ∧ p.npkt = 1 ∧ p.srcPkg ≠ ownPkg s ∧ k = ctxKey p.srcPkg pt ∧
      (ctxOf s k).descs = [] ∧ (ctxOf s k).low = p.dseq ∧ p.poison = 0 ∧ CmWritable s pt cl p.addr p.payload.length ∧ EngineSettled s) ∧
    (∃ (p : FabPkt) (a : Arr) (pt : Nat) (k : Nat) (q : Part) (s : State), p.type = 2 ∧ TakenNew p a s ∧ partOfJob s p.job = some pt ∧
      (job s pt).state = 1 ∧ bitN p.flags 2 = false ∧ bitN p.flags 4 = false ∧ epPresent s p.dstEp = true ∧ epFenced s p.dstEp = false ∧
      2 ≤ p.chan ∧ p.npkt = 1 ∧ p.srcPkg ≠ ownPkg s ∧ k = ctxKey p.srcPkg pt ∧ (ctxOf s k).descs = [] ∧ (ctxOf s k).low = p.dseq ∧
      part s pt = some q ∧ 0 < p.arg ∧ p.arg ≤ 1024 ∧ rangeReaches s q false p.addr p.arg = true ∧
      rangeFenced s p.dstEp p.addr p.arg = false) ∧
    (∃ (p : FabPkt) (a : Arr) (k : Nat) (d : HubDesc) (s : State), p.type = 3 ∧ TakenNew p a s ∧ bitN p.flags 4 = false ∧
      s.fab.descs.find? (fun q => q.2.job == p.job && q.2.op == 2 && q.2.dstPkg == p.srcPkg && q.2.dseq == p.dseq) = some (k, d) ∧
      d.hq = none ∧ d.src < 12 ∧ canAsk s d.src = true) ∧
    (∃ (p : FabPkt) (a : Arr) (k : Nat) (d : HubDesc) (s : State), p.type = 3 ∧ TakenNew p a s ∧ bitN p.flags 4 = false ∧
      s.fab.descs.find? (fun q => q.2.job == p.job && q.2.op == 2 && q.2.dstPkg == p.srcPkg && q.2.dseq == p.dseq) = some (k, d) ∧
      (d.hq.isSome = true ∨ 12 ≤ d.src) ∧ d.localDone = false) ∧
    (∃ (p : FabPkt) (a : Arr) (k : Nat) (d : HubDesc) (s : State), p.type = 4 ∧ TakenNew p a s ∧ bitN p.flags 4 = false ∧
      s.fab.descs.find? (fun q => q.2.job == p.job && ((q.2.op != 4 && q.2.dstPkg == p.srcPkg && q.2.dseq == p.dseq) || (q.2.op == 4 && mfind q.2.waitFor p.srcPkg == some p.dseq))) = some (k,
      d) ∧ (d.op = 1 ∨ d.op = 3) ∧ joinStatus (p.arg % 16) d.status = p.arg % 16) ∧
    (∃ (p : FabPkt) (a : Arr) (pt : Nat) (slot : Nat) (k : Nat) (sense : Bool) (q : Part) (g : GroupEnt) (s : State), p.type = 6 ∧
      TakenNew p a s ∧ partOfJob s p.job = some pt ∧ (job s pt).state = 1 ∧ bitN p.flags 4 = false ∧ part s pt = some q ∧
      groupOf s pt (fieldAt p.payload 10 2) = some g ∧ fieldAt p.payload 0 1 = 1 ∧ slot = fieldAt p.payload 1 1 % 16 ∧
      sense = bitN (fieldAt p.payload 2 1) 0 ∧ (g.children.map (·.1)).contains p.srcPkg = true ∧ k = combKey pt .fabric 0 slot sense ∧
      (combOf s k).skip.contains p.srcPkg = false ∧ (combOf s k).cfg = none ∧ barrierPayloadBad p.payload = false) ∧
    (∃ (p : FabPkt) (a : Arr) (m : FmMsg) (n : Nat) (ms : List Nat) (s : State), p.type = 7 ∧ TakenNew p a s ∧ s.mp.running = true ∧
      s.pkg.recovery = false ∧ m.payload.length ≤ 4096 ∧ (¬ (0x0810 ≤ (reqOf (.fm m.srcPkg m.fmSeq) m.words m.payload).1 ∧
      (reqOf (.fm m.srcPkg m.fmSeq) m.words m.payload).1 ≤ 0x0811)) ∧ fmSender s m = true ∧
      seqTake s.pod.fmNewest s.pod.fmMarks m.fmSeq = some (n, ms)) ∧
    (∃ (p : FabPkt) (a : Arr) (cum : Nat) (sack : Nat) (stream : Nat) (s : State), p.type = 5 ∧ a.port < 16 ∧ (portOf s a.port).mode ≠ 0 ∧
      (portOf s a.port).link = true ∧ frameBad p a s = false ∧ p.payload.length = 1032 ∧ fieldAt p.payload 6 1 = stream ∧ stream < 2 ∧
      fieldAt p.payload 7 1 = 0 ∧ p.seq = 0 ∧ cum = fieldAt p.payload 0 4 ∧ sack = fieldAt p.payload 8 1024 ∧
      (peerOf s p.srcPkg).waiting = [] ∧ (s.pod.podState = 0 ∨ (peerOf s p.srcPkg).failed = false)) ∧
    (∃ (pkg : Nat) (stream : Nat) (z : Nat) (s : State) (port : Nat), stream < 2 ∧ (rxOf (peerOf s pkg) stream).since = some z ∧
      z + 1000 ≤ s.now ∧ portNow s { type := 5, chan := 3, srcPkg := ownPkg s, dstPkg := pkg, payload := ackBytes (rxOf (peerOf s pkg) stream) stream } = some port) ∧
    (∃ (pkg : Nat) (stream : Nat) (z : Nat) (s : State), stream < 2 ∧ (rxOf (peerOf s pkg) stream).since = some z ∧ z + 1000 ≤ s.now ∧
      portNow s { type := 5, chan := 3, srcPkg := ownPkg s, dstPkg := pkg, payload := ackBytes (rxOf (peerOf s pkg) stream) stream } = none) :=
  ⟨⟨{ type := 1, flags := 1, dstEp := 0, chan := 2, npkt := 1, srcPkg := 1, job := 1, payload := [1, 2] }, ar0,
    ((partOfJob (job0 : State) ({ type := 1, flags := 1, dstEp := 0, chan := 2, npkt := 1, srcPkg := 1, job := 1, payload := [1, 2] } : FabPkt).job).getD 0),
    _, job0, by decide +kernel, by decide +kernel, by decide +kernel, by decide +kernel, by decide +kernel, (by decide +kernel),
    by decide +kernel, by decide +kernel, by decide +kernel, by decide +kernel, by decide +kernel, (by decide +kernel), by decide +kernel,
    rfl, by decide +kernel⟩,
   ⟨{ type := 1, flags := 1, dstEp := 12, chan := 2, npkt := 1, srcPkg := 1, job := 1, addr := cmBase 0, payload := [1, 2] }, ar0,
     ((partOfJob (job0 : State) ({ type := 1, flags := 1, dstEp := 12, chan := 2, npkt := 1, srcPkg := 1, job := 1, addr := cmBase 0, payload := [1, 2] } : FabPkt).job).getD 0),
     0, _, job0, by decide +kernel, by decide +kernel, by decide +kernel, by decide +kernel, by decide +kernel, (by decide +kernel),
     by decide +kernel, by decide +kernel, by decide +kernel, by decide +kernel, by decide +kernel, (by decide +kernel), by decide +kernel,
     rfl, by decide +kernel⟩,
   ⟨{ type := 2, flags := 1, chan := 2, npkt := 1, srcPkg := 1, job := 1, addr := 0, arg := 64, dstEp := 12 }, ar0,
     ((partOfJob (job0 : State) ({ type := 2, flags := 1, chan := 2, npkt := 1, srcPkg := 1, job := 1, addr := 0, arg := 64, dstEp := 12 } : FabPkt).job).getD 0),
     _, pt0, job0, by decide +kernel, by decide +kernel, by decide +kernel, by decide +kernel, by decide +kernel, (by decide +kernel),
     by decide +kernel, by decide +kernel, by decide +kernel, by decide +kernel, by decide +kernel, rfl, by decide +kernel⟩,
   ⟨{ type := 3, srcPkg := 1, job := 1, payload := [1] }, ar0, hubKey 0 7, { hd0 with op := 2 },
     job0 (fun f => { f with descs := [(hubKey 0 7, { hd0 with op := 2 })] }), by decide +kernel⟩,
   ⟨{ type := 3, srcPkg := 1, job := 1, payload := [1] }, ar0, hubKey 0 7, { hd0 with op := 2, hq := some 31 },
     job0 (fun f => { f with descs := [(hubKey 0 7, { hd0 with op := 2, hq := some 31 })] }), by decide +kernel⟩,
   ⟨{ type := 4, srcPkg := 1, job := 1, arg := 1 }, ar0, hubKey 0 7, hd0, job0 (fun f => { f with descs := [(hubKey 0 7, hd0)] }),
     by decide +kernel⟩,
   ⟨{ type := 6, srcPkg := 1, job := 1, payload := [1, 15] ++ List.replicate 14 0 }, ar0,
     ((partOfJob (job0 (fun f => { f with groups := [(0, { valid := true, children := [(1, 1)] })] }) : State) ({ type := 6, srcPkg := 1, job := 1, payload := [1, 15] ++ List.replicate 14 0 } : FabPkt).job).getD 0),
     15, _, _, pt0, { valid := true, children := [(1, 1)] },
     job0 (fun f => { f with groups := [(0, { valid := true, children := [(1, 1)] })] }), by decide +kernel, by decide +kernel,
     by decide +kernel, by decide +kernel, by decide +kernel, (by decide +kernel), by decide +kernel, by decide +kernel, by decide +kernel,
     rfl, by decide +kernel, rfl, by decide +kernel⟩,
   ⟨{ type := 7, srcPkg := 1 }, ar0, { fmSeq := 5, srcPkg := 1, term := 0, epoch := 0, words := [] }, 5, [5],
     { job0 with pod := { managerPkg := 1 } }, by decide +kernel⟩,
   ⟨{ type := 5, srcPkg := 1, payload := leBytes 4 4 ++ [0, 0, 0, 0] ++ List.replicate 1024 0 }, ar0, _, _, _,
     peer1 { unackedD := [ua0 0] }, by decide +kernel, by decide +kernel, by decide +kernel, by decide +kernel, by decide +kernel,
     (by decide +kernel), rfl, by decide +kernel, by decide +kernel, by decide +kernel, rfl, rfl, by decide +kernel⟩,
   ⟨1, 1, 0, peer1 { flows := [(1, 0)], rxM := { arrivals := 1, since := some 0 } }, 0, by decide +kernel⟩,
   ⟨1, 1, 0, peer1 { rxM := { arrivals := 1, since := some 0 }, failed := true }, by decide +kernel⟩⟩

theorem witness_FabricPortRowsComplete :
    (∃ (pkg : Nat) (stream : Nat) (seq : Nat) (u : Unacked) (s : State) (port : Nat),
      (unackedOf (peerOf s pkg) stream).find? (fun u => u.p.seq == seq) = some u ∧ (peerOf s pkg).failed = false ∧ u.held = false ∧
      mgmtStopped s stream = false ∧ u.sentAt + ackTimer s ≤ s.now ∧ u.tries < 8 ∧ rateHeld s (peerOf s pkg) (classOf u.p) = false ∧
      port ∈ portsFor s pkg ∧ classOpen (portOf s port) (classOf u.p) = true) ∧
    (∃ (pkg : Nat) (stream : Nat) (seq : Nat) (u : Unacked) (s : State),
      (unackedOf (peerOf s pkg) stream).find? (fun u => u.p.seq == seq) = some u ∧ (peerOf s pkg).failed = false ∧ u.held = false ∧
      mgmtStopped s stream = false ∧ u.sentAt + ackTimer s ≤ s.now ∧ u.tries < 8 ∧ portsFor s pkg ≠ [] ∧ (∀ k,
      k ∈ portsFor s pkg → classOpen (portOf s k) (classOf u.p) = false)) ∧
    (∃ (pkg : Nat) (stream : Nat) (seq : Nat) (u : Unacked) (s : State),
      (unackedOf (peerOf s pkg) stream).find? (fun u => u.p.seq == seq) = some u ∧ (peerOf s pkg).failed = false ∧ u.held = false ∧
      mgmtStopped s stream = false ∧ u.sentAt + ackTimer s ≤ s.now ∧ 8 ≤ u.tries ∧ (s.pod.podState = 0 ∨ s.pod.role ≠ 1)) ∧
    (∃ (pkg : Nat) (i : Nat) (port : Nat) (u : Unacked) (s : State), (peerOf s pkg).failed = true ∧ (∀ x,
      (peerOf s pkg).probeAt = some x → x + 1000000 ≤ s.now) ∧ oldestOf (peerOf s pkg) (if mgmtStopped s 1 then [0] else [0, 1]) = some (i,
      u) ∧ rateHeld s (peerOf s pkg) (classOf u.p) = false ∧ port ∈ portsFor s pkg ∧ classOpen (portOf s port) (classOf u.p) = true) ∧
    (∃ (pkg : Nat) (s : State), (peerOf s pkg).ceAt + 10000 ≤ s.now) ∧
    (∃ (port : Nat) (prio : Nat) (s : State), port < 16 ∧ prio < 7 ∧ pfcEn s prio = true) ∧
    (∃ (port : Nat) (prio : Nat) (s : State), port < 16 ∧ prio < 7 ∧ pfcEn s prio = true) ∧
    (∃ (port : Nat) (prio : Nat) (s : State), port < 16 ∧ prio < 8 ∧ (pfcEn s prio = false ∨ prio = 7)) ∧
    (∃ (port : Nat) (q : Nat × Nat) (s : State), (portOf s port).queue.find? (fun q => !bitN (portOf s port).paused (prioOf q.1)) = some q ∧
      (portOf s port).link = true ∧ EngineSettled s) ∧
    (∃ (port : Nat) (since : Nat) (cause : Nat) (s : State), (portOf s port).draining = some (since, cause) ∧
      ((portOf s port).queue = [] ∨ since + 50000 ≤ s.now)) ∧
    (∃ (port : Nat) (s : State), (portOf s port).link = true) ∧
    (∃ (port : Nat) (s : State), port < 16 ∧ (portOf s port).mode ≠ 0 ∧ (portOf s port).link = false ∧ s.pkg.power < 2 ∧
      ((portOf s port).drained = false ∨ (portOf s port).drainCause = 1) ∧ (mget s.pho.cws {} port).failed = false) ∧
    (∃ (port : Nat) (s : State), running s = true ∧ port < 16 ∧ (∀ x, (mget s.fab.tel {} port).lastAt = some x → x + 1000000 ≤ s.now)) ∧
    (∃ (id : Nat) (cause : Nat) (l : List Nat) (j : MgrJob) (s : State), mgrJob s id = some j ∧ j.tearing = some (cause, l) ∧
      mgrActs s = true ∧ j.tearAt + 10000000 ≤ s.now) :=
  ⟨⟨1, 0, 3, ua0 7, peer1 { unackedD := [ua0 7] }, 0, by decide +kernel⟩,
   ⟨1, 0, 3, ua0 7, job0 (fun f => { f with peers := [(1, { unackedD := [ua0 7] })], ports := [(0, { mode := 1, link := true, closedBulk := true, closedOrd := true })] }),
     by decide +kernel⟩,
   ⟨1, 0, 3, ua0 8, peer1 { unackedD := [ua0 8] }, by decide +kernel⟩,
   ⟨1, 0, 0, ua0 8, peer1 { failed := true, unackedD := [ua0 8] }, by decide +kernel⟩,
   ⟨1, kv, by decide +kernel⟩,
   ⟨15, 6, withCfg 5 0 (2 ^ 38) job0, by decide +kernel⟩,
   ⟨15, 6, withCfg 5 0 (2 ^ 38) job0, by decide +kernel⟩,
   ⟨15, 7, kv, by decide +kernel⟩,
   ⟨15, (3, 1000), port15 { mode := 1, link := true, queue := [(3, 1000)] }, by decide +kernel⟩,
   ⟨15, 0, 1, port15 { mode := 1, draining := some (0, 1) }, by decide +kernel⟩,
   ⟨15, port15 { mode := 1, link := true, queue := [(3, 1000)] }, by decide +kernel⟩,
   ⟨15, port15 { mode := 1, drained := true, drainCause := 1 }, by decide +kernel⟩,
   ⟨15, kv, by decide +kernel⟩,
   ⟨1, 1, [5], { mj0 with tearing := some (1, [5]) },
     { mgr with fab := { mgr.fab with mgr := { jobs := [(1, { mj0 with tearing := some (1, [5]) })] } } }, by decide +kernel⟩⟩

theorem witness_WorkerCommandsComplete :
    (∃ (r : Req) (e : AddrEnt) (s : State), Reaches 0x0800 r s ∧
      parseAddr ((List.range 8).flatMap (fun i => leBytes 4 (argN r (1 + i)))) = some e) ∧
    (∃ (r : Req) (s : State), Reaches 0x0801 r s ∧ argN r 1 ≠ 0 ∧ argN r 1 ≤ 1024 ∧ argN r 0 + argN r 1 ≤ 2 ^ 20 ∧
      r.payload.length = 4 * argN r 1) ∧
    (∃ (r : Req) (gs : List GroupEnt) (s : State), Reaches 0x0802 r s ∧ argN r 1 ≠ 0 ∧ argN r 1 ≤ 28 ∧ argN r 0 + argN r 1 ≤ 16384 ∧
      r.payload.length = 144 * argN r 1 ∧ gs.length = argN r 1 ∧ (∀ i,
      i < argN r 1 → parseGroup ((r.payload.drop (144 * i)).take 144) = some (gs.getD i {}))) ∧
    (∃ (r : Req) (s : State), Reaches 0x0803 r s ∧ argN r 0 ≠ 0 ∧ argN r 1 ≤ 11 ∧ argN r 3 ≠ 0 ∧ argN r 2 + argN r 3 ≤ 2 ^ 20 ∧
      argN r 4 + argN r 5 ≤ 16384 ∧ argN r 6 ≠ 0 ∧ argN r 6 ≤ 65536 ∧ (part s (argN r 1)).isSome = true ∧ holdsJob s (argN r 1) = false ∧
      peersSum s + argN r 6 ≤ 131072) ∧
    (∃ (r : Req) (pt : Nat) (s : State), Reaches 0x0804 r s ∧ partOfJob s (argN r 0) = some pt ∧ (job s pt).written = true) ∧
    (∃ (r : Req) (pt : Nat) (s : State), Reaches 0x0805 r s ∧ partOfJob s (argN r 0) = some pt ∧
      ((job s pt).state ≠ 0 ∨ (job s pt).written = true)) ∧
    (∃ (r : Req) (s : State), Reaches 0x0805 r s ∧ partOfJob s (argN r 0) = none) ∧
    (∃ (r : Req) (s : State), Reaches 0x0806 r s ∧ argN r 0 = (s.fab.fence.gen.toNat + 1) % 2 ^ 32 ∧ bitN (argN r 1) 16 = true) ∧
    (∃ (r : Req) (s : State), Reaches 0x0806 r s ∧ argN r 0 = (s.fab.fence.gen.toNat + 1) % 2 ^ 32 ∧ bitN (argN r 1) 16 = false ∧
      argN r 1 % 2 ^ 16 = ownPkg s ∧ bitN (argN r 1) 17 = false) ∧
    (∃ (r : Req) (s : State), Reaches 0x0806 r s ∧ argN r 0 ≠ (s.fab.fence.gen.toNat + 1) % 2 ^ 32 ∧ argN r 0 ≠ s.fab.fence.gen.toNat) ∧
    (∃ (r : Req) (s : State), Reaches 0x0807 r s) ∧
    (∃ (r : Req) (s : State), Reaches 0x0808 r s ∧ argN r 0 ≤ 4) ∧
    (∃ (r : Req) (s : State), Reaches 0x080B r s) ∧
    (∃ (r : Req) (s : State), Reaches 0x0809 r s) ∧
    (∃ (r : Req) (pkg : Nat) (q : Nat) (s : State), Reaches 0x080A r s ∧ r.chan = .fm pkg q ∧ mapsOpen s = true) ∧
    (∃ (s : State), s.pod.role ≠ 1 ∧ s.fab.fence.doubt = true) ∧
    (∃ (s : State), s.pod.role = 1 ∧ mgrActs s = true ∧ s.pod.outstanding.length < 256 ∧ s.pod.waitSend = []) :=
  ⟨⟨fq [1, 1, 0, 0, 0, 0x1FFFF, 0, 0, 0],
    ((parseAddr ((List.range 8).flatMap (fun i => leBytes 4 (argN (fq [1, 1, 0, 0, 0, 0x1FFFF, 0, 0, 0] : Req) (1 + i))))).getD {}), kv,
    by decide +kernel⟩,
   ⟨fq [1048575, 1] [1, 2, 3, 4], kv, by decide +kernel⟩,
   ⟨fq [16383, 1] (groupBytes { valid := true, children := [(1, 1)] }), [{ valid := true, children := [(1, 1)] }], kv, by decide +kernel⟩,
   ⟨fq [1, 0, 1048574, 2, 16384, 0, 65536, 0], onP, by decide +kernel⟩,
   ⟨fq [1], 0, { onP with jobs := [(0, { id := 1, written := true })] }, by decide +kernel⟩,
   ⟨fq [1], 0, job0, by decide +kernel⟩,
   ⟨fq [2], job0, by decide +kernel⟩,
   ⟨fq [1, 0x10005], kv, by decide +kernel⟩,
   ⟨fq [1, 0, 0x1FFF], kv, by decide +kernel⟩,
   ⟨fq [5], kv, by decide +kernel⟩,
   ⟨fq [9], kv, by decide +kernel⟩,
   ⟨fq [4], kv, by decide +kernel⟩,
   ⟨fq [], kv, by decide +kernel⟩,
   ⟨fq [0], kv, by decide +kernel⟩,
   ⟨fq [], 0, 0, { kv with pod := { podState := 1 } }, by decide +kernel⟩,
   ⟨{ kv with fab := { fence := { doubt := true } } }, by decide +kernel⟩,
   ⟨mgr, by decide +kernel⟩⟩

theorem witness_PodAndJobRowsComplete :
    (∃ (r : Req) (s : State), Reaches 0x0810 r s ∧ bitN (argN r 3) 0 = true ∧ 5 ≤ mget s.pod.missed 0 (argN r 0) ∧ mgrActs s = true ∧
      argN r 0 ≠ ownPkg s ∧ argN r 0 < 2 ^ 16) ∧
    (∃ (r : Req) (s : State), Reaches 0x0810 r s ∧ (bitN (argN r 3) 0 = false ∨ mget s.pod.missed 0 (argN r 0) < 5)) ∧
    (∃ (r : Req) (s : State), Reaches 0x0811 r s ∧ (mgrJob s (argN r 0)).isSome = true) ∧
    (∃ (r : Req) (fs : List LineFind) (bs : List Byte) (z : State) (s : State), Reaches 0x0700 r s ∧ TicketFree s ∧ s.pod.role = 1 ∧
      bufIn s (addrArg r 1) (argN r 3) = true ∧ bufRead (addrArg r 1) (argN r 3) fs (begun 0x0700 r s) = (.data bs, z) ∧
      podCheck bs = none) ∧
    (∃ (r : Req) (fs : List LineFind) (bs : List Byte) (z : State) (s : State), Reaches 0x0703 r s ∧ TicketFree s ∧ s.pod.role = 1 ∧
      bufIn s (addrArg r 1) 48 = true ∧ bufRead (addrArg r 1) 48 fs (begun 0x0703 r s) = (.data bs, z) ∧ podCheck bs = none) ∧
    (∃ (r : Req) (s : State), Reaches 0x0704 r s ∧ TicketFree s ∧ s.pod.role = 1 ∧ s.pod.members.contains (argN r 0 % 2 ^ 16) = true ∧
      bitN (argN r 0) 21 = true ∧ s.fab.mgr.jobs.any (fun q => ranksThere q.2 (argN r 0 % 2 ^ 16) none) = false) ∧
    (∃ (r : Req) (s : State), Reaches 0x0705 r s ∧ TicketFree s ∧ argN r 0 ≤ 4 ∧ s.pod.role = 1) ∧
    (∃ (r : Req) (s : State), Reaches 0x0706 r s ∧ TicketFree s ∧ s.pod.role = 1 ∧ bufIn s (addrArg r 1) 1536 = true ∧ mapsOpen s = true ∧
      argN r 0 ≠ ownPkg s ∧ s.pod.members.contains (argN r 0) = true ∧ mgrActs s = true ∧ s.pod.outstanding.length < 256 ∧
      s.pod.waitSend = []) ∧
    (∃ (r : Req) (z : State) (s : State), Reaches 0x0706 r s ∧ TicketFree s ∧ s.pod.role = 1 ∧ bufIn s (addrArg r 1) 1536 = true ∧
      mapsOpen s = true ∧ argN r 0 = ownPkg s ∧ bufWrite (addrArg r 1) (congestionMap s) (begun 0x0706 r s) = (none, z)) ∧
    (∃ (r : Req) (fs : List LineFind) (bs : List Byte) (d : JobDesc) (self : Bool) (rb : Nat) (gb : Nat) (y : State) (z : State) (s : State),
      Reaches 0x0701 r s ∧ TicketFree s ∧ bufIn s (addrArg r 0) (argN r 2) = true ∧ argN r 2 ≠ 0 ∧
      bufRead (addrArg r 0) (argN r 2) fs (begun 0x0701 r s) = (.data bs, z) ∧ parseJob bs = .inl d ∧
      self = (s.pod.podState == 0 && (rankPkgs d.ranks).all (fun p => p == ownPkg s)) ∧
      y = (if self then writeAddr 0 { valid := true, epoch := z.fab.epoch.toNat } z else z) ∧ (self = true ∨ s.pod.podState = 3 ∧
      s.pod.role = 1) ∧ (rankPkgs d.ranks).any (fun p => (addrOf y p).isNone) = false ∧ (∀ m,
      m ∈ d.members → m % 2 ^ 16 = ownPkg s → (part s (bitsN m 16 4)).isSome = true ∧ holdsJob s (bitsN m 16 4) = false) ∧
      peersSum s + d.members.length ≤ 131072 ∧ firstFit (2 ^ 20) d.ranks.length (s.fab.mgr.jobs.map (fun q => (q.2.rankBase,
      q.2.rankCount))) = some rb ∧ firstFit 16384 d.groups.length (s.fab.mgr.jobs.map (fun q => (q.2.groupBase,
      q.2.groupCount))) = some gb) ∧
    (∃ (r : Req) (s : State), Reaches 0x0702 r s ∧ TicketFree s ∧ (mgrJob s (argN r 0)).isSome = true ∧ mgrActs s = true) ∧
    (∃ (r : Req) (s : State), Reaches 0x0702 r s ∧ TicketFree s ∧ mgrJob s (argN r 0) = none ∧ (partOfJob s (argN r 0)).isSome = true ∧
      s.pod.role ≠ 1 ∧ s.pod.podState ≠ 0) :=
  ⟨⟨{ fq [5, 0, 0, 1] with chan := .fm 5 0 }, mgr [] (fun p => { p with missed := [(5, 5)] }), by decide +kernel⟩,
   ⟨{ fq [5, 0, 0, 1] with chan := .fm 5 0 }, mgr, by decide +kernel⟩,
   ⟨{ fq [1] with chan := .fm 5 0 }, mgr, by decide +kernel⟩,
   ⟨rq [5, 0x1000, 0, 48], [], podEnt 5, (bufRead 0x1000 48 [] (begun 0x0700 (rq [5, 0x1000, 0, 48]) (mgr (podEnt 5)))).2, mgr (podEnt 5),
     by decide +kernel⟩,
   ⟨rq [5, 0x1000, 0], [], podEnt 5, (bufRead 0x1000 48 [] (begun 0x0703 (rq [5, 0x1000, 0]) (mgr (podEnt 5)))).2, mgr (podEnt 5),
     by decide +kernel⟩,
   ⟨rq [5 + 2 ^ 21], mgr, by decide +kernel⟩,
   ⟨rq [4], mgr, by decide +kernel⟩,
   ⟨rq [5, 0x1000, 0], mgr, by decide +kernel⟩,
   ⟨rq [0, 0x1000, 0], (bufWrite 0x1000 (congestionMap mgr) (begun 0x0706 (rq [0, 0x1000, 0]) mgr)).2, mgr, by decide +kernel⟩,
   ⟨rq [0x1000, 0, 24], [], (leBytes 4 1 ++ leBytes 4 0 ++ leBytes 4 1 ++ leBytes 4 0 ++ leBytes 4 0x8000 ++ leBytes 4 0),
     { ranks := [0x8000], members := [0], groups := [] }, true, 0, 0, _,
     (bufRead 0x1000 24 [] (begun 0x0701 (rq [0x1000, 0, 24]) ({ onP with mem := { m := writeBs {} 0x1000 (leBytes 4 1 ++ leBytes 4 0 ++ leBytes 4 1 ++ leBytes 4 0 ++ leBytes 4 0x8000 ++ leBytes 4 0) } }))).2,
     { onP with mem := { m := writeBs {} 0x1000 (leBytes 4 1 ++ leBytes 4 0 ++ leBytes 4 1 ++ leBytes 4 0 ++ leBytes 4 0x8000 ++ leBytes 4 0) } },
     by decide +kernel, by decide +kernel, by decide +kernel, by decide +kernel, by decide +kernel, (by decide +kernel), by decide +kernel,
     rfl, by decide +kernel⟩,
   ⟨rq [1], mgr, by decide +kernel⟩,
   ⟨rq [1], { job0 with pod := { podState := 3 } }, by decide +kernel⟩⟩

theorem witness_ManagerRowsComplete :
    (∃ (p : Nat) (s : State), s.pod.role = 1 ∧ s.pod.podState ≠ 0 ∧ leaseLive s = true ∧ s.mp.running = true ∧ (∀ x,
      s.pod.hbSentAt = some x → x + 1000000 ≤ s.now) ∧ (∀ m, m ∈ addOnce s.pod.members s.pod.standbyPkg.toNat → mget s.pod.missed 0 m < 5) ∧
      p ∈ addOnce s.pod.members s.pod.standbyPkg.toNat ∧ p ≠ ownPkg s ∧ s.fab.fence.pkgs.contains p = false ∧
      s.pod.outstanding.length + s.pod.waitSend.length + (addOnce s.pod.members s.pod.standbyPkg.toNat).length ≤ 256) ∧
    (∃ (p : Nat) (s : State), s.pod.role = 1 ∧ s.pod.podState ≠ 0 ∧ leaseLive s = true ∧ s.mp.running = true ∧ (∀ x,
      s.pod.hbSentAt = some x → x + 1000000 ≤ s.now) ∧ p ∈ addOnce s.pod.members s.pod.standbyPkg.toNat ∧ p ≠ ownPkg s ∧ p < 2 ^ 16 ∧
      5 ≤ mget s.pod.missed 0 p ∧ (∀ m, m ∈ addOnce s.pod.members s.pod.standbyPkg.toNat → m ≠ p → mget s.pod.missed 0 m < 5)) ∧
    (∃ (s : State), s.pod.role = 1 ∧ leaseLive s = false) ∧
    (∃ (s : State), s.pod.role = 2 ∧ s.mp.running = true ∧ managerSilent s = true) ∧
    (∃ (s : State), s.pod.role = 2 ∧ s.mp.running = true ∧ s.pod2.formerManager = true ∧ s.pod2.noReturn = false ∧ readyToReturn s = true) ∧
    (∃ (r : Req) (s : State), Reaches 0x0503 r s ∧ bitsN (argN r 0) 4 2 ≠ 3) ∧
    (∃ (r : Req) (s : State), Reaches 0x0504 r s ∧ bitN (argN r 0) 8 = false ∧ (portOf s (argN r 0 % 16)).draining = none ∧
      (portOf s (argN r 0 % 16)).drained = false) ∧
    (∃ (r : Req) (s : State), Reaches 0x0504 r s ∧ bitN (argN r 0) 8 = true ∧
      ((portOf s (argN r 0 % 16)).draining.isSome = true ∨ (portOf s (argN r 0 % 16)).drained = true)) :=
  ⟨⟨5, mgr, by decide +kernel⟩,
   ⟨5, mgr [] (fun p => { p with missed := [(5, 5)] }), by decide +kernel⟩,
   ⟨mgr [] (fun p => { p with leaseAt := some 0 }), by decide +kernel⟩,
   ⟨mgr [] (fun p => { p with role := 2 }), by decide +kernel⟩,
   ⟨{ mgr [] (fun p => { p with role := 2, lastHeartbeat := some (10 ^ 11) }) with mp2 := { standbySince := some 0 }, pod2 := { formerManager := true, roleLosses := 1, lostRoleAt := some 0 } },
     by decide +kernel⟩,
   ⟨rq [0x2F], kv, by decide +kernel⟩,
   ⟨rq [0xF], port15 { mode := 1 }, by decide +kernel⟩,
   ⟨rq [0x10F], port15 { mode := 1, draining := some (0, 0) }, by decide +kernel⟩⟩

theorem witness_MemoryUpkeepRowsComplete :
    (∃ (kind : Nat) (unit : Nat) (s : State), kind ≤ 2 ∧
      isPoison s.mem.m (arrayBase kind unit + 8 * (mget s.mem.scrubs {} (scrubKey kind unit)).pos) = false) ∧
    (∃ (kind : Nat) (unit : Nat) (s : State), kind ≤ 1 ∧ unit < 1536 ∧ (mget s.mem.scrubs {} (scrubKey kind unit)).pos < arrayWords kind ∧
      mfind s.mem.lastBad unit = none) ∧
    (∃ (kind : Nat), kind ≤ 2) ∧
    (∃ (p : Nat) (again : Bool) (s : State), (vcOf s p).state ≠ 3 ∧ (vcOf s p).testing = false ∧
      (if again then (vcOf s p).tries + 1 else 1) ≤ 3) ∧
    (∃ (p : Nat) (again : Bool) (s : State), (vcOf s p).state ≠ 3 ∧ (vcOf s p).testing = false ∧ again = true ∧ 3 ≤ (vcOf s p).tries) ∧
    (∃ (p : Nat) (s : State), (vcOf s p).due = true ∧ (vcOf s p).state ≠ 3) ∧
    (∃ (p : Nat) (ctrl : Bool) (s : State), (vcOf s p).testing = true ∧ ctrl = true ∧ isFenced s p = false) ∧
    (∃ (p : Nat) (ctrl : Bool) (failed : List Nat) (s : State), (vcOf s p).testing = true ∧ ctrl = false ∧ (∀ i,
      i < 8 → failed.getD i 0 = 0)) ∧
    (∃ (p : Nat) (ctrl : Bool) (failed : List Nat) (s : State), (vcOf s p).testing = true ∧ ctrl = false ∧ (vcOf s p).state < 2 ∧ (∃ i,
      i < 8 ∧ failed.getD i 0 ≠ 0) ∧ (∀ i, i < 8 → failed.getD i 0 ≤ (vcOf s p).spares.getD i 0)) ∧
    (∃ (p : Nat) (ctrl : Bool) (failed : List Nat) (s : State), (vcOf s p).testing = true ∧ ctrl = false ∧ (vcOf s p).state < 2 ∧ (∃ i,
      i < 4 ∧ (vcOf s p).spares.getD i 0 < failed.getD i 0) ∧ (∀ i, i < 8 → 4 ≤ i → failed.getD i 0 ≤ (vcOf s p).spares.getD i 0)) ∧
    (∃ (p : Nat) (s : State), (vcOf s p).state ≠ 3 ∧ (vcOf s p).testing = false) ∧
    (∃ (m : Nat) (s : State), m < hbmStacks s.pkg.part ∧ s.pkg.power < 2) ∧
    (∃ (m : Nat) (row : Nat) (s : State), (stackAt s m).due.contains row = true ∧ row < spareMark ∧
      (stackAt s m).retired.contains (row / 2 ^ 21) = false ∧ (stackAt s m).heat.contains (row / 2 ^ 21) = false ∧
      rowWaits (stackAt s m) row = false ∧ repairsUsed (stackAt s m) row < 2) ∧
    (∃ (m : Nat) (row : Nat) (s : State), (stackAt s m).due.contains row = true ∧ (stackAt s m).retired.contains (row / 2 ^ 21) = false ∧
      (stackAt s m).heat.contains (row / 2 ^ 21) = false ∧ rowWaits (stackAt s m) row = false ∧ 2 ≤ repairsUsed (stackAt s m) row) ∧
    (∃ (m : Nat) (row : Nat) (s : State), (stackAt s m).due.contains row = true ∧ (stackAt s m).retired.contains (row / 2 ^ 21) = false ∧
      (stackAt s m).heat.contains (row / 2 ^ 21) = false ∧ rowWaits (stackAt s m) row = true) ∧
    (∃ (m : Nat) (k : Copy) (s : State), (stackAt s m).spare = .copying k ∧ k.mark + 1 < chanLines) ∧
    (∃ (m : Nat) (k : Copy) (s : State), (stackAt s m).spare = .copying k ∧ chanLines ≤ k.mark + 1) ∧
    (∃ (m : Nat) (s : State), (stackAt s m).spare = .free) ∧
    (∃ (m : Nat) (k : Copy) (s : State), (stackAt s m).spare = .copying k) ∧
    (∃ (m : Nat) (ch : Nat) (s : State), (stackAt s m).spare = .inUse ch) ∧
    (∃ (m : Nat) (s : State), (stackAt s m).spare = .free) ∧
    (∃ (m : Nat) (ch : Nat) (s : State), m < hbmStacks s.pkg.part ∧ ch < 32 ∧ s.pkg.power < 2 ∧ (stackAt s m).spare = .free ∧
      (stackAt s m).retired.contains ch = false) ∧
    (∃ (r : Req) (s : State), Reaches 0x0300 r s ∧ argN r 0 < hbmStacks s.pkg.part) ∧
    (∃ (r : Req) (z : State) (s : State), Reaches 0x0301 r s ∧ TicketFree s ∧ argN r 0 < hbmStacks s.pkg.part ∧
      inHbm s.pkg.part (addrArg r 1) (argN r 3) = true ∧
      bufWrite (addrArg r 1) (((granules s (argN r 0)).take (argN r 3 / 8)).flatMap (fun x => leBytes 8 x)) (begun 0x0301 r s) = (none,
      z)) ∧
    (∃ (r : Req) (s : State), Reaches 0x0302 r s ∧ 6 ≤ argN r 1 ∧ argN r 1 ≤ 72 ∧ argN r 0 < tilesOf s.pkg.part) :=
  ⟨⟨2, 0, kv, by decide +kernel⟩,
   ⟨1, 1535, kv, by decide +kernel⟩,
   ⟨2, by decide +kernel⟩,
   ⟨0, true, vc0 { tries := 2 }, by decide +kernel⟩,
   ⟨0, true, vc0 { tries := 3 }, by decide +kernel⟩,
   ⟨0, vc0 { due := true }, by decide +kernel⟩,
   ⟨0, true, vc0 { testing := true }, by decide +kernel⟩,
   ⟨0, _, [], vc0 { testing := true }, by decide +kernel, rfl, by decide +kernel⟩,
   ⟨0, _, [8], vc0 { testing := true }, by decide +kernel, rfl, by decide +kernel⟩,
   ⟨0, _, [9], vc0 { testing := true }, by decide +kernel, rfl, by decide +kernel⟩,
   ⟨0, kv, by decide +kernel⟩,
   ⟨15, kv, by decide +kernel⟩,
   ⟨15, 0, hbm15 { due := [0], used := [(bankKey 0, 1)] }, by decide +kernel, by decide +kernel, by decide +kernel, by decide +kernel,
     by decide +kernel, by simp [repairsUsed, rowOnSpare, stackAt, hbm15, mget, mfind]⟩,
   ⟨15, 0, hbm15 { due := [0], used := [(bankKey 0, 2)] }, by decide +kernel, by decide +kernel, by decide +kernel, by decide +kernel,
     by simp [repairsUsed, rowOnSpare, stackAt, hbm15, mget, mfind]⟩,
   ⟨15, 31 * 2 ^ 21, hbm15 { due := [31 * 2 ^ 21], spare := .copying { chan := 31, trigger := 2 } }, by decide +kernel⟩,
   ⟨15, { chan := 31, trigger := 2 }, hbm15 { spare := .copying { chan := 31, trigger := 2 } }, by decide +kernel⟩,
   ⟨15, { chan := 31, trigger := 2, mark := chanLines - 1, heldRows := [5] },
     hbm15 { spare := .copying { chan := 31, trigger := 2, mark := chanLines - 1, heldRows := [5] } }, by decide +kernel⟩,
   ⟨15, kv, by decide +kernel⟩,
   ⟨15, { chan := 31, trigger := 2, mark := chanLines - 1, heldRows := [5] },
     hbm15 { spare := .copying { chan := 31, trigger := 2, mark := chanLines - 1, heldRows := [5] } }, by decide +kernel⟩,
   ⟨15, 31, hbm15 { spare := .inUse 31 }, by decide +kernel⟩,
   ⟨15, kv, by decide +kernel⟩,
   ⟨15, 31, kv, by decide +kernel⟩,
   ⟨rq [15], kv, by decide +kernel⟩,
   ⟨rq [15, 0x1000, 0, 8],
     (bufWrite 0x1000 (((granules kv 15).take 1).flatMap (fun x => leBytes 8 x)) (begun 0x0301 (rq [15, 0x1000, 0, 8]) kv)).2, kv,
     by decide +kernel⟩,
   ⟨rq [3, 72], kv, by decide +kernel⟩⟩

theorem witness_PartitionAndPlanRowsComplete :
    (∃ (r : Req) (st : Nat) (mode : Nat) (owner : Nat) (s : State), Reaches 0x0100 r s ∧ argN r 0 < stacksOf s.pkg.part ∧
      st = bitsN (argN r 1) 0 12 ∧ mode = bitsN (argN r 1) 16 4 ∧ owner = bitsN (argN r 1) 20 2 ∧ 1 ≤ mode ∧ mode ≤ 4 ∧ owner ≠ 3 ∧ st ≠ 0 ∧
      (∀ n, n ∈ onesOf 12 st → siteAbsent s (siteKC n) = false ∧ siteUp s (siteKC n) = true ∧ partOfStack s n = none ∧
      mfind s.rel.stackF n = none ∧ (dieClk s (siteKC n)).stepped = true) ∧ part s (argN r 0) = none ∧ testHolds s st = false) ∧
    (∃ (r : Req) (p : Part) (s : State), Reaches 0x0101 r s ∧ argN r 0 < stacksOf s.pkg.part ∧ part s (argN r 0) = some p ∧ p.plan ≤ 1 ∧
      holdsJob s (argN r 0) = false) ∧
    (∃ (r : Req) (p : Part) (pt : Nat) (w : Nat) (s : State), Reaches 0x0102 r s ∧ pt = bitsN (argN r 0) 0 4 ∧ w = bitsN (argN r 0) 8 4 ∧
      pt < stacksOf s.pkg.part ∧ part s pt = some p ∧ bitN (argN r 0) 18 = true) ∧
    (∃ (r : Req) (p : Part) (pt : Nat) (w : Nat) (s : State), Reaches 0x0102 r s ∧ pt = bitsN (argN r 0) 0 4 ∧ w = bitsN (argN r 0) 8 4 ∧
      pt < stacksOf s.pkg.part ∧ part s pt = some p ∧ bitN (argN r 0) 18 = false ∧ addrArg r 1 % 2 ^ 21 = 0 ∧ addrArg r 3 % 2 ^ 21 = 0) ∧
    (∃ (r : Req) (p : Part) (pt : Nat) (mode : Nat) (s : State), Reaches 0x0103 r s ∧ pt = bitsN (argN r 0) 0 4 ∧
      mode = bitsN (argN r 0) 16 4 ∧ pt < stacksOf s.pkg.part ∧ part s pt = some p ∧ 1 ≤ mode ∧ mode ≤ 4) ∧
    (∃ (r : Req) (p : Part) (h : Bool) (z : State) (s : State), Reaches 0x0104 r s ∧ argN r 0 < stacksOf s.pkg.part ∧
      part s (argN r 0) = some p ∧ cfgWrite true 8 (argN r 0) (argN r 1) 2 s = .done z h) ∧
    (∃ (r : Req) (p : Part) (s : State), Reaches 0x0105 r s ∧ argN r 0 < stacksOf s.pkg.part ∧ part s (argN r 0) = some p ∧ p.plan ≤ 1 ∧
      holdsJob s (argN r 0) = false) ∧
    (∃ (r : Req) (p : Part) (s : State), Reaches 0x0106 r s ∧ argN r 0 < stacksOf s.pkg.part ∧ part s (argN r 0) = some p) ∧
    (∃ (r : Req) (fs : List LineFind) (p : Part) (flags : Nat) (l : List (Nat × List Byte)) (z : State) (s : State), Reaches 0x0110 r s ∧
      TicketFree s ∧ argN r 0 < stacksOf s.pkg.part ∧ part s (argN r 0) = some p ∧ testHolds s p.stackSet = false ∧
      planFind p (addrArg r 1) fs (begun 0x0110 r s) = (.inr (flags, l), z) ∧ (l.map (·.1)).Nodup ∧ EngineIdle s ∧ (∀ q,
      q ∈ l → q.2.length ≤ 524288)) ∧
    (∃ (r : Req) (p : Part) (s : State), Reaches 0x0111 r s ∧ argN r 0 < stacksOf s.pkg.part ∧ part s (argN r 0) = some p ∧ p.plan = 1 ∧
      unstepped s p = false ∧ testHolds s p.stackSet = false) ∧
    (∃ (r : Req) (p : Part) (s : State), Reaches 0x0112 r s ∧ argN r 0 < stacksOf s.pkg.part ∧ part s (argN r 0) = some p) ∧
    (∃ (r : Req) (p : Part) (s : State), Reaches 0x0113 r s ∧ argN r 0 < stacksOf s.pkg.part ∧ part s (argN r 0) = some p ∧ p.plan = 1) ∧
    (∃ (pt : Nat) (p : Part) (s : State), part s pt = some p ∧ (p.plan = 4 ∨ p.plan = 3 ∧ p.runs = some 1) ∧ tokensSettled s p = true) ∧
    (∃ (pt : Nat) (p : Part) (s : State), part s pt = some p ∧ p.plan = 3 ∧ p.runs = none ∧ tokensSettled s p = true ∧ p.left = false ∧
      p.retire = [] ∧ s.cores.toSpare = []) :=
  ⟨⟨rq [11, 0x240FFF], _, _, _, kv, by decide +kernel, by decide +kernel, rfl, rfl, rfl, by decide +kernel⟩,
   ⟨rq [0], pl 1, onPl 1, by decide +kernel⟩,
   ⟨rq [0x40F00], pt0, _, _, onP, by decide +kernel, rfl, rfl, by decide +kernel⟩,
   ⟨rq [0x30F00, 0x200000, 0, 0x200000, 0], pt0, _, _, onP, by decide +kernel, rfl, rfl, by decide +kernel⟩,
   ⟨rq [0x40000], pt0, _, _, onP, by decide +kernel, rfl, rfl, by decide +kernel⟩,
   ⟨rq [0, 0x4001], pt0, (match cfgWrite true 8 0 0x4001 2 onP with | .done _ b => b | _ => false),
     (match cfgWrite true 8 0 0x4001 2 onP with | .done z _ => z | _ => kv), onP, by decide +kernel⟩,
   ⟨rq [0], pl 1, onPl 1, by decide +kernel⟩,
   ⟨rq [0], pl 1, onPl 1, by decide +kernel⟩,
   ⟨rq [0, 0x1000, 0], [], pl 1, 0, [(0, leBytes 8 (2 ^ 52))],
     (planFind (pl 1) 0x1000 [] (begun 0x0110 (rq [0, 0x1000, 0]) (withMem planImg (onPl 1)))).2, withMem planImg (onPl 1),
     by decide +kernel⟩,
   ⟨rq [0, 1], pl 1, onPl 1, by decide +kernel⟩,
   ⟨rq [0], pt0, onP, by decide +kernel⟩,
   ⟨rq [0], pl 1, onPl 1, by decide +kernel⟩,
   ⟨0, pl 4, onPl 4, by decide +kernel⟩,
   ⟨0, pl 3, onPl 3, by decide +kernel⟩⟩

theorem witness_ContextAndSyncCommandsComplete :
    (∃ (r : Req) (c : Nat) (z : State) (s : State), Reaches 0x0200 r s ∧ TicketFree s ∧ CoreNamed s (argN r 0) c ∧ badArea s r = none ∧
      coreIdle s c = true ∧ argN r 1 = 0 ∧ bufWrite (addrArg r 2) (ctxBytes s c) (begun 0x0200 r s) = (none, z)) ∧
    (∃ (r : Req) (fs : List LineFind) (c : Nat) (l : List (Nat × List Byte)) (k : Ctx) (z : State) (s : State), Reaches 0x0201 r s ∧
      TicketFree s ∧ CoreNamed s (argN r 0) c ∧ badArea s r = none ∧ coreIdle s c = true ∧ ctxGather r fs (begun 0x0201 r s) = ((none, l),
      z) ∧ ctxParse (mget l [] 2) = some k) ∧
    (∃ (r : Req) (c : Nat) (s : State), Reaches 0x0202 r s ∧ CoreNamed s (argN r 0) c ∧ coreIdle s c = true) ∧
    (∃ (r : Req) (f : LaneFind) (c : Nat) (s : State), Reaches 0x0203 r s ∧ TicketFree s ∧ CoreNamed s (argN r 0) c ∧
      isFenced s (spareOf c) = false ∧ spareUsed s (spareOf c) = false ∧
      (laneCase (vcOf s (spareOf c)) f = .clean ∨ laneCase (vcOf s (spareOf c)) f = .repair) ∧ coreIdle s c = true) ∧
    (∃ (r : Req) (c : Nat) (pt : Nat) (p : Part) (s : State), Reaches 0x0203 r s ∧ TicketFree s ∧ CoreNamed s (argN r 0) c ∧
      isFenced s (spareOf c) = false ∧ spareUsed s (spareOf c) = false ∧ coreParts s c = some pt ∧ part s pt = some p ∧ 3 ≤ p.plan) ∧
    (∃ (r : Req) (c : Nat) (n : Nat) (s : State), Reaches 0x0210 r s ∧ CoreNamed s (argN r 1) c ∧ n = bitsN (argN r 2) 0 5 ∧ argN r 0 = 0) ∧
    (∃ (r : Req) (c : Nat) (n : Nat) (s : State), Reaches 0x0210 r s ∧ CoreNamed s (argN r 1) c ∧ n = bitsN (argN r 2) 0 5 ∧ argN r 0 = 1 ∧
      n ≤ 15) ∧
    (∃ (r : Req) (pt : Nat) (st : Nat) (cl : Nat) (n : Nat) (p : Part) (s : State), Reaches 0x0210 r s ∧ argN r 0 = 2 ∧
      pt = bitsN (argN r 1) 0 4 ∧ st = bitsN (argN r 1) 8 4 ∧ cl = bitsN (argN r 1) 5 3 ∧ n = bitsN (argN r 2) 0 5 ∧ n ≤ 15 ∧
      pt < stacksOf s.pkg.part ∧ st < 12 ∧ part s pt = some p ∧ bitN p.stackSet st = true) ∧
    (∃ (r : Req) (c : Nat) (n : Nat) (v : Nat) (s : State), Reaches 0x0211 r s ∧ debugEn s = true ∧ CoreNamed s (argN r 1) c ∧ argN r 0 = 0 ∧
      n = bitsN (argN r 2) 0 5 ∧ argN r 3 = 0 ∧ v = argN r 4 + 2 ^ 32 * argN r 5 ∧ v ≤ 65535) ∧
    (∃ (r : Req) (c : Nat) (n : Nat) (v : Nat) (s : State), Reaches 0x0211 r s ∧ debugEn s = true ∧ CoreNamed s (argN r 1) c ∧ argN r 0 = 1 ∧
      n = bitsN (argN r 2) 0 5 ∧ n ≤ 15 ∧ argN r 3 = 3 ∧ v = argN r 4 + 2 ^ 32 * argN r 5 ∧ v ≤ 1023) ∧
    (∃ (r : Req) (c : Nat) (p : Part) (s : State), Reaches 0x0212 r s ∧ debugEn s = true ∧ CoreNamed s (argN r 0) c ∧
      (coreParts s c).bind (part s) = some p ∧ p.mode = 4 ∧ argN r 1 = 0) ∧
    (∃ (r : Req) (c : Nat) (p : Part) (s : State), Reaches 0x0212 r s ∧ debugEn s = true ∧ CoreNamed s (argN r 0) c ∧
      (coreParts s c).bind (part s) = some p ∧ p.mode = 4 ∧ argN r 1 = 1) ∧
    (∃ (r : Req) (c : Nat) (p : Part) (s : State), Reaches 0x0212 r s ∧ debugEn s = true ∧ CoreNamed s (argN r 0) c ∧
      (coreParts s c).bind (part s) = some p ∧ p.mode = 4 ∧ argN r 1 = 2 ∧ (coreAt s c).cond = .brk ∧ (coreAt s c).wait = .none ∧
      NotLast c s) :=
  ⟨⟨rq [0, 0, 0x1000, 0], 0, (bufWrite (addrArg (rq [0, 0, 0x1000, 0]) 2) (ctxBytes kv 0) (begun 0x0200 (rq [0, 0, 0x1000, 0]) kv)).2, kv,
    by decide +kernel, by decide +kernel, by decide +kernel, by decide +kernel, by decide +kernel, (by decide +kernel), pair_eq save_fits⟩,
   ⟨rq [0, 0, 0x1000, 0], [], 0, [(2, getBs (ctxIn).mem.m 0x1000 25600)], (ctxParse (getBs ctxIn.mem.m 0x1000 25600)).getD {},
     (ctxGather (rq [0, 0, 0x1000, 0]) [] (begun 0x0201 (rq [0, 0, 0x1000, 0]) (ctxIn))).2, ctxIn, by decide +kernel, by decide +kernel,
     by decide +kernel, by decide +kernel, by decide +kernel, pair_eq ctxIn_read, ctxIn_parse⟩,
   ⟨rq [0], 0, kv, by decide +kernel⟩,
   ⟨rq [0], {}, 0, kv, by decide +kernel⟩,
   ⟨rq [0], 0, 0, pl 3, onPl 3, by decide +kernel⟩,
   ⟨rq [0, 0, 31], 0, _, kv, by decide +kernel, by decide +kernel, rfl, by decide +kernel⟩,
   ⟨rq [1, 0, 15], 0, _, kv, by decide +kernel, by decide +kernel, rfl, by decide +kernel⟩,
   ⟨rq [2, 0xE0, 15], _, _, _, _, pt0, onP, by decide +kernel, by decide +kernel, rfl, rfl, rfl, rfl, by decide +kernel⟩,
   ⟨rq [0, 0, 31, 0, 65535, 0], 0, _, _, withCfg 2 0 1 kv, by decide +kernel, by decide +kernel, by decide +kernel, by decide +kernel, rfl,
     by decide +kernel, rfl, by decide +kernel⟩,
   ⟨rq [1, 0, 15, 3, 1023, 0], 0, _, _, withCfg 2 0 1 kv, by decide +kernel, by decide +kernel, by decide +kernel, by decide +kernel, rfl,
     by decide +kernel, by decide +kernel, rfl, by decide +kernel⟩,
   ⟨rq [0, 0], 0, { pt0 with mode := 4 }, withCfg 2 0 1 (onP { pt0 with mode := 4 }), by decide +kernel⟩,
   ⟨rq [0, 1], 0, { pt0 with mode := 4 }, withCfg 2 0 1 (onP { pt0 with mode := 4 }), by decide +kernel⟩,
   ⟨rq [0, 2], 0, { pt0 with mode := 4 }, withCfg 2 0 1 (setCore (core0 [0, 0] {} { pt0 with mode := 4 }) 0 { cond := .brk, words := 2 }),
     by decide +kernel⟩⟩

theorem witness_PipAndQueueCommandsComplete :
    (∃ (r : Req) (k : Nat) (c : Nat) (s : State), Reaches 0x0500 r s ∧ k = bitsN (argN r 0) 0 5 ∧ k ≠ 31 ∧ bitN (argN r 0) 8 = false ∧
      CoreNamed s (argN r 1) c ∧ (coreParts s c).isSome = true) ∧
    (∃ (r : Req) (k : Nat) (s : State), Reaches 0x0500 r s ∧ k = bitsN (argN r 0) 0 5 ∧ k ≠ 31 ∧ bitN (argN r 0) 8 = true) ∧
    (∃ (r : Req) (k : Nat) (s : State), Reaches 0x0501 r s ∧ k = bitsN (argN r 0) 0 5 ∧ k ≠ 31 ∧ bitN (argN r 0) 8 = false ∧
      addrArg r 1 % 8 = 0 ∧ inHbm s.pkg.part (addrArg r 1) 8 = true ∧ s.hp.pipOut.any (fun q => q.1 != k && q.2 == addrArg r 1) = false) ∧
    (∃ (r : Req) (k : Nat) (s : State), Reaches 0x0501 r s ∧ k = bitsN (argN r 0) 0 5 ∧ k ≠ 31 ∧ bitN (argN r 0) 8 = true) ∧
    (∃ (r : Req) (q : Nat) (pt : Nat) (p : Part) (s : State), Reaches 0x0502 r s ∧ q = bitsN (argN r 0) 0 5 ∧ pt = bitsN (argN r 0) 8 4 ∧
      bitN (argN r 0) 12 = false ∧ bitN (argN r 0) 13 = false ∧ pt < stacksOf s.pkg.part ∧ part s pt = some p ∧
      (mget s.fab.hqs {} q).open_ = 0 ∧ (mget s.fab.hqs {} q).descs = [] ∧ (mget s.fab.hqs {} q).owner = none ∧ holdsJob s pt = false) ∧
    (∃ (r : Req) (q : Nat) (s : State), Reaches 0x0502 r s ∧ q = bitsN (argN r 0) 0 5 ∧ bitsN (argN r 0) 8 4 = 0 ∧
      bitN (argN r 0) 12 = true ∧ bitN (argN r 0) 13 = false ∧ (mget s.fab.hqs {} q).open_ = 0 ∧ (mget s.fab.hqs {} q).descs = [] ∧
      (mget s.fab.hqs {} q).owner = none ∧ holdsJob s (enginePart s) = false) ∧
    (∃ (r : Req) (q : Nat) (o : Nat) (s : State), Reaches 0x0502 r s ∧ q = bitsN (argN r 0) 0 5 ∧ bitsN (argN r 0) 8 4 = 0 ∧
      bitN (argN r 0) 12 = false ∧ bitN (argN r 0) 13 = true ∧ (mget s.fab.hqs {} q).open_ = 0 ∧ (mget s.fab.hqs {} q).descs = [] ∧
      (mget s.fab.hqs {} q).owner = some o ∧ holdsJob s (if o = 12 then enginePart s else o) = false) :=
  ⟨⟨rq [30, 0, 31], _, 0, onP, by decide +kernel, rfl, by decide +kernel⟩,
   ⟨rq [30 + 256], _, kv, by decide +kernel, rfl, by decide +kernel⟩,
   ⟨rq [30, 0x1000, 0], _, kv, by decide +kernel, rfl, by decide +kernel⟩,
   ⟨rq [30 + 256], _, kv, by decide +kernel, rfl, by decide +kernel⟩,
   ⟨rq [31], _, _, pt0, onP, by decide +kernel, rfl, rfl, by decide +kernel⟩,
   ⟨rq [31 + 4096], _, kv, by decide +kernel, rfl, by decide +kernel⟩,
   ⟨rq [31 + 8192], _, 12, { kv with fab := { hqs := [(31, { owner := some 12 })] } }, by decide +kernel, rfl, by decide +kernel⟩⟩

theorem witness_RecordRowsComplete :
    (∃ (p : Peer10) (rec : List Byte) (n : Nat) (s : State), RecordTaken s rec 3 ∧ PeerOpen s p ∧ p.session < 2 ^ 20 ∧ p.nonce < 2 ^ 32 ∧
      areaOk s = true ∧ freeSession 1048576 0 s = some n ∧ sessField s n 0 1 = 0 ∧ LineClean s (sessAddr s n) ∧ EngineSettled s) ∧
    (∃ (p : Peer10) (rec : List Byte) (s : State), RecordTaken s rec 5 ∧ PeerOpen s p ∧ SessionHeld s p ∧ EngineSettled s) ∧
    (∃ (p : Peer10) (rec : List Byte) (s : State), RecordTaken s rec 4 ∧ PeerOpen s p ∧ SessionHeld s p ∧ EngineSettled s) ∧
    (∃ (p : Peer10) (rec : List Byte) (w : Nat) (s : State), RecordTaken s rec 1 ∧ PeerOpen s p ∧ KeyAdmitted s p rec w) ∧
    (∃ (p : Peer10) (rec : List Byte) (w : Nat) (s : State), RecordTaken s rec 2 ∧ PeerOpen s p ∧ KeyAdmitted s p rec w) :=
  ⟨⟨⟨0, 0, false, 1, 2⟩, rec0 3, 0, srv, by decide +kernel⟩,
   ⟨peer0, rec0 5, srv, by decide +kernel⟩,
   ⟨peer0, rec0 4, srv, by decide +kernel⟩,
   ⟨peer0, rec0 1, 0, srv, by decide +kernel⟩,
   ⟨peer0, rec0 2, 0, srv, by decide +kernel⟩⟩

theorem witness_BatchRowsComplete :
    (∃ (port : Nat) (ip : Nat) (peer : Nat) (bs : List Byte) (p : Peer10) (s : State), running s = true ∧ portUp s port = true ∧
      2 ≤ s.eng.state ∧ badFrame bs = false ∧ p = ⟨fieldAt bs 4 4, fieldAt bs 8 4, false, ip, peer⟩ ∧ SessionHeld s p ∧ (∀ rec,
      rec ∈ chunks 128 64 (bs.drop 16) → badRecord rec = false ∧ fieldAt rec 0 1 = 5)) ∧
    (∃ (port : Nat) (bs : List Byte) (s : State), running s = true ∧ portUp s port = true ∧ badFrame bs = true ∧ EngineSettled s) ∧
    (∃ (s : State), running s = true ∧ hostEn s = true ∧ s.hp.h2dPending.getLsbD 31 = true ∧ areaOk s = true ∧
      ringIndex s 0 = ringIndex s 1) ∧
    (∃ (bs : List Byte) (rec : List Byte) (p : Peer10) (s : State), running s = true ∧ hostEn s = true ∧ s.hp.h2dPending.getLsbD 31 = true ∧
      2 ≤ s.eng.state ∧ s.eng.hostOut = 0 ∧ (ringIndex s 2 + 2 ^ 64 - ringIndex s 3) % 2 ^ 64 < 32768 ∧
      ringIndex s 0 = (ringIndex s 1 + 1) % 2 ^ 64 ∧ bs = getBs s.mem.m (reqEntry s (ringIndex s 1)) 80 ∧ (∀ i,
      i < 2 → LineClean s (reqEntry s (ringIndex s 1) + 64 * i)) ∧ badFrame bs = false ∧ rec = bs.drop 16 ∧ p = ⟨fieldAt bs 4 4,
      fieldAt bs 8 4, true, 0, 0⟩ ∧ SessionHeld s p ∧ badRecord rec = false ∧ fieldAt rec 0 1 = 5 ∧ LineClean s (ringCtl s 0) ∧
      EngineSettled s) ∧
    (∃ (s : State), s.eng.openB ≠ [] ∧ s.eng.closedB = none ∧ s.eng.state = 3 ∧ EngineSettled s ∧ closesNow s = true) ∧
    (∃ (b : EBatch) (p : Part) (k : Nat) (hq : Nat) (s : State), s.eng.closedB = some b ∧ engineQueue s = some hq ∧
      part s (enginePart s) = some p ∧ s.eng.state = 3 ∧ EngineSettled s ∧ k = s.eng.next % inflight s ∧ mfind s.eng.slots k = none ∧
      b.reqs ≠ [] ∧ (∀ q, q ∈ b.reqs → ∀ x, x ∈ s.eng.slots → ∀ r, r ∈ x.2.reqs → fieldAt r.recd 8 8 ≠ fieldAt q.recd 8 8) ∧ (∀ q,
      q ∈ b.reqs → estUs s = 0 ∨ engNow s + 16000 * estUs s ≤ q.deadline) ∧ areaOk s = true ∧ LineClean s (slotAddr s k) ∧
      s.eng.openB.length < batchMax s) ∧
    (∃ (b : EBatch) (k : Nat) (rest : List Nat) (s : State), s.eng.returned = k :: rest ∧ mfind s.eng.slots k = some b ∧ s.eng.state = 3 ∧
      EngineSettled s ∧ areaOk s = true ∧ k < 8 ∧ (∀ e, e ∈ s.eng.cache → e.n < 2 ^ 20)) ∧
    (∃ (s : State), s.eng.state = 3 ∧ EngineSettled s ∧ (∀ e, e ∈ s.eng.cache → e.n < 2 ^ 20)) ∧
    (∃ (n : Nat) (s : State), 2 ≤ s.eng.state ∧ n < 2 ^ 20 ∧ areaOk s = true ∧ LineClean s (sessAddr s n) ∧ sessField s n 0 1 = 1 ∧
      sessField s n 0xC 4 ≠ 0 ∧ sessField s n 0x30 4 = 0 ∧ sessField s n 0x28 8 + 16000000 * sessField s n 0xC 4 ≤ engNow s ∧
      EngineSettled s) :=
  ⟨⟨0, 1, 2, frame0 5, peer0, srv, by decide +kernel⟩,
   ⟨0, [], srv, by decide +kernel⟩,
   ⟨srv, by decide +kernel⟩,
   ⟨frame0 5, rec0 5, ⟨7, 9, true, 0, 0⟩, srv {} 1 (fun m => writeBs (writeBs m 0x24801000 (leBytes 8 1)) 0x24801040 (frame0 5)),
     by decide +kernel⟩,
   ⟨{ srv { openB := [er0] } with clk := { srv.clk with dies := srv.clk.dies.map (fun q => (q.1, { q.2 with gtc := 10 ^ 12 })) } },
     by decide +kernel⟩,
   ⟨{ reqs := [er0], closedAt := 0 }, { pt0 with mode := 3 }, 0,
     ((engineQueue (srv { closedB := some { reqs := [er0], closedAt := 0 } } : State)).getD 0),
     srv { closedB := some { reqs := [er0], closedAt := 0 } }, by decide +kernel⟩,
   ⟨{ reqs := [er0], closedAt := 0 }, 0, [], srv { slots := [(0, { reqs := [er0], closedAt := 0 })], returned := [0] }, by decide +kernel⟩,
   ⟨srv { openB := [er0] }, by decide +kernel⟩,
   ⟨7, { srv with clk := { srv.clk with dies := srv.clk.dies.map (fun q => (q.1, { q.2 with gtc := 10 ^ 12 })) } }, by decide +kernel⟩⟩

theorem witness_EngineCommandsComplete :
    (∃ (r : Req) (b : Nat) (w : Nat) (bk : List Byte) (s : State), Reaches 0x0600 r s ∧ TicketFree s ∧ keyArg r 2 % 64 = 0 ∧
      inHbm s.pkg.part (keyArg r 2) (argN r 4) = true ∧ argN r 4 % 64 = 0 ∧ 64 ≤ argN r 4 ∧ argN r 4 ≤ 16777216 ∧ b = bucketOf (keyArg r 0) ∧
      BucketClean s b ∧ bk = bucketBytes s b ∧ (wayOf bk (keyArg r 0)).or (freeWay bk) = some w ∧ EngineSettled s ∧ heldReqs s.eng = []) ∧
    (∃ (r : Req) (b : Nat) (w : Nat) (bk : List Byte) (s : State), Reaches 0x0601 r s ∧ TicketFree s ∧ b = bucketOf (keyArg r 0) ∧
      BucketClean s b ∧ bk = bucketBytes s b ∧ wayOf bk (keyArg r 0) = some w ∧ EngineSettled s ∧ heldReqs s.eng = []) ∧
    (∃ (r : Req) (b : Nat) (w : Nat) (bk : List Byte) (s : State), Reaches 0x0602 r s ∧ b = bucketOf (keyArg r 0) ∧ BucketClean s b ∧
      bk = bucketBytes s b ∧ wayOf bk (keyArg r 0) = some w) ∧
    (∃ (r : Req) (s : State), Reaches 0x0603 r s ∧ TicketFree s ∧ BucketClean s (argN r 0) ∧ EngineSettled s ∧ heldReqs s.eng = []) ∧
    (∃ (r : Req) (s : State), Reaches 0x0604 r s ∧ areaOk s = true ∧ LineClean s (sessAddr s (argN r 0)) ∧ sessField s (argN r 0) 0 1 ≤ 2) ∧
    (∃ (r : Req) (s : State), Reaches 0x0605 r s ∧ areaOk s = true ∧ LineClean s (sessAddr s (argN r 0)) ∧ sessField s (argN r 0) 0 1 = 1 ∧
      EngineSettled s) :=
  ⟨⟨rq [6, 0, 0x30000000, 0, 64, 0, 0, 0], bucketOf 6, 0, _, srv, by decide +kernel, by decide +kernel, by decide +kernel,
    by decide +kernel, by decide +kernel, (by decide +kernel), by decide +kernel, by decide +kernel, by decide +kernel, rfl,
    by decide +kernel⟩,
   ⟨rq [5, 0], bucketOf 5, 0, _, srv, by decide +kernel, by decide +kernel, by decide +kernel, by decide +kernel, rfl, by decide +kernel⟩,
   ⟨rq [5, 0], bucketOf 5, 0, _, srv, by decide +kernel, by decide +kernel, by decide +kernel, rfl, by decide +kernel⟩,
   ⟨rq [4194303], srv, by decide +kernel⟩,
   ⟨rq [7], srv, by decide +kernel⟩,
   ⟨rq [7], srv, by decide +kernel⟩⟩

theorem witness_RingRowsComplete :
    (∃ (b : Nat) (l : Nat) (cur : Nat) (s : State), (chOf s b l).st ≠ 0 ∧ (chOf s b l).txLoop.st < 2 ∧
      (1024 ≤ cur * 20 ∨ (chOf s b l).txLoop.low < 7)) ∧
    (∃ (b : Nat) (l : Nat) (cur : Nat) (s : State), (chOf s b l).st ≠ 0 ∧ (chOf s b l).rxLoop.st < 2 ∧
      (1024 ≤ cur * 20 ∨ (chOf s b l).rxLoop.low < 7)) ∧
    (∃ (b : Nat) (l : Nat) (cur : Nat) (s : State), (chOf s b l).st ≠ 0 ∧ cur * 20 < 1024 ∧ (chOf s b l).txLoop.st ≠ 3 ∧
      7 ≤ (chOf s b l).txLoop.low) ∧
    (∃ (b : Nat) (l : Nat) (d : Nat) (s : State), (chOf s b l).txLoop.st = 2 ∧ (chOf s b l).txLoop.darkAt = some d ∧ d + 10 ^ 6 ≤ s.now ∧
      lineHealthy s b l = true ∧ (chOf s b l).st ≠ 9 ∧ (chOf s b l).st ≠ 7 ∧ (chOf s b l).st ≠ 0) ∧
    (∃ (b : Nat) (l : Nat) (s : State), lineHealthy s b l = false) ∧
    (∃ (b : Nat) (l : Nat) (n : Nat) (s : State), b < 452 ∧ l < 18 ∧ n < 18 ∧ (chOf s b l).st ≠ 0 ∧ (chOf s b l).st ≠ 9) ∧
    (∃ (b : Nat) (l : Nat) (b' : Nat) (l' : Nat) (n : Nat) (s : State), b' < 452 ∧ l' < 18 ∧ n < 18 ∧ (b' ≠ b ∨ l' ≠ l) ∧
      (chOf s b l).st ≠ 0 ∧ (chOf s b l).st ≠ 9 ∧ (chOf s b l).mism = 0) ∧
    (∃ (b : Nat) (l : Nat) (b' : Nat) (l' : Nat) (n : Nat) (s : State), b' < 452 ∧ l' < 18 ∧ n < 18 ∧ (b' ≠ b ∨ l' ≠ l) ∧
      (chOf s b l).st ≠ 0 ∧ (chOf s b l).st ≠ 9 ∧ 0 < (chOf s b l).mism) ∧
    (∃ (w : Word32), identOk w = false) ∧
    (∃ (b : Nat) (s : State), (bundleOf s b).lit = true) ∧
    (∃ (v : Nat) (spc : Nat) (fsr : Nat) (k : Nat) (seen : List Nat), settleCode v spc fsr seen = some k) ∧
    (∃ (b : Nat) (l : Nat) (x : Nat) (y : Nat) (tr : List Nat) (rr : List Nat) (s : State), l < 18 ∧ (chOf s b l).st = 7 ∧
      (if bitN (chOf s b l).rings 0 then settleCode (ringCode s b l 0) (entOf s b l).txSpc (entOf s b l).txFsr tr else some (chOf s b l).tx) = some x ∧
      (if bitN (chOf s b l).rings 1 then settleCode (ringCode s b l 1) (entOf s b l).rxSpc (entOf s b l).rxFsr rr else some (chOf s b l).rx) = some y ∧
      2 ≤ (chOf s b l).good ∧ l ≠ 16) ∧
    (∃ (b : Nat) (l : Nat) (x : Nat) (y : Nat) (tr : List Nat) (rr : List Nat) (s : State), l < 18 ∧ (chOf s b l).st = 7 ∧
      (if bitN (chOf s b l).rings 0 then settleCode (ringCode s b l 0) (entOf s b l).txSpc (entOf s b l).txFsr tr else some (chOf s b l).tx) = some x ∧
      (if bitN (chOf s b l).rings 1 then settleCode (ringCode s b l 1) (entOf s b l).rxSpc (entOf s b l).rxFsr rr else some (chOf s b l).rx) = some y ∧
      2 ≤ (chOf s b l).good ∧ l = 16 ∧ (bundleOf s b).waiting = []) ∧
    (∃ (b : Nat) (l : Nat) (tr : List Nat) (rr : List Nat) (s : State), (chOf s b l).st = 7 ∧
      ((chOf s b l).good < 2 ∨ (bitN (chOf s b l).rings 0 = true ∧
      settleCode (ringCode s b l 0) (entOf s b l).txSpc (entOf s b l).txFsr tr = none) ∨ (bitN (chOf s b l).rings 1 = true ∧
      settleCode (ringCode s b l 1) (entOf s b l).rxSpc (entOf s b l).rxFsr rr = none))) :=
  ⟨⟨451, 17, 5, chan 451 17 { st := 2, txLoop := { st := 0 } }, by decide +kernel⟩,
   ⟨451, 17, 5, chan 451 17 { st := 2, rxLoop := { st := 1 } }, by decide +kernel⟩,
   ⟨451, 17, 4, chan 451 17 { st := 2, txLoop := { st := 0, low := 7 } }, by decide +kernel⟩,
   ⟨451, 17, 0, { chan 451 17 { st := 2, txLoop := { st := 2, darkAt := some 0 } } with pho := { (chan 451 17 { st := 2, txLoop := { st := 2, darkAt := some 0 } }).pho with combs := [(bTile 451 * 32 + bComb 451, { lit := true })] } },
     by decide +kernel⟩,
   ⟨451, 17, chan 451 17 { st := 8 }, by decide +kernel⟩,
   ⟨451, 17, 17, chan 451 17 { st := 2 }, by decide +kernel⟩,
   ⟨451, 17, 0, 0, 17, chan 451 17 { st := 2, mism := 0 }, by decide +kernel⟩,
   ⟨451, 17, 0, 0, 17, chan 451 17 { st := 2, mism := 1 }, by decide +kernel⟩,
   ⟨0, by decide +kernel⟩,
   ⟨451, chan 451 17 { st := 2 }, by decide +kernel⟩,
   ⟨100, 40, 500, 610, [610], by decide +kernel⟩,
   ⟨451, 17, 7, 9, [], [], chan 451 17 { st := 7, good := 2, tx := 7, rx := 9, rings := 0 }, by decide +kernel⟩,
   ⟨451, 16, 7, 9, [], [], chan 451 16 { st := 7, good := 2, tx := 7, rx := 9, rings := 0 }, by decide +kernel⟩,
   ⟨451, 17, [], [], chan 451 17 { st := 7, good := 1, attempts := 1 }, by decide +kernel⟩⟩

theorem witness_CalibrationRowsComplete :
    (∃ (b : Nat) (l : Nat) (s : State), l < 18 ∧ (bundleOf s b).lit = true ∧
      64 < max (ringTemp s b l 0 - (chOf s b l).txTemp).natAbs (ringTemp s b l 1 - (chOf s b l).rxTemp).natAbs) ∧
    (∃ (b : Nat) (l : Nat) (s : State), l < 18 ∧ (bundleOf s b).lit = true ∧
      max (ringTemp s b l 0 - (chOf s b l).txTemp).natAbs (ringTemp s b l 1 - (chOf s b l).rxTemp).natAbs ≤ 64 ∧
      (chOf s b l).calAt.all (fun x => decide (x + 10 ^ 10 ≤ s.now)) = true) ∧
    (∃ (b : Nat) (l : Nat) (s : State) (x : Nat), l < 18 ∧ (bundleOf s b).lit = true ∧
      max (ringTemp s b l 0 - (chOf s b l).txTemp).natAbs (ringTemp s b l 1 - (chOf s b l).rxTemp).natAbs ≤ 64 ∧
      (chOf s b l).calAt = some x ∧ s.now < x + 10 ^ 10) ∧
    (∃ (b : Nat) (l : Nat) (s : State), l < 18 ∧ calAllowed s b l = true ∧ ((chOf s b 16).st = 3 → (bundleOf s b).holder = none ∧
      (bundleOf s b).waiting = [])) ∧
    (∃ (b : Nat) (l : Nat) (m1 : CalMeas) (m2 : CalMeas) (s : State), (chOf s b l).run = true ∧ (chOf s b l).measured = false ∧
      calAgrees m1 m2 = false) ∧
    (∃ (b : Nat) (l : Nat) (m1 : CalMeas) (m2 : CalMeas) (s : State), (chOf s b l).run = true ∧ (chOf s b l).measured = false ∧
      calAgrees m1 m2 = true ∧ 2 * Int.natAbs ((meanOf m1.tx m2.tx : Int) - ringCode s b l 0) ≤ (entOf s b l).txSpc ∧
      2 * Int.natAbs ((meanOf m1.rx m2.rx : Int) - ringCode s b l 1) ≤ (entOf s b l).rxSpc) ∧
    (∃ (b : Nat) (l : Nat) (m1 : CalMeas) (m2 : CalMeas) (s : State), (chOf s b l).run = true ∧ (chOf s b l).measured = false ∧
      calAgrees m1 m2 = true ∧ (entOf s b l).txSpc < 2 * Int.natAbs ((meanOf m1.tx m2.tx : Int) - ringCode s b l 0)) ∧
    (∃ (b : Nat) (l : Nat) (s : State), l < 18 ∧ (chOf s b l).st = 5 ∧ (chOf s b l).measured = true ∧ (chOf s b l).due = 0) ∧
    (∃ (tile : Nat) (s : State), storeDue s tile = true) ∧
    (∃ (tile : Nat) (s : State), storeDue s tile = false) ∧
    (∃ (e : CalEnt), e.txFsr < 65536 ∧ e.rxFsr < 65536 ∧ e.txSpc < 65536 ∧ e.rxSpc < 65536 ∧ e.gen < 2 ^ 32 ∧ e.pts.length = 5 ∧ (∀ p,
      p ∈ e.pts → p.1 < 4096 ∧ p.2.1 < 4096 ∧ p.2.2.1 < 1024 ∧ p.2.2.2 < 256)) ∧
    (∃ (r : Req) (b : Nat) (l : Nat) (s : State), Reaches 0x0400 r s ∧ b = bitsN (argN r 0) 0 9 ∧ l = bitsN (argN r 0) 16 5 ∧ b < 452 ∧
      l < 18 ∧ bundleOn s.pkg.part b = true) ∧
    (∃ (r : Req) (b : Nat) (l : Nat) (s : State), Reaches 0x0401 r s ∧ b = bitsN (argN r 0) 0 9 ∧ l = bitsN (argN r 0) 16 5 ∧ b < 452 ∧
      l < 18 ∧ bundleOn s.pkg.part b = true ∧ calRefused s b l = false) :=
  ⟨⟨451, 17, chan 451 17 { st := 2, calAt := some 0, txTemp := 335, rxTemp := 400 }, by decide +kernel, by decide +kernel,
    by rw [ringTemp_start rfl, ringTemp_start rfl]; decide +kernel⟩,
   ⟨451, 17, chan 451 17 { st := 2, txTemp := 464, rxTemp := 336 }, by decide +kernel, by decide +kernel,
     by rw [ringTemp_start rfl, ringTemp_start rfl]; decide +kernel, by decide +kernel⟩,
   ⟨451, 17, chan 451 17 { st := 2, txTemp := 464, rxTemp := 336, calAt := some (10 ^ 11 - 10 ^ 10 + 1) }, 10 ^ 11 - 10 ^ 10 + 1,
     by decide +kernel, by decide +kernel, by rw [ringTemp_start rfl, ringTemp_start rfl]; decide +kernel, by decide +kernel⟩,
   ⟨451, 17, chan 451 17 { st := 2, due := 1 }, by decide +kernel⟩,
   ⟨451, 17, { tx := 10, rx := 10, bias := 100, setpt := 5 }, { tx := 13, rx := 10, bias := 100, setpt := 5 },
     chan 451 17 { st := 5, run := true }, by decide +kernel⟩,
   ⟨451, 17, { tx := 10, rx := 10, bias := 100, setpt := 5 }, { tx := 12, rx := 10, bias := 103, setpt := 5 },
     { chan 451 17 { st := 5, run := true } with pho := { (chan 451 17 { st := 5, run := true }).pho with ents := [(451 * 32 + 17, { txSpc := 100, rxSpc := 100 })] } },
     by decide +kernel, by decide +kernel, by decide +kernel, by rw [ringCode, ringTemp_start rfl]; decide +kernel,
     by rw [ringCode, ringTemp_start rfl]; decide +kernel⟩,
   ⟨451, 17, { tx := 10, rx := 10, bias := 100, setpt := 5 }, { tx := 12, rx := 10, bias := 103, setpt := 5 },
     chan 451 17 { st := 5, run := true }, by decide +kernel, by decide +kernel, by decide +kernel,
     by rw [ringCode, ringTemp_start rfl]; decide +kernel⟩,
   ⟨451, 17, chan 451 17 { st := 5, run := true, measured := true }, by decide +kernel⟩,
   ⟨0, { kv with pho := { dirty := [0] } }, by decide +kernel⟩,
   ⟨0, { kv with pho := { dirty := [0], storeAt := [(0, 10 ^ 11)] } }, by decide +kernel⟩,
   ⟨{ pts := List.replicate 5 (4095, 4095, 1023, 255) }, by decide +kernel⟩,
   ⟨rq [451 + 17 * 65536], _, _, chan 451 17 { st := 2 }, by decide +kernel, rfl, rfl, by decide +kernel⟩,
   ⟨rq [451 + 17 * 65536], _, _, chan 451 17 { st := 2 }, by decide +kernel, rfl, rfl, by decide +kernel⟩⟩

theorem witness_CastlingRowsComplete :
    (∃ (tile : Nat) (c : Nat) (k : Cast) (pow : List Nat) (s : State), (combOfTile s tile c).cast = some k ∧ k.l16 = false ∧
      ((commOf s tile (spareComb tile c)).zip pow).all (fun q => withinDb q.1 q.2) = true) ∧
    (∃ (tile : Nat) (c : Nat) (k : Cast) (pow : List Nat) (s : State), (combOfTile s tile c).cast = some k ∧ k.l16 = false ∧
      ((commOf s tile (spareComb tile c)).zip pow).all (fun q => withinDb q.1 q.2) = false) ∧
    (∃ (tile : Nat) (c : Nat) (k : Cast) (s : State), (combOfTile s tile c).cast = some k ∧ k.l16 = true ∧ k.line = false ∧ (∀ b,
      b ∈ combBundles s.pkg.part tile c → castPaused s b = false)) ∧
    (∃ (tile : Nat) (c : Nat) (k : Cast) (s : State) (b : Nat), (combOfTile s tile c).cast = some k ∧ k.l16 = true ∧ k.line = false ∧
      b ∈ combBundles s.pkg.part tile c ∧ castPaused s b = true) ∧
    (∃ (tile : Nat) (c : Nat) (k : Cast) (s : State), (combOfTile s tile c).cast = some k ∧ k.l16 = true ∧ k.line = true ∧ k.moved < 16) ∧
    (∃ (tile : Nat) (c : Nat) (k : Cast) (s : State), (combOfTile s tile c).cast = some k ∧ k.l16 = true ∧ k.line = true ∧ 16 ≤ k.moved) ∧
    (∃ (tile : Nat) (c : Nat) (k : Cast) (s : State), (combOfTile s tile c).cast = some k ∧ k.l16 = true ∧ k.line = true) ∧
    (∃ (b : Nat) (l : Nat) (b' : Nat) (l' : Nat) (n : Nat) (k : Cast) (s : State), b' < 452 ∧ l' < 18 ∧ n < 18 ∧ (b' ≠ b ∨ l' ≠ l) ∧ l < 18 ∧
      l ≠ 16 ∧ 0 < (chOf s b l).mism ∧ (chOf s b l).st ≠ 0 ∧ (chOf s b l).st ≠ 7 ∧ (chOf s b l).st ≠ 9 ∧
      (combOfTile s (bTile b) (bComb b)).cast = some k) ∧
    (∃ (b : Nat) (s : State), (bundleOf s b).lit = true ∧ (combOfTile s (bTile b) (bComb b)).lit = true ∧ (bundleOf s b).st = 3) :=
  ⟨⟨0, 0, {}, [], castg {}, by decide +kernel⟩,
   ⟨0, 0, {}, [1], { castg {} with pho := { (castg {}).pho with comm := [(spareComb 0 0, [1000])] } }, by decide +kernel⟩,
   ⟨0, 0, { l16 := true, moved := 16 }, castg { l16 := true, moved := 16 }, by decide +kernel⟩,
   ⟨0, 0, { l16 := true, moved := 3 },
     { castg { l16 := true, moved := 3 } [(0, { holder := some (1, 5) })] with pho := { (castg { l16 := true, moved := 3 } [(0, { holder := some (1, 5) })]).pho with chans := [(5, { st := 7 })] } },
     0, by decide +kernel⟩,
   ⟨0, 0, { l16 := true, line := true, moved := 3 }, castg { l16 := true, line := true, moved := 3 }, by decide +kernel⟩,
   ⟨0, 0, { l16 := true, line := true, moved := 16 }, castg { l16 := true, line := true, moved := 16 }, by decide +kernel⟩,
   ⟨0, 0, { l16 := true, line := true, moved := 3 }, castg { l16 := true, line := true, moved := 3 }, by decide +kernel⟩,
   ⟨0, 5, 1, 5, 5, { l16 := true },
     { castg { l16 := true } with pho := { (castg { l16 := true }).pho with chans := [(5, { st := 2, mism := 1 })] } }, by decide +kernel⟩,
   ⟨0, { kv with pho := { bundles := [(0, { lit := true, st := 3 })], combs := [(0, { lit := true })] } }, by decide +kernel⟩⟩

theorem witness_FlitRowsComplete :
    (∃ (b : Nat) (k : Nat) (svc : Bool) (bs : List Byte) (m : List Byte) (corr : Bool) (s : State), bs.length = 256 ∧
      bundleOn s.pkg.part b = true ∧ (svc = true ∨ isIdle bs = false) ∧ k = linkKey b svc ∧ wholeFlit bs = some (m, corr) ∧
      (flitHdr m).kind ≠ 1 ∧ (flitHdr m).seq = (linkOf s k).expect) ∧
    (∃ (b : Nat) (k : Nat) (svc : Bool) (bs : List Byte) (m : List Byte) (corr : Bool) (s : State), bs.length = 256 ∧
      bundleOn s.pkg.part b = true ∧ (svc = true ∨ isIdle bs = false) ∧ k = linkKey b svc ∧ wholeFlit bs = some (m, corr) ∧
      (flitHdr m).kind ≠ 1 ∧ (flitHdr m).seq ≠ (linkOf s k).expect ∧ (linkOf s k).nak = false) ∧
    (∃ (b : Nat) (k : Nat) (svc : Bool) (bs : List Byte) (m : List Byte) (corr : Bool) (s : State), bs.length = 256 ∧
      bundleOn s.pkg.part b = true ∧ (svc = true ∨ isIdle bs = false) ∧ k = linkKey b svc ∧ wholeFlit bs = some (m, corr) ∧
      (flitHdr m).kind ≠ 1 ∧ (flitHdr m).seq ≠ (linkOf s k).expect ∧ (linkOf s k).nak = true) ∧
    (∃ (b : Nat) (k : Nat) (svc : Bool) (bs : List Byte) (s : State), bs.length = 256 ∧ bundleOn s.pkg.part b = true ∧
      (svc = true ∨ isIdle bs = false) ∧ k = linkKey b svc ∧ wholeFlit bs = none ∧ (linkOf s k).nak = false) ∧
    (∃ (b : Nat) (k : Nat) (svc : Bool) (s : State), bundleOn s.pkg.part b = true ∧ k = linkKey b svc) ∧
    (∃ (b : Nat) (k : Nat) (svc : Bool) (s : State), k = linkKey b svc ∧ (linkOf s k).nak = true) :=
  ⟨⟨0, 0, false, flit0, ((wholeFlit (flit0 : List Byte)).getD ([], false)).1, ((wholeFlit (flit0 : List Byte)).getD ([], false)).2, kv,
    by decide +kernel⟩,
   ⟨0, 0, false, flit5, ((wholeFlit (flit5 : List Byte)).getD ([], false)).1, ((wholeFlit (flit5 : List Byte)).getD ([], false)).2, kv,
     by decide +kernel⟩,
   ⟨0, 0, false, flit5, ((wholeFlit (flit5 : List Byte)).getD ([], false)).1, ((wholeFlit (flit5 : List Byte)).getD ([], false)).2,
     lnk 0 { nak := true }, by decide +kernel⟩,
   ⟨0, 0, false, flitBad, kv, by decide +kernel⟩,
   ⟨451, 902, false, lnk 902 { retry := [{ seq := 5, vc := 0 }] }, by decide +kernel⟩,
   ⟨451, 903, true, lnk 903 { nak := true }, by decide +kernel⟩⟩

theorem witness_PackagePacketRowsComplete :
    (∃ (p : OPkt) (s : State), PacketTaken 1 p s ∧ endFenced s p.dst = false ∧ bitN p.flags 0 = false ∧ p.poison = 0 ∧
      Served s p.addr p.payload.length ∧ pktReaches s p true p.addr = true ∧
      (dpaOf s.pkg.part p.addr = .hbm → findOf s.mem.flips (p.addr / 64 * 64) = none)) ∧
    (∃ (p : OPkt) (s : State), PacketTaken 2 p s ∧ endFenced s p.dst = false ∧ Served s p.addr p.arg ∧ Served s (p.addr / 64 * 64) 64 ∧
      Unpoisoned (atMemory p.addr (takePkt p s)) p.addr ∧ pktReaches s p false (p.addr / 64 * 64) = true) ∧
    (∃ (p : OPkt) (cl : Nat) (s : State), PacketTaken 4 p s ∧ endFenced s p.dst = false ∧ dpaOf s.pkg.part p.addr = .cm cl ∧
      cmFenced s cl = false ∧ pktReaches s p true p.addr = true ∧ badWords (atMemory p.addr (takePkt p s)).mem.m p.addr 8 [] = [] ∧
      EngineSettled s) ∧
    (∃ (p : OPkt) (c : Nat) (q : XReq) (x : Xfer) (s : State), PacketTaken 3 p s ∧ matchTag s p true = some (c, x, q) ∧ respStatus p = 1 ∧
      0 < q.n ∧ 0 < p.len ∧ p.len ≤ 64 ∧ p.poison = 0 ∧ mfind x.got q.first = none) ∧
    (∃ (p : OPkt) (c : Nat) (i : Nat) (q : XReq) (x : Xfer) (s : State), PacketTaken 5 p s ∧ p.dst ≠ 12 ∧ matchTag s p false = some (c, x,
      q) ∧ i < q.n ∧ mfind x.got (q.first + i) = none) ∧
    (∃ (p : OPkt) (term : Nat) (s : State), PacketTaken 8 p s ∧ p.dst ≠ 12 ∧ siteUp s (epSite p.dst) = true ∧
      newer 16 (mget s.mp.ctrlTerm 0 (epSite p.dst)).toNat term = false) ∧
    (∃ (p : OPkt) (term : Nat) (s : State), PacketTaken 8 p s ∧ p.dst ≠ 12 ∧ siteUp s (epSite p.dst) = true ∧
      newer 16 (mget s.mp.ctrlTerm 0 (epSite p.dst)).toNat term = true) ∧
    (∃ (p : OPkt) (s : State), PacketTaken 8 p s ∧ p.dst = 12) ∧
    (∃ (p : OPkt) (s : State), PacketTaken 8 p s ∧ p.dst = 12) ∧
    (∃ (p : OPkt) (s : State), PacketTaken 8 p s ∧ p.dst = 12) :=
  ⟨⟨pk 1 16 5 0x1000 0 [1, 2], onP, by decide +kernel⟩,
   ⟨pk 2 19 5 0x1000 64, onP, by decide +kernel⟩,
   ⟨pk 4 0 1 (cmBase 0) 1, 0, onP, by decide +kernel⟩,
   ⟨{ pk 3 0 6 0 0 (List.replicate 64 5) with tag := 249 }, 0, { tag := 249, ep := 0, first := 1, n := 1 },
     { xf0 with reqs := [{ tag := 248, ep := 0, first := 0, n := 2 }, { tag := 249, ep := 0, first := 1, n := 1 }] },
     at0 0 { hmx := [{ xf0 with reqs := [{ tag := 248, ep := 0, first := 0, n := 2 }, { tag := 249, ep := 0, first := 1, n := 1 }] }] },
     by decide +kernel⟩,
   ⟨{ pk 5 0 6 0 0 with tag := 248 }, 0, 1, { tag := 248, ep := 0, first := 0, n := 2 },
     { xf0 with toScr := false, reqs := [{ tag := 248, ep := 0, first := 0, n := 2 }] },
     at0 0 { hmx := [{ xf0 with toScr := false, reqs := [{ tag := 248, ep := 0, first := 0, n := 2 }] }] }, by decide +kernel⟩,
   ⟨pk 8 19 7 0 0, 1, onP, by decide +kernel⟩,
   ⟨pk 8 19 7 0 0, 65535, onP, by decide +kernel⟩,
   ⟨pk 8 12 7 0 0, onP, by decide +kernel⟩,
   ⟨pk 8 12 7 0 0, onP, by decide +kernel⟩,
   ⟨pk 8 12 7 0 0, onP, by decide +kernel⟩⟩

theorem witness_PortRowsComplete :
    (∃ (port : Nat) (side : Nat) (s : State), side ≤ 1 ∧ (portSide s port side).state ≠ 3 ∧ portOn s port = true) ∧
    (∃ (port : Nat) (side : Nat) (m : TrainMsg) (s : State), side ≤ 1 ∧ (portSide s port side).state ≠ 3 ∧ portOn s port = true ∧
      trainStale (portSide s port side) 1 m = false ∧
      (newer 16 m.epoch.toNat (portSide s port side).peerEp.toNat = true ∨ bitN m.flags 0 = true)) ∧
    (∃ (port : Nat) (side : Nat) (m : TrainMsg) (s : State), trainStale (portSide s port side) 1 m = true) ∧
    (∃ (port : Nat) (side : Nat) (s : State), (portSide s port side).state = 1 ∧ (portSide s port side).step = 1 ∧ side ≤ 1) ∧
    (∃ (port : Nat) (side : Nat) (s : State), (portSide s port side).state = 1 ∧ (portSide s port side).step = 2 ∧
      (portSide s port side).peer = none) ∧
    (∃ (port : Nat) (side : Nat) (m : TrainMsg) (s : State), side ≤ 1 ∧ (portSide s port side).state = 1 ∧
      trainStale (portSide s port side) 2 m = false ∧ (portSide s port side).step = 2) ∧
    (∃ (port : Nat) (side : Nat) (m : TrainMsg) (s : State), side ≤ 1 ∧ (portSide s port side).state = 1 ∧
      trainStale (portSide s port side) 2 m = false ∧ (portSide s port side).step = 3 ∧ (portSide s port side).own = some m.width ∧
      m.width ≠ 0) ∧
    (∃ (port : Nat) (side : Nat) (m : TrainMsg) (s : State) (a : Nat), side ≤ 1 ∧ (portSide s port side).state = 1 ∧
      trainStale (portSide s port side) 2 m = false ∧ (portSide s port side).step = 3 ∧ (portSide s port side).own = some a ∧ a ≠ m.width) ∧
    (∃ (port : Nat) (side : Nat) (m : TrainMsg) (s : State), side ≤ 1 ∧ (portSide s port side).state = 1 ∧ (portSide s port side).step = 4 ∧
      trainStale (portSide s port side) 3 m = false ∧ (portSide s port side).own = some m.width) ∧
    (∃ (port : Nat) (side : Nat) (s : State), side ≤ 1 ∧ (portSide s port side).state = 1 ∧ (portSide s port side).step ≠ 0 ∧
      (portSide s port 0).fails < 2) ∧
    (∃ (port : Nat) (side : Nat) (s : State), side ≤ 1 ∧ (portSide s port side).state = 1 ∧ (portSide s port side).step ≠ 0 ∧
      2 ≤ (portSide s port 0).fails) ∧
    (∃ (port : Nat) (s : State), (portSide s port 0).state = 2) ∧
    (∃ (port : Nat) (side : Nat) (s : State), side ≤ 1 ∧ (portSide s port side).state = 2 ∧ portOn s port = true) ∧
    (∃ (r : Req) (st : Nat) (p : Nat) (s : State), Reaches 0x0402 r s ∧ st = bitsN (argN r 0) 0 4 ∧ p = bitsN (argN r 0) 8 4 ∧ p < 12 ∧
      st < stacksOf s.pkg.part) ∧
    (∃ (r : Req) (st : Nat) (p : Nat) (s : State), Reaches 0x0403 r s ∧ st = bitsN (argN r 0) 0 4 ∧ p = bitsN (argN r 0) 8 4 ∧ p < 12 ∧
      st < stacksOf s.pkg.part ∧ retrainRefused s (st * 12 + p) = false ∧ portOn s (st * 12 + p) = true) :=
  ⟨⟨143, 1, kv, by decide +kernel⟩,
   ⟨143, 1, tmsg 1 { epoch := 1 }, kv, by decide +kernel⟩,
   ⟨143, 1, { epoch := 0 }, kv, by decide +kernel⟩,
   ⟨143, 1, prt { state := 1, step := 1 }, by decide +kernel⟩,
   ⟨143, 1, prt { state := 1, step := 2 }, by decide +kernel⟩,
   ⟨143, 1, tmsg 2 { epoch := 0, width := 3, spares := 1 }, prt { state := 1, step := 2 }, by decide +kernel⟩,
   ⟨143, 1, tmsg 2 { epoch := 0, width := 3 }, prt { state := 1, step := 3, own := some 3 }, by decide +kernel⟩,
   ⟨143, 1, tmsg 2 { epoch := 0, width := 1 }, prt { state := 1, step := 3, own := some 3 }, 3, by decide +kernel⟩,
   ⟨143, 1, tmsg 3 { epoch := 0, width := 3 }, prt { state := 1, step := 4, own := some 3 }, by decide +kernel⟩,
   ⟨143, 1, prt { state := 1, step := 1 } { fails := 1 }, by decide +kernel⟩,
   ⟨143, 1, prt { state := 1, step := 1 } { fails := 2 }, by decide +kernel⟩,
   ⟨143, prt {} { state := 2, fails := 1 }, by decide +kernel⟩,
   ⟨143, 1, prt { state := 2 }, by decide +kernel⟩,
   ⟨rq [0xB0B], 11, 11, kv, by decide +kernel⟩,
   ⟨rq [0xB0B], 11, 11, prt {} { state := 2 }, by decide +kernel⟩⟩

theorem witness_ObservationRowsComplete :
    (∃ (r : Req) (i : CtrInst) (v : Nat) (s : State), Reaches 0x0A00 r s ∧ ctrInst s (argN r 0) (argN r 1) = some i ∧ i.ok = true ∧
      i.present = true ∧ v = ((extend (mget s.obs.ctrs {} (ctrKey (argN r 0) (argN r 1)))).ext.toNat + if argN r 0 = 2 then waitElapsed s (cwNum (argN r 1)) else 0) % 2 ^ 64) ∧
    (∃ (r : Req) (s : State), Reaches 0x0A01 r s ∧ TicketFree s ∧ testBadArg (argN r 1) (argN r 0) (argN r 2) = none ∧
      ((dieGranular (argN r 1) = true ∧ unitIdle s (argN r 0) = true ∧ testBusy s (argN r 0) = false ∧
      siteAbsent s (argN r 0) = false) ∨ (argN r 1 = 2 ∧ siteAbsent s (argN r 0) = false) ∨ (kindAtb (argN r 1) = true ∧
      (if kindBundle (argN r 1) then bundleOn s.pkg.part (argN r 0) = true else siteAbsent s (argN r 0) = false) ∧
      atbInUse s (testDie { ticket := 0, kind := argN r 1, site := argN r 0, a2 := argN r 2 }) = false))) ∧
    (∃ (r : Req) (s : State), Reaches 0x0A01 r s ∧ TicketFree s ∧ testBadArg (argN r 1) (argN r 0) (argN r 2) = none ∧
      kindTrace (argN r 1) = true ∧ siteAbsent s (argN r 0) = false) ∧
    (∃ (tk : Nat) (v : Nat) (f : TestFind) (x : TestRun) (k : Ticket) (s : State), s.obs.tests.find? (fun t => t.ticket == tk) = some x ∧
      kindTrace x.kind = false ∧ x.kind ≠ 0x12 ∧ kindAtb x.kind = false ∧
      v = (if x.kind ≤ 2 then x.found else if x.kind = 3 then (portSide s ((x.site - 0x20) * 12 + x.a2 / 256) 0).width else f.value) ∧
      mfind s.mp.tickets tk = some k ∧ k.done = false) ∧
    (∃ (die : Nat) (bus : Nat) (s : State), (∀ x, mfind s.obs.atb (die * 2 + bus) = some x → x.2 + 10 ^ 10 ≤ s.now)) ∧
    (∃ (die : Nat) (bus : Nat) (x : Nat × Nat) (s : State), mfind s.obs.atb (die * 2 + bus) = some x ∧ s.now < x.2 + 10 ^ 10) ∧
    (∃ (site : Nat) (i : Nat) (l : List Nat) (s : State), traceOn s site 0 = true ∧ isKC site = true ∧ l = namedOn s (site - 0x20) ∧ l ≠ [] ∧
      i = mget s.obs.rotation 0 site ∧ (∀ x, mfind s.obs.sampleAt site = some x → x + 10000 ≤ s.now)) ∧
    (∃ (i : Nat), i ≤ 2) ∧
    (∃ (i : Nat), 3 ≤ i ∧ i ≤ 5) ∧
    (∃ (i : Nat) (s : State), 5 < i ∧ s.pins.testSampled = false) ∧
    (∃ (i : Nat) (s : State), 5 < i ∧ s.pins.testSampled = true) :=
  ⟨⟨rq [2, 0, 0], { ok := true, present := true, pt := some 0 }, _, onP, by decide +kernel, by decide +kernel, by decide +kernel,
    by decide +kernel, rfl⟩,
   ⟨rq [0x20, 0x10, 0], kv, by decide +kernel⟩,
   ⟨rq [0x20, 0x3F, 0], kv, by decide +kernel⟩,
   ⟨3, 0, {}, { ticket := 3, kind := 0x10, site := 0x20, a2 := 0 }, { op := 0x0A01 },
     { kv with obs := { tests := [{ ticket := 3, kind := 0x10, site := 0x20, a2 := 0 }] }, mp := { kv.mp with tickets := [(3, { op := 0x0A01 })] } },
     by decide +kernel⟩,
   ⟨0x20, 1, { kv with obs := { atb := [(0x41, (0x26, 0))] } }, by decide +kernel⟩,
   ⟨0x20, 1, (0x26, 10 ^ 11), { kv with obs := { atb := [(0x41, (0x26, 10 ^ 11))] } }, by decide +kernel⟩,
   ⟨0x20, _, _, { onP with obs := { trace := [(0x20, 1)] } }, by decide +kernel, by decide +kernel, rfl, by decide +kernel, rfl,
     by decide +kernel⟩,
   ⟨2, by decide +kernel⟩,
   ⟨5, by decide +kernel⟩,
   ⟨6, kv, by decide +kernel⟩,
   ⟨6, { kv with pins := { kv.pins with testSampled := true } }, by decide +kernel⟩⟩

theorem witness_GuestRowsComplete :
    (∃ (p : OPkt) (s : State), s.guest.linkUp = true ∧ s.guest.fenced = false ∧ running s = true ∧ (p.vc = 7 ∨ pktBad p = true ∨ (p.op ≠ 1 ∧
      p.op ≠ 2 ∧ p.op ≠ 4))) ∧
    (∃ (p : OPkt) (s : State), s.guest.linkUp = true ∧ s.guest.fenced = false ∧ running s = true ∧ p.vc ≠ 7 ∧ pktBad p = false ∧ p.op = 4 ∧
      guestSig s = false) ∧
    (∃ (p : OPkt) (s : State), s.guest.linkUp = true ∧ s.guest.fenced = false ∧ running s = true ∧ p.vc ≠ 7 ∧ pktBad p = false ∧
      (p.op = 1 ∨ p.op = 2) ∧ (job s (guestPart s)).state ≠ 1) ∧
    (∃ (p : OPkt) (q : Part) (s : State), GuestAdmitted s p ∧ p.op = 1 ∧ p.poison = 0 ∧ part s (guestPart s) = some q ∧
      reaches s q true p.addr = true ∧ Served s p.addr p.payload.length ∧
      (dpaOf s.pkg.part p.addr = .hbm → findOf s.mem.flips (p.addr / 64 * 64) = none)) ∧
    (∃ (p : OPkt) (q : Part) (s : State), GuestAdmitted s p ∧ p.op = 2 ∧ part s (guestPart s) = some q ∧
      reaches s q false (p.addr / 64 * 64) = true ∧ Served s p.addr p.arg ∧ Served s (p.addr / 64 * 64) 64 ∧
      Unpoisoned (atMemory p.addr s) p.addr) ∧
    (∃ (p : OPkt) (q : Part) (cl : Nat) (s : State), GuestAdmitted s p ∧ p.op = 4 ∧ guestSig s = true ∧ part s (guestPart s) = some q ∧
      reaches s q true p.addr = true ∧ dpaOf s.pkg.part p.addr = .cm cl ∧ cmFenced s cl = false ∧ EngineSettled s) ∧
    (∃ (s : State), s.guest.linkUp = true) ∧
    (∃ (s : State), s.guest.fitted = true ∧ guestOn s = true ∧ s.guest.fenced = false ∧ running s = true) :=
  ⟨⟨pk 1 12 7 0x1000 0 [1], gst 0 job0, by decide +kernel⟩,
   ⟨pk 4 12 1 0x1000 1, { gst 0 job0 with guest := { (gst 0 job0).guest with ctl := 2 ^ 12 + 2 ^ 11 } }, by decide +kernel⟩,
   ⟨pk 1 12 5 0x1000 0 [1], gst 0 onP, by decide +kernel⟩,
   ⟨pk 1 12 5 0x1000 0 [1], pt0, gst 0 job0, by decide +kernel⟩,
   ⟨pk 2 12 5 0x1000 64, pt0, gst 0 job0, by decide +kernel⟩,
   ⟨pk 4 12 1 (cmBase 0) 1, pt0, 0, gst (2 ^ 40) job0, by decide +kernel⟩,
   ⟨gst 0 job0, by decide +kernel⟩,
   ⟨{ gst 0 job0 with guest := { (gst 0 job0).guest with linkUp := false } }, by decide +kernel⟩⟩

theorem witness_BreakHaltsOnlyUnderADebugger :
    (∃ (c : Nat) (w : BitVec 64) (s : State) (r : State), Issues c w .brk s r ∧ (coreAt r c).debugger = false ∧ NotLast c r) ∧
    (∃ (c : Nat) (w : BitVec 64) (s : State) (r : State), Issues c w .brk s r ∧ (coreAt r c).debugger = true) :=
  ⟨⟨0, gw 0x3F 0 0 0 0 0 0, at0 (gw 0x3F 0 0 0 0 0 0) {}, at0 (gw 0x3F 0 0 0 0 0 0) {}, by decide +kernel⟩,
   ⟨0, gw 0x3F 0 0 0 0 0 0, at0 (gw 0x3F 0 0 0 0 0 0) { debugger := true }, at0 (gw 0x3F 0 0 0 0 0 0) { debugger := true },
     by decide +kernel⟩⟩

theorem witness_StaleTrainingMessagesAreIgnored :
    (∃ (port : Nat) (side : Nat) (m : TrainMsg) (s : State),
      (m.crc ≠ trainCrc 1 m ∨ (newer 16 (portSide s port side).peerEp.toNat m.epoch.toNat = true ∧ bitN m.flags 0 = false))) ∧
    (∃ (port : Nat) (side : Nat) (m : TrainMsg) (s : State),
      (m.crc ≠ trainCrc 2 m ∨ (newer 16 (portSide s port side).peerEp.toNat m.epoch.toNat = true ∧ bitN m.flags 0 = false))) ∧
    (∃ (port : Nat) (side : Nat) (m : TrainMsg) (s : State),
      (m.crc ≠ trainCrc 3 m ∨ (newer 16 (portSide s port side).peerEp.toNat m.epoch.toNat = true ∧ bitN m.flags 0 = false))) ∧
    (∃ (port : Nat) (side : Nat) (m : TrainMsg) (s : State), m.echo ≠ (portSide s port side).localEp) ∧
    (∃ (port : Nat) (side : Nat) (m : TrainMsg) (s : State), side ≤ 1 ∧ (portSide s port side).state ≠ 3 ∧ portOn s port = true ∧
      m.crc = trainCrc 1 m ∧ m.width ≤ 3 ∧ m.cap ≤ 3 ∧ ((newer 16 m.epoch.toNat (portSide s port side).peerEp.toNat = true ∧
      newer 16 (portSide s port side).peerEp.toNat m.epoch.toNat = false) ∨ bitN m.flags 0 = true)) :=
  ⟨⟨143, 1, { epoch := 0 }, kv, by decide +kernel⟩,
   ⟨143, 1, { epoch := 65535 }, kv, by decide +kernel⟩,
   ⟨143, 1, { epoch := 65535 }, kv, by decide +kernel⟩,
   ⟨143, 1, { epoch := 0, echo := 1 }, kv, by decide +kernel⟩,
   ⟨143, 1, tmsg 1 { epoch := 1 }, kv, by decide +kernel⟩⟩

theorem witness_IdentityWordsDecode :
    ∃ (b : Nat) (l : Nat) (n : Nat), b < 452 ∧ l < 18 ∧ n < 18 :=
  ⟨451, 17, 17, by decide +kernel⟩

theorem witness_TileModesAreKept :
    (∃ (w : BitVec 64) (int : Bool) (t0 : Nat), decodeWord w = some (.tzero int t0)) ∧
    (∃ (c : Nat) (t0 : Nat) (int : Bool) (w : BitVec 64) (e : Ecc) (s : State) (r : State) (y : State), Issues c w (.tzero int t0) s r ∧
      y = awaitTile c t0 e (issued c (.tzero int t0) r) ∧ stillRuns y c = true ∧ NotLast c y) ∧
    (∃ (c : Nat) (td : Nat) (ga : Nat) (gb : Nat) (nch : Nat) (fa : Fm) (fb : Fm) (mxa : Bool) (mxb : Bool) (acc : Bool) (w : BitVec 64) (s : State) (r : State),
      Issues c w (.tmma td fa fb ga gb nch mxa mxb acc) s r ∧
      scrFault (coreAt r c) 64 (getG r c ga).toNat (operandBytes (fmD (fmId fa)) 16 nch mxa) = none ∧
      scrFault (coreAt r c) 64 (getG r c gb).toNat (operandBytes (fmD (fmId fb)) 8 nch mxb) = none ∧ (getTile r c td).int = true) ∧
    (∃ (c : Nat) (td : Nat) (shift : Nat) (ga : Nat) (gb : Nat) (nch : Nat) (ua : Bool) (ub : Bool) (acc : Bool) (w : BitVec 64) (s : State) (r : State),
      Issues c w (.tslice td shift ua ub ga gb nch acc) s r ∧
      scrFault (coreAt r c) 64 (getG r c ga).toNat (operandBytes (fmD 10) 16 nch false) = none ∧
      scrFault (coreAt r c) 64 (getG r c gb).toNat (operandBytes (fmD 10) 8 nch false) = none ∧ (getTile r c td).int = false) ∧
    (∃ (r : Req) (c : Nat) (s : State), Reaches 0x0202 r s ∧ CoreNamed s (argN r 0) c ∧ coreIdle s c = true) :=
  ⟨⟨gw 0x10 1 0 0 0 0 7, true, 7, by decide +kernel⟩,
   ⟨0, 7, false, gw 0x10 0 0 0 0 0 7, {}, at0 (gw 0x10 0 0 0 0 0 7) {}, at0 (gw 0x10 0 0 0 0 0 7) {}, _, by decide +kernel, rfl,
     by decide +kernel⟩,
   ⟨0, 7, 1, 2, 0, Fm.bf16, Fm.fp16, false, false, true,
     BitVec.ofNat 64 (17 * 2 ^ 58 + 7 * 2 ^ 55 + 3 * 2 ^ 51 + 4 * 2 ^ 47 + 1 * 2 ^ 42 + 2 * 2 ^ 37 + 1 * 2 ^ 26),
     at0 (BitVec.ofNat 64 (17 * 2 ^ 58 + 7 * 2 ^ 55 + 3 * 2 ^ 51 + 4 * 2 ^ 47 + 1 * 2 ^ 42 + 2 * 2 ^ 37 + 1 * 2 ^ 26)) { ctx := { g := [(2, 1024)], tiles := [(7, { int := true })] } },
     at0 (BitVec.ofNat 64 (17 * 2 ^ 58 + 7 * 2 ^ 55 + 3 * 2 ^ 51 + 4 * 2 ^ 47 + 1 * 2 ^ 42 + 2 * 2 ^ 37 + 1 * 2 ^ 26)) { ctx := { g := [(2, 1024)], tiles := [(7, { int := true })] } },
     by decide +kernel⟩,
   ⟨0, 7, 63, 1, 2, 0, true, false, true,
     BitVec.ofNat 64 (18 * 2 ^ 58 + 7 * 2 ^ 55 + 63 * 2 ^ 49 + 1 * 2 ^ 48 + 1 * 2 ^ 42 + 2 * 2 ^ 37 + 1 * 2 ^ 26),
     at0 (BitVec.ofNat 64 (18 * 2 ^ 58 + 7 * 2 ^ 55 + 63 * 2 ^ 49 + 1 * 2 ^ 48 + 1 * 2 ^ 42 + 2 * 2 ^ 37 + 1 * 2 ^ 26)) { ctx := { g := [(2, 512)] } },
     at0 (BitVec.ofNat 64 (18 * 2 ^ 58 + 7 * 2 ^ 55 + 63 * 2 ^ 49 + 1 * 2 ^ 48 + 1 * 2 ^ 42 + 2 * 2 ^ 37 + 1 * 2 ^ 26)) { ctx := { g := [(2, 512)] } },
     by decide +kernel⟩,
   ⟨rq [0], 0, kv, by decide +kernel⟩⟩

/-! The statements about every command, or about whole classes of them. -/

/-- What a command answers. -/
def nx (i : Instr) (s : State) : State := match exec i s with
  | .next t => t
  | _ => s
theorem witness_StepCarriesOutTheFront : ∃ (s : State), s.pending = [] := ⟨kv, rfl⟩
theorem witness_CommandsLeaveTheQueue : ∃ (c : Instr) (s t : State), exec c s = .next t := ⟨.fmLeaseExpiry, kv, nx .fmLeaseExpiry kv, rfl⟩
theorem witness_StepsSendTheirVectors : ∃ (s t : State), VectorsSent s ∧ step s = .next t :=
  ⟨{ kv with pending := [.fmLeaseExpiry] }, nx .fmLeaseExpiry kv, by decide +kernel, rfl⟩
theorem witness_HealthSeqCountsChanges :
    ∃ (c : Instr) (s t : State), exec c s = .next t ∧ t.pkg.power ≠ 3 ∧ healthRegs s ≠ healthRegs t :=
  ⟨.ethLinkDown 0, job0, nx (.ethLinkDown 0) job0, rfl, by decide +kernel, by decide +kernel⟩
theorem witness_RegisterRowsTouchTheirCoreAlone :
    ∃ (c : Nat) (w : BitVec 64) (i : Instr) (s t : State), RegisterRow c w i ∧
      (∀ d, (coreAt s c).wait ≠ .dpost d) ∧ (pipeOf s (coreCluster c)).loads.all (fun x => x.core != c) = true ∧
      exec i s = .next t ∧ (coreAt t c).cond = .issuing :=
  ⟨0, 0, .nop 0 0, at0 0, nx (.nop 0 0) (at0 0), .inl rfl,
   fun d h => absurd ((by decide +kernel : (coreAt (at0 0) 0).wait = Wait.none).symm.trans h) (by nofun), by decide +kernel, rfl, by decide +kernel⟩
theorem witness_ReportsChangeNothing : ∃ (r : Req) (i : Instr) (s t : State), ReportRow r i ∧ exec i s = .next t ∧ ∀ p q, r.chan ≠ .fm p q :=
  ⟨rq [], .nopCommand (rq []), kv, nx (.nopCommand (rq [])) kv, .inl rfl, rfl, by nofun⟩
theorem witness_ChannelRowsStayInTheLayer :
    ∃ (b l ring x : Nat) (tr rr : List Nat) (f : Bool) (w : Word32) (m1 m2 : CalMeas) (i : Instr) (s t : State),
      ChannelRow b l ring x tr rr f w m1 m2 i ∧ exec i s = .next t ∧ t.pho.bundles = s.pho.bundles :=
  ⟨0, 0, 0, 0, [], [], false, 0, ⟨0, 0, 0, 0⟩, ⟨0, 0, 0, 0⟩, .ringLoopUpdate 0 0 0 0, chan 0 0 { st := 2 }, nx (.ringLoopUpdate 0 0 0 0) (chan 0 0 { st := 2 }),
    .inl rfl, rfl, by decide +kernel⟩
theorem witness_EngineWritesItsAreaAlone :
    ∃ (host : Bool) (ip port session nonce peer n : Nat) (bs : List Byte) (fs : List LineFind) (i : Instr) (s t : State) (a : Nat),
      RecordRow host ip port session nonce peer n bs fs i ∧ exec i s = .next t ∧ EngineSettled s ∧ (a < engBase s ∨ engBase s + 640 * 2 ^ 20 ≤ a) :=
  ⟨false, 1, 0, 7, 9, 2, 0, frame0 1, [], .requestFrame 0 1 2 (frame0 1) [], srv, nx (.requestFrame 0 1 2 (frame0 1) []) srv, 2 ^ 38,
    .inl rfl, rfl, by decide +kernel, by decide +kernel⟩
theorem witness_IllegalWordsFault :
    ∃ (c : Nat) (w : BitVec 64) (e : Ecc) (i : Instr) (s : State), CoreRow c w e i ∧ canIssue s c = true ∧ fetchWord s c = some w ∧ decodeWord w = none :=
  ⟨0, gw 0x3E 0 0 0 0 0 0, {}, .nop 0 (gw 0x3E 0 0 0 0 0 0), at0 (gw 0x3E 0 0 0 0 0 0), .inl rfl, by decide +kernel, by decide +kernel, by decide +kernel⟩

end Sys2Proof.Tests
end

section
/-! Down ports: reading a side after it has been written, and what the operations of training make of it (spec/06 R201 to R207). -/
namespace Sys2Proof.Machine

/-! ## Sides (R201) -/

theorem portSide_of_ports {s t : State} (h : t.xpt.ports = s.xpt.ports) (q r : Nat) : portSide t q r = portSide s q r := by
  unfold portSide
  rw [h]

@[simp] theorem portSide_closing (a s : State) (q r : Nat) : portSide (closing a s) q r = portSide s q r :=
  portSide_of_ports (closing_keeps_ports a s) q r

theorem portSide_send (o : Out) (s : State) (q r : Nat) : portSide (send o s) q r = portSide s q r := rfl

@[simp] theorem portSide_setSide_self (port side : Nat) (p : PortSide) (s : State) : portSide (setSide port side p s) port side = p :=
  mget_mset_self _ _ _ _

theorem portSide_setSide_ne {port side q r : Nat} (p : PortSide) (s : State) (h : q * 2 + r ≠ port * 2 + side) :
    portSide (setSide port side p s) q r = portSide s q r :=
  mget_mset_ne _ _ _ h

/-- The two sides of the ports have keys of their own. -/
theorem sideKey_ne {port side q r : Nat} (hs : side ≤ 1) (hr : r ≤ 1) (h : (q, r) ≠ (port, side)) : q * 2 + r ≠ port * 2 + side := by
  intro e
  have hq : q = port := by omega
  have hr : r = side := by omega
  exact h (by rw [hq, hr])

/-! ## Training messages (R202, R203) -/

/-- INIT is said once: a START leaves its side without it. -/
theorem portSide_sendTrain_start (port side w : Nat) (s : State) :
    portSide (sendTrain port side 16 w s) port side = { portSide s port side with init := false } := by
  unfold sendTrain
  dsimp only
  rw [portSide_send]
  by_cases h : (portSide s port side).init = true
  · rw [if_pos ⟨rfl, h⟩, portSide_setSide_self]
  · rw [if_neg (fun e => h e.2), ← Bool.eq_false_iff.mpr h]

theorem portSide_sendTrain_ne {port side q r : Nat} (kind w : Nat) (s : State) (h : q * 2 + r ≠ port * 2 + side) :
    portSide (sendTrain port side kind w s) q r = portSide s q r := by
  have e (c : Prop) [Decidable c] (p : PortSide) : portSide (if c then setSide port side p s else s) q r = portSide s q r := by
    split
    · exact portSide_setSide_ne p s h
    · rfl
  exact e _ _

/-- A message that is no START changes no side. -/
theorem portSide_sendTrain_other {kind : Nat} (port side w q r : Nat) (s : State) (h : kind ≠ 16) :
    portSide (sendTrain port side kind w s) q r = portSide s q r := by
  unfold sendTrain
  dsimp only
  rw [if_neg (fun e => h e.1)]
  rfl

/-- What a message says of its side (R202) goes out. -/
theorem sent_sendTrain (port side kind w : Nat) (s : State) :
    Out.link port kind [side, leNat (trainBytes (kind - 15) (trainMsg (portSide s port side) (kind - 15) w)
      ++ leBytes 4 (trainCrc (kind - 15) (trainMsg (portSide s port side) (kind - 15) w)).toNat)] ∈ (sendTrain port side kind w s).out := by
  have e : (trainMsg (portSide s port side) (kind - 15) w).crc = trainCrc (kind - 15) (trainMsg (portSide s port side) (kind - 15) w) := rfl
  rw [← e]
  exact List.mem_cons_self

/-- A message whose CRC fails is stale, whatever it says. -/
theorem trainStale_of_crc {typ : Nat} {m : TrainMsg} (p : PortSide) (h : m.crc ≠ trainCrc typ m) : trainStale p typ m = true := by
  simp [trainStale, h]

/-- A message of an older epoch without INIT is stale. -/
theorem trainStale_of_older (typ : Nat) {m : TrainMsg} {p : PortSide}
    (h : newer 16 p.peerEp.toNat m.epoch.toNat = true) (hi : bitN m.flags 0 = false) : trainStale p typ m = true := by
  simp [trainStale, h, hi]

/-- A PROPOSE or a CONFIRM of another epoch of the receiver is stale. -/
theorem trainStale_of_echo {typ : Nat} {m : TrainMsg} {p : PortSide} (ht : typ ≠ 1) (h : m.echo ≠ p.localEp) : trainStale p typ m = true := by
  simp [trainStale, ht, h]

/-- A START that is whole, and not older or with INIT, is not stale. -/
theorem trainStale_start {m : TrainMsg} {p : PortSide} (hc : m.crc = trainCrc 1 m) (hw : m.width ≤ 3) (hp : m.cap ≤ 3)
    (hn : newer 16 p.peerEp.toNat m.epoch.toNat = false ∨ bitN m.flags 0 = true) : trainStale p 1 m = false := by
  rcases hn with hn | hn <;> simp [trainStale, ← hc, hw, hp, hn]

/-! ## Stale messages change nothing (R203) -/

theorem startEff_stale {port side : Nat} {m : TrainMsg} {s : State} (h : trainStale (portSide s port side) 1 m = true) :
    startEff port side m s = s := by
  simp [startEff, h]

theorem proposeEff_stale {port side : Nat} {m : TrainMsg} {s : State} (h : trainStale (portSide s port side) 2 m = true) :
    proposeEff port side m s = s := by
  simp [proposeEff, h]

theorem confirmEff_stale {port side : Nat} {m : TrainMsg} {s : State} (h : trainStale (portSide s port side) 3 m = true) :
    confirmEff port side m s = s := by
  simp [confirmEff, h]

/-- A command without effect leaves every port as it is. -/
theorem leaves_ports_of_eff {c : Instr} {f : State → State} {s : State} (h : exec c s = runEff f s) (hf : f s = s) :
    Leaves c s (fun t => t.xpt.ports = s.xpt.ports) :=
  leaves_runEff h (by rw [closing_keeps_ports, hf])

theorem leaves_start_stale {port side : Nat} {m : TrainMsg} {s : State} (h : trainStale (portSide s port side) 1 m = true) :
    Leaves (.start port side m) s (fun t => t.xpt.ports = s.xpt.ports) := leaves_ports_of_eff rfl (startEff_stale h)
theorem leaves_propose_stale {port side : Nat} {m : TrainMsg} {s : State} (h : trainStale (portSide s port side) 2 m = true) :
    Leaves (.propose port side m) s (fun t => t.xpt.ports = s.xpt.ports) := leaves_ports_of_eff rfl (proposeEff_stale h)
theorem leaves_confirm_stale {port side : Nat} {m : TrainMsg} {s : State} (h : trainStale (portSide s port side) 3 m = true) :
    Leaves (.confirm port side m) s (fun t => t.xpt.ports = s.xpt.ports) := leaves_ports_of_eff rfl (confirmEff_stale h)

/-! ## START (R203, R204) -/

/-- A START that is accepted: the epoch of the peer is its own, what was agreed before is dropped, and the lane test follows. -/
theorem startEff_taken {port side : Nat} {m : TrainMsg} {s : State} (hs : side ≤ 1) (h3 : (portSide s port side).state ≠ 3)
    (ho : portOn s port = true) (hst : trainStale (portSide s port side) 1 m = false)
    (hn : newer 16 m.epoch.toNat (portSide s port side).peerEp.toNat = true ∨ bitN m.flags 0 = true) :
    ∃ r c, portSide (startEff port side m s) port side
      = { portSide (if (portSide s port side).step = 1 then s else beginTrain port side s) port side with
          peerEp := m.epoch, step := 2, own := none, peer := none, restart := r || bitN m.flags 1, cap := c } := by
  have h1 : ¬ ((portSide s port side).state = 3 ∨ 1 < side ∨ portOn s port = false ∨ trainStale (portSide s port side) 1 m = true) := by
    simp [h3, ho, hst, hs]
  have h2 : (newer 16 m.epoch.toNat (portSide s port side).peerEp.toNat || bitN m.flags 0
      || ((portSide s port side).step == 1 && (portSide s port side).peerEp == m.epoch)) = true := by
    rcases hn with hn | hn <;> simp [hn]
  unfold startEff
  dsimp only
  rw [if_neg h1, h2, if_neg (by decide), portSide_setSide_self]
  exact ⟨_, _, rfl⟩

theorem leaves_start_taken {port side : Nat} {m : TrainMsg} {s : State} (hs : side ≤ 1) (h3 : (portSide s port side).state ≠ 3)
    (ho : portOn s port = true) (hst : trainStale (portSide s port side) 1 m = false)
    (hn : newer 16 m.epoch.toNat (portSide s port side).peerEp.toNat = true ∨ bitN m.flags 0 = true) :
    Leaves (.start port side m) s (fun t => (portSide t port side).peerEp = m.epoch ∧ (portSide t port side).step = 2 ∧
      (portSide t port side).own = none ∧ (portSide t port side).peer = none ∧ (bitN m.flags 1 = true → (portSide t port side).restart = true)) := by
  obtain ⟨r, c, e⟩ := startEff_taken hs h3 ho hst hn
  refine leaves_runEff rfl ?_
  rw [portSide_closing, e]
  exact ⟨rfl, rfl, rfl, rfl, fun h => by simp [h]⟩

end Sys2Proof.Machine

open Sys2Proof Sys2Proof.Machine

/-- Settles O57: each ground of R203 makes a message stale, and the row of a stale message has no effect; a START that none of them meets is
accepted. -/
theorem staleTrainingMessagesAreIgnored : Obligations.StaleTrainingMessagesAreIgnored := by
  unfold Obligations.StaleTrainingMessagesAreIgnored
  intro port side m s
  have stale {typ : Nat} (h : m.crc ≠ trainCrc typ m ∨ (newer 16 (portSide s port side).peerEp.toNat m.epoch.toNat = true ∧
      bitN m.flags 0 = false)) : trainStale (portSide s port side) typ m = true := by
    rcases h with h | ⟨h, hi⟩
    · exact trainStale_of_crc _ h
    · exact trainStale_of_older typ h hi
  refine ⟨fun h => leaves_start_stale (stale h), fun h => leaves_propose_stale (stale h), fun h => leaves_confirm_stale (stale h),
    fun h => ⟨leaves_propose_stale (trainStale_of_echo (by decide) h), leaves_confirm_stale (trainStale_of_echo (by decide) h)⟩, ?_⟩
  intro hs h3 ho hc hw hp hn
  have hst : trainStale (portSide s port side) 1 m = false := trainStale_start hc hw hp (hn.imp And.right id)
  obtain ⟨t, ht, hpeer, hstep, hown, hprop, _⟩ := leaves_start_taken hs h3 ho hst (hn.imp And.left id)
  exact ⟨t, ht, hpeer, hown, hprop, hstep⟩
end

section
/-! A READ of a cluster memory by which the engine loses its sessions: the statement about packets on the package, O42, fails. -/
namespace Sys2Proof.Machine

/-- The states that a command with an effect leaves are one state. -/
theorem of_leaves_runEff {c : Instr} {f : State → State} {s : State} {P : State → Prop} (h : exec c s = runEff f s) (hl : Leaves c s P) :
    P (closing s (f s)) := by
  obtain ⟨t, ht, hp⟩ := hl
  obtain rfl : closing s (f s) = t := Host.Outcome.next.inj (h.symm.trans ht)
  exact hp

/-- A request that waits in the open batch of the engine (spec/10 R322), of session 7. -/
def heldRequest : EReq :=
  { recd := [], session := 7, nonce := 9, host := false, peerIp := 1, peerPort := 2, arrival := 0, deadline := 0, block := 0, blen := 64
    tag := 0, version := 1, bucket := 0, adm := 0 }

/-- A package whose engine serves on partition 0 and holds a request. The session's line in stack 1, at address 448, is poisoned (R119), and so is
the word at byte 64 of cluster memory 0, which a load of core 0 is about to sample (R41). -/
def servingPackage : State :=
  { pkg := { power := 0, part := 1 }
    mp := { running := true }
    cfg := [(96, { base := 1, eff := 1 })]
    parts := [(0, { stackSet := 1, mode := 3, owner := 0, plan := 2, named := [(0, 0)], windows := [(0, ⟨0, 2 ^ 39, true, true⟩)] })]
    jobs := [(0, { id := 1, rankCount := 2, state := 1 })]
    fab := { ranks := [(0, 0x800C), (1, 0x8000)], addrs := [(0, { valid := true })], hqs := [(31, { owner := some 12 })] }
    eng := { state := 3, cleared := true, started := true, openB := [heldRequest] }
    cores := { core := [(0, { cond := .issuing, words := 1 })]
               pipes := [(0, { loads := [{ core := 0, addr := 64, len := 8, vec := false, d := 0, sample := 0, deliver := 4 }] })] }
    pho := { bundles := [(448, { lit := true, st := 0 })] }
    mem := { m := { bytes := [(448, 1)], poison := [448, cmBase 0 + 64] } } }

/-- A READ of the hub for the first line of that cluster memory (R189). -/
def clusterRead : OPkt :=
  { op := 2, dst := 0, final := 0, src := 12, part := 0xFF, tag := 7, addr := cmBase 0, arg := 64, vc := 0, flits := 1, len := 0, payload := [] }

/-- The READ and the package meet what the statement asks of them; the engine's state is settled besides. -/
theorem clusterRead_reaches_servingPackage : EngineSettled servingPackage ∧ PacketTaken 2 clusterRead servingPackage ∧
    endFenced servingPackage clusterRead.dst = false ∧ Served servingPackage clusterRead.addr clusterRead.arg ∧
    Served servingPackage (clusterRead.addr / 64 * 64) 64 ∧ Unpoisoned (atMemory clusterRead.addr (takePkt clusterRead servingPackage)) clusterRead.addr ∧
    pktReaches servingPackage clusterRead false (clusterRead.addr / 64 * 64) = true := by decide +kernel

/-- When the READ has reached the memory, the session's line still holds its byte. -/
theorem clusterRead_finds_session : getB (atMemory clusterRead.addr (takePkt clusterRead servingPackage)).mem.m 448 = 1 := by decide +kernel

/-- The command clears that line: the load that is sampled first ends the plan of partition 0, and the engine, which no longer serves, answers the
request that it holds, finds the line of its session lost and makes it FREE. -/
theorem clusterRead_clears_session : getB (closing servingPackage (readEff clusterRead [] {} servingPackage)).mem.m 448 = 0 := by decide +kernel

end Sys2Proof.Machine

open Sys2Proof Sys2Proof.Machine

/-- Refutes O42, by its clause of READ: the access samples the loads of the cluster memory first, and such a sample can end a plan and with it the
engine's service, which writes memory. No premise leaves this case out, and `EngineSettled`, which the clause of SIGNAL asks, would not do so. -/
theorem not_packagePacketRowsComplete : ¬ Obligations.PackagePacketRowsComplete := by
  unfold Obligations.PackagePacketRowsComplete
  rintro ⟨-, read, -⟩
  obtain ⟨-, taken, unfenced, served, line, clean, reaches⟩ := clusterRead_reaches_servingPackage
  obtain ⟨same, -⟩ := of_leaves_runEff rfl (read clusterRead servingPackage taken unfenced served line clean reaches)
  have cleared := clusterRead_clears_session
  rw [same, clusterRead_finds_session] at cleared
  exact absurd cleared (by decide)
end

section
/-! A flit that a relay has already carried: the statement about flits, O41, fails. -/
namespace Sys2Proof.Machine

/-! ## A whole flit, evaluated in parts (R184, R186) -/

/-- The fold of a CRC, each value found before the next: the kernel finds a fold's value from the outside, one level deep for every byte. -/
def crcInOrder : List Byte → Word32 → Word32
  | [], c => c
  | b :: bs, c => bif c.getLsbD 0 then crcInOrder bs (crc32Byte c b) else crcInOrder bs (crc32Byte c b)

theorem crcInOrder_eq (bs : List Byte) (c : Word32) : crcInOrder bs c = bs.foldl crc32Byte c := by
  induction bs generalizing c with
  | nil => rfl
  | cons b bs ih => rw [crcInOrder, ih, Bool.cond_self, List.foldl_cons]

/-- A flit without a wrong symbol decodes to its first 251 bytes. -/
theorem decode_of_clean {bs : List Byte} (h : (Rs.errors (Rs.symbols bs)).any (·.isEmpty) = true) : Rs.decode bs = some (bs.take 251, false) := by
  unfold Rs.decode
  cases he : Rs.errors (Rs.symbols bs) with
  | none => simp [he] at h
  | some es =>
    cases es with
    | nil => rfl
    | cons e es => simp [he] at h

/-- A flit is whole without a wrong symbol, with the CRC of bytes 0 to 246 in bytes 247 to 250, and of a known kind. -/
theorem wholeFlit_of_clean {bs m : List Byte} (hm : bs.take 251 = m) (h : (Rs.errors (Rs.symbols bs)).any (·.isEmpty) = true)
    (hc : (~~~ crcInOrder (m.take 247) 0xFFFFFFFF#32).toNat = fieldAt m 247 4) (hk : 1 ≤ (flitHdr m).kind ∧ (flitHdr m).kind ≤ 3) :
    wholeFlit bs = some (m, false) := by
  unfold wholeFlit
  rw [decode_of_clean h, hm]
  exact if_pos ⟨by rw [crc32, ← crcInOrder_eq, hc], hk⟩

/-! ## The flit and the link -/

/-- A WRITE of four bytes from die 0 to cluster memory 8, which is die 1's (R188). -/
def relayedWrite : OPkt :=
  { op := 1, vc := 0, flags := 4, dst := 1, final := 1, src := 0, part := 0, addr := cmBase 8, payload := [1, 2, 3, 4], len := 4 }

/-- Its transaction header and payload, as the BODY of one flit. -/
def relayedBody : List Byte :=
  [1, 4, 1, 1, 0, 0, 0, 0, 0, 0, 4, 0, 0, 0, 0, 0, 0, 0, 0, 8, 0, 1] ++ List.replicate 26 0 ++ [1, 2, 3, 4] ++ List.replicate 188 0

/-- Bytes 0 to 250 of its HEAD flit, of SEQ 0 on VC0, with their CRC (R183). -/
def relayedMsg : List Byte := [0, 1, 0, 2, 0, 0, 0] ++ relayedBody ++ [0xB4, 0xA0, 0xC7, 0x46]

/-- The flit, with its check symbols (R184). -/
def relayedFlit : List Byte := relayedMsg ++ [0xF0, 0xCD, 0x1D, 0xD0, 0x59]

/-- A package in whose bundle 0 the flit has exhausted its retries, and its packet has gone by a relay (R195). -/
def goneByRelay : State :=
  { xpt := { links := [(0, { next := 1, relayed := true, stuck := true,
                             retry := [{ seq := 0, vc := 0, body := relayedBody, tries := 16, gone := true }] })] } }

theorem wholeFlit_relayedFlit : wholeFlit relayedFlit = some (relayedMsg, false) :=
  wholeFlit_of_clean (by decide +kernel) (by decide +kernel) (by decide +kernel) (by decide +kernel)

/-- The flit is the one that the link expects, and it carries all of the WRITE. -/
theorem relayedFlit_expected : relayedFlit.length = 256 ∧ bundleOn goneByRelay.pkg.part 0 = true ∧ isIdle relayedFlit = false ∧
    (flitHdr relayedMsg).kind = 2 ∧ (flitHdr relayedMsg).seq = (linkOf goneByRelay 0).expect ∧
    asmNeed ⟨(flitHdr relayedMsg).vc, [(relayedMsg.drop 7).take 240], 0, 0⟩ ≤ 1 ∧
    relayedWrite = pktOfBodies (flitHdr relayedMsg).vc [(relayedMsg.drop 7).take 240] := by decide +kernel

/-- The flit is accepted, and no packet of it arrives: it only clears the link. -/
theorem relayedFlit_arrives_nowhere :
    (linkOf (closing goneByRelay (flitReceivedEff 0 false relayedFlit goneByRelay)) 0).arrived = [] := by
  unfold flitReceivedEff
  rw [wholeFlit_relayedFlit]
  decide +kernel

end Sys2Proof.Machine

open Sys2Proof Sys2Proof.Machine

/-- Refutes O41, by its first clause: the clause says of every one-flit packet that is accepted that it arrives, but a flit whose packet has gone
by a relay (R195) is accepted and given up, lest the packet arrive twice. -/
theorem not_flitRowsComplete : ¬ Obligations.FlitRowsComplete := by
  unfold Obligations.FlitRowsComplete
  rintro ⟨accepted, -⟩
  obtain ⟨length, on, busy, head, expected, whole, carries⟩ := relayedFlit_expected
  obtain ⟨inOrder, -⟩ := accepted 0 0 false relayedFlit relayedMsg false goneByRelay length on (.inr busy) rfl wholeFlit_relayedFlit (by omega)
  obtain ⟨-, -, -, arrives⟩ := of_leaves_runEff rfl (inOrder expected)
  obtain ⟨g, hg, -⟩ := arrives relayedWrite head whole carries (by decide) (by decide)
  rw [relayedFlit_arrives_nowhere] at hg
  exact absurd hg List.not_mem_nil
end

section
/-! What the fence of a stack leaves alone: all that was sent stays sent, the management channels keep what they hold, and so do the down ports.
The lemmas follow the calls of `fenceStack`, innermost first. -/
namespace Sys2Proof.Machine

/-- A state that has sent all that another has, with its management channels and down ports. -/
def Adds (s t : State) : Prop := Sends s t ∧ t.mp2 = s.mp2 ∧ t.xpt.ports = s.xpt.ports

theorem Adds.refl (s : State) : Adds s s := ⟨fun _ h => h, rfl, rfl⟩
theorem Adds.sends {s t : State} (h : Adds s t) : Sends s t := h.1
theorem Adds.mp2 {s t : State} (h : Adds s t) : t.mp2 = s.mp2 := h.2.1
theorem Adds.ports {s t : State} (h : Adds s t) : t.xpt.ports = s.xpt.ports := h.2.2

variable {s t : State}

theorem adds_ite_of {β : Type} (g : β → State) {a b : β} {c : Prop} [Decidable c] (h : Adds s (g a)) (h' : Adds s (g b)) :
    Adds s (g (if c then a else b)) := by
  split <;> assumption

theorem adds_ite {u : State} {c : Prop} [Decidable c] (h : Adds s t) (h' : Adds s u) : Adds s (if c then t else u) := by
  split <;> assumption

/-- A fold whose values carry a state, read from them by `g`. -/
theorem adds_foldl_of {α β : Type} (g : β → State) {f : β → α → β} (hf : ∀ a b, Adds s (g b) → Adds s (g (f b a))) (l : List α) {b : β}
    (h : Adds s (g b)) : Adds s (g (l.foldl f b)) := by
  induction l generalizing b with
  | nil => exact h
  | cons a l ih => exact ih (hf a b h)

theorem adds_foldl {α : Type} {f : State → α → State} (hf : ∀ a t, Adds s t → Adds s (f t a)) (l : List α) (h : Adds s t) :
    Adds s (l.foldl f t) := adds_foldl_of id hf l h

theorem adds_send (o : Out) (h : Adds s t) : Adds s (send o t) := ⟨h.1.send o, h.2⟩

theorem adds_setFab (f : Fabric) (h : Adds s t) : Adds s (setFab f t) := h
theorem adds_modCore (c : Nat) (f : Core → Core) (h : Adds s t) : Adds s (modCore c f t) := h
theorem adds_setCfg (item inst : Nat) (c : CfgItem) (h : Adds s t) : Adds s (setCfg t item inst c) := h
theorem adds_emit (src code : Nat) (args : List Nat) (h : Adds s t) : Adds s (emit src code args t) := h

/-- A state that differs in what `still` drops, but has sent the same. -/
theorem adds_of_still {u : State} (hs : still u = still t) (ho : u.out = t.out) (h : Adds s t) : Adds s u :=
  ⟨fun o hm => ho ▸ h.sends o hm, (still_mp2 hs).trans h.mp2, (congrArg (fun s => s.xpt.ports) hs).trans h.ports⟩

/-! ## Power (R379, R384) -/

theorem adds_sendGrant (n w : Nat) (h : Adds s t) : Adds s (sendGrant n w t) := adds_send _ h

theorem adds_retarget (x : Nat × Nat) (h : Adds s t) : Adds s (retarget t x) := by
  unfold retarget
  exact adds_ite h (adds_ite (adds_sendGrant _ _ h) h)

theorem adds_raiseGrant (n : Nat) (h : Adds s t) : Adds s (raiseGrant t n) := by
  unfold raiseGrant
  dsimp only
  split
  · exact h
  · exact adds_ite h (adds_ite (adds_sendGrant _ _ h) h)

theorem adds_recompute (h : Adds s t) : Adds s (recompute t) := by
  unfold recompute releaseRises
  exact adds_ite h (adds_foldl (fun _ _ => adds_raiseGrant _) _ (adds_foldl (fun _ _ => adds_retarget _) _ h))

/-! ## Plans (R51) -/

theorem adds_countWait (c n : Nat) (h : Adds s t) : Adds s (countWait c n t) := adds_ite h h

theorem adds_abortPart (pt : Nat) (h : Adds s t) : Adds s (abortPart pt t) := by
  unfold abortPart
  split
  · exact h
  · exact adds_foldl (fun _ _ h => adds_modCore _ _ (adds_countWait _ _ h)) _ h

theorem adds_planAbort (pt src res core pc code : Nat) (h : Adds s t) : Adds s (planAbort pt src res core pc code t) := by
  unfold planAbort
  split <;> exact h

theorem adds_stopPlan (pt : Nat) (h : Adds s t) : Adds s (stopPlan pt t) := by
  unfold stopPlan
  split
  · exact h
  · exact adds_ite h (adds_planAbort _ _ _ _ _ _ (adds_abortPart _ h))

theorem adds_leaveStacks (pt : Nat) (h : Adds s t) : Adds s (leaveStacks pt t) := by
  unfold leaveStacks
  split
  · exact h
  · exact adds_ite h h

theorem adds_stopPlanOf (c : Nat) (h : Adds s t) : Adds s (stopPlanOf c t) := by
  unfold stopPlanOf
  split
  · exact h
  · exact adds_stopPlan _ h

theorem adds_coreFault (c code : Nat) (h : Adds s t) : Adds s (coreFault c code t) := by
  unfold coreFault
  dsimp only
  split
  · exact h
  · exact adds_planAbort _ _ _ _ _ _ (adds_abortPart _ h)

theorem adds_detachCore (chan c : Nat) (h : Adds s t) : Adds s (detachCore chan c t) := by
  unfold detachCore resumeBrk advance
  exact adds_ite h (adds_ite (adds_ite (adds_coreFault _ _ h) h) h)

/-! ## Frames of the fabric (R264, R271) -/

theorem adds_cfgApplyHeld (item inst : Nat) (h : Adds s t) : Adds s (cfgApplyHeld item inst t) := by
  unfold cfgApplyHeld
  dsimp only
  split <;> exact h

theorem adds_packetBoundary (h : Adds s t) : Adds s (packetBoundary t) := adds_ite h (adds_cfgApplyHeld _ _ h)

theorem adds_emitFrame (k : Nat) (p : FabPkt) (h : Adds s t) : Adds s (emitFrame k p t) := by
  unfold emitFrame
  refine adds_packetBoundary (adds_send _ (adds_setFab _ (adds_setFab _ (adds_setFab _ ?_))))
  exact adds_ite (adds_setFab _ h) h

theorem adds_transmit (k : Nat) (p : FabPkt) (h : Adds s t) : Adds s (transmit k p t) := by
  unfold transmit
  exact adds_ite (adds_emitFrame _ _ h) (adds_ite (adds_emitFrame _ _ h) (adds_emitFrame _ _ h))

theorem adds_sendFab (p : FabPkt) (h : Adds s t) : Adds s (sendFab p t) := by
  unfold sendFab
  dsimp only
  split
  · exact adds_transmit _ _ h
  · exact h

theorem adds_sendAck (pkg stream : Nat) (h : Adds s t) : Adds s (sendAck pkg stream t) := by
  unfold sendAck
  dsimp only
  split
  · exact adds_transmit _ _ h
  · exact h

theorem adds_flushPeer (pkg : Nat) (h : Adds s t) : Adds s (flushPeer pkg t) := by
  unfold flushPeer
  exact adds_foldl (fun _ _ => adds_sendFab _) _ (adds_foldl (fun _ _ h => adds_ite (adds_sendAck _ _ h) h) _ h)

theorem adds_flushAll (h : Adds s t) : Adds s (flushAll t) := adds_foldl (fun _ _ => adds_flushPeer _) _ h

theorem adds_drainPort (k cause : Nat) (h : Adds s t) : Adds s (drainPort k cause t) := by
  unfold drainPort
  exact adds_ite h (adds_flushAll h)

theorem adds_sendMgmt (pkg : Nat) (x : List Byte) (h : Adds s t) : Adds s (sendMgmt pkg x t) := by
  unfold sendMgmt
  exact adds_ite h (adds_sendFab _ (adds_ite (adds_send _ h) h))

theorem adds_sendComplete (pkg ep jobId dseq : Nat) (v : BitVec 64) (h : Adds s t) : Adds s (sendComplete pkg ep jobId dseq v t) :=
  adds_sendFab _ h

/-! ## Workers (R376, R417) -/

theorem adds_copyStandby (pkg q op : Nat) (args : List Nat) (pl : List Byte) (h : Adds s t) : Adds s (copyStandby pkg q op args pl t) := by
  unfold copyStandby
  exact adds_ite (adds_send _ h) h

theorem adds_workerOut (pkg op : Nat) (args : List Nat) (pl : List Byte) (serves : Nat) (h : Adds s t) :
    Adds s (workerOut pkg op args pl serves t) := by
  unfold workerOut
  exact adds_send _ (adds_sendMgmt _ _ (adds_copyStandby _ _ _ _ _ h))

theorem adds_sendWorker (pkg op : Nat) (args : List Nat) (pl : List Byte) (serves : Nat) (h : Adds s t) :
    Adds s (sendWorker pkg op args pl serves t) := by
  unfold sendWorker queueWorker
  exact adds_ite (adds_ite h (adds_workerOut _ _ _ _ _ h)) h

theorem adds_askBitmap (gen : Nat) (h : Adds s t) : Adds s (askBitmap gen t) := adds_send _ (adds_sendMgmt _ _ h)

theorem adds_nextEpoch (pkg : Nat) (h : Adds s t) : Adds s (nextEpoch pkg t) := by
  unfold nextEpoch
  exact adds_foldl (fun _ _ h => adds_ite h (adds_sendWorker _ _ _ _ _ h)) _ h

/-! ## Transfers (R61, R66, R244) -/

theorem adds_addSem (c n k : Nat) (h : Adds s t) : Adds s (addSem c n k t) := by
  unfold addSem
  dsimp only
  split
  · exact h
  · split
    · exact h
    · split
      · exact h
      · exact adds_ite h h

theorem adds_endXfer (c tok : Nat) (sem : Option Nat) (v : BitVec 64) (h : Adds s t) : Adds s (endXfer c tok sem v t) := by
  unfold endXfer
  dsimp only
  split
  · exact h
  · exact adds_addSem _ _ _ h

theorem adds_tornHmx (d : Nat) (h : Adds s t) : Adds s (tornHmx d t) := by
  unfold tornHmx
  exact adds_foldl (fun _ _ h => adds_foldl (fun _ _ => adds_endXfer _ _ _ _) _ (adds_modCore _ _ h)) _ h

theorem adds_tornDie (pt d : Nat) (h : Adds s t) : Adds s (tornDie pt d t) := by
  unfold tornDie
  exact adds_foldl (fun _ _ => adds_endXfer _ _ _ _) _ (adds_foldl (fun _ _ => adds_endXfer _ _ _ _) _ (adds_tornHmx _ (adds_setFab _ h)))

/-! ## Boundaries of a job (R125, R299, R371) -/

theorem adds_applyOverlay (pt : Nat) (e : Nat × BitVec 64) (h : Adds s t) : Adds s (applyOverlay pt t e) := by
  unfold applyOverlay
  exact adds_ite (adds_emit _ _ _ (adds_ite (adds_setCfg _ _ _ h) h)) h

theorem adds_setOverlay (pt old mode : Nat) (h : Adds s t) : Adds s (setOverlay pt old mode t) := by
  unfold setOverlay
  exact adds_foldl (fun _ _ => adds_applyOverlay _ _) _ (adds_foldl (fun _ _ h => adds_ite (adds_setCfg _ _ _ h) h) _ h)

theorem adds_detachAll (p : Part) (h : Adds s t) : Adds s (detachAll p t) := adds_foldl (fun _ _ h => adds_detachCore _ _ h) _ h

theorem adds_jobBoundary (pt : Nat) (h : Adds s t) : Adds s (jobBoundary pt t) := by
  unfold jobBoundary
  extract_lets t1
  have h1 : Adds s t1 := adds_leaveStacks _ h
  split
  · exact h1
  · extract_lets t2 t3 t4 t5
    have h2 : Adds s t2 := by
      unfold t2
      split
      · exact h1
      · extract_lets t6 t7
        have h7 : Adds s t7 := adds_ite (adds_detachAll _ (adds_setOverlay _ _ _ h1)) (adds_setOverlay _ _ _ h1)
        split <;> exact h7
    have h3 : Adds s t3 := by
      unfold t3
      split <;> exact h2
    have h4 : Adds s t4 := adds_foldl (fun _ _ => adds_cfgApplyHeld _ _) _ h3
    exact adds_recompute (adds_ite (adds_cfgApplyHeld _ _ (adds_cfgApplyHeld _ _ h4)) h4)

/-! ## Cluster memory (R40, R118 to R122) -/

theorem adds_abortFenced (c : Nat) (h : Adds s t) : Adds s (abortFenced c t) := by
  unfold abortFenced
  split
  · exact h
  · split
    · exact h
    · exact adds_ite h (adds_planAbort _ _ _ _ _ _ (adds_abortPart _ h))

theorem adds_vcxLost (c : Nat) (x : Xfer) (h : Adds s t) : Adds s (vcxLost c x t) := by
  unfold vcxLost
  exact adds_endXfer _ _ _ _ h

theorem adds_testSpare (f : LaneFind) (sp : Nat) (h : Adds s t) : Adds s (testSpare f sp t) := by
  unfold testSpare
  refine adds_ite h ?_
  split <;> exact h

theorem adds_unloadIfNamed (c : Nat) (h : Adds s t) : Adds s (unloadIfNamed c t) := by
  unfold unloadIfNamed
  split
  · exact h
  · split
    · exact h
    · exact adds_ite h h

theorem adds_substitute (f : LaneFind) (c : Nat) (h : Adds s t) : Adds s (substitute f c t) := by
  unfold substitute
  extract_lets sp cores t1 t2 t3
  have h3 : Adds s t3 := adds_unloadIfNamed _ (adds_testSpare _ _ h)
  exact adds_ite h (adds_ite (adds_emit _ _ _ h3) (adds_emit _ _ _ h3))

theorem adds_fenceCore (f : LaneFind) (p cause : Nat) (h : Adds s t) : Adds s (fenceCore f p cause t) := by
  unfold fenceCore
  extract_lets cores t1
  have h1 : Adds s t1 := h
  refine adds_ite h ?_
  split
  · exact h1
  · extract_lets fl t2 t3 t4
    have h4 : Adds s t4 := adds_abortFenced _ (adds_foldl (fun _ _ => adds_vcxLost _ _) _ h1)
    split
    · exact adds_substitute _ _ h4
    · exact adds_ite h4 (adds_substitute _ _ h4)

theorem adds_sramAgain (kind unit : Nat) (h : Adds s t) : Adds s (sramAgain kind unit t) := by
  unfold sramAgain
  exact adds_ite h (adds_ite (adds_fenceCore _ _ _ h) h)

theorem adds_reportBad (reader : Nat) (l : List Nat) (h : Adds s t) : Adds s (reportBad reader l t) := by
  unfold reportBad
  split
  · exact h
  · exact adds_sramAgain _ _ h

theorem adds_reportStop (c reader : Nat) (l : List Nat) (h : Adds s t) : Adds s (reportStop c reader l t) := by
  unfold reportStop
  split
  · exact h
  · exact adds_sramAgain _ _ (adds_stopPlanOf _ h)

theorem adds_reportCorr (a : Nat) (corr : Bool) (h : Adds s t) : Adds s (reportCorr a corr t) := by
  unfold reportCorr
  exact adds_ite h h

theorem adds_setMem (m : Mem) (h : Adds s t) : Adds s (setMem t m) := h

theorem adds_sramStore (a : Nat) (bs : List Byte) (corr bad : Bool) (h : Adds s t) : Adds s (sramStore a bs corr bad t) := by
  unfold sramStore
  exact adds_ite (adds_ite (adds_reportBad _ _ (adds_setMem _ (adds_reportCorr _ _ h))) (adds_reportCorr _ _ h)) h

theorem adds_commitTo (cl c : Nat) (h : Adds s t) : Adds s (commitTo cl c t) := by
  unfold commitTo commitAll
  exact adds_foldl (fun _ _ => adds_sramStore _ _ _ _) _ h

theorem adds_sampleLoad (cl : Nat) (x : CmLoad) (h : Adds s t) : Adds s (sampleLoad cl x t).2 := by
  unfold sampleLoad
  dsimp only
  split
  · exact adds_reportCorr _ _ h
  · exact adds_modCore _ _ (adds_reportStop _ _ _ (adds_reportCorr _ _ h))

theorem adds_setPipe (cl : Nat) (p : CmPipe) (h : Adds s t) : Adds s (setPipe cl p t) := h

theorem adds_sampleTo (cl c : Nat) (h : Adds s t) : Adds s (sampleTo cl c t) := by
  unfold sampleTo
  exact adds_foldl (fun _ _ h => adds_setPipe _ _ (adds_sampleLoad _ _ (adds_commitTo _ _ h))) _ h

theorem adds_reachRood (site id c : Nat) (h : Adds s t) : Adds s (reachRood site id c t) := adds_ite h h

theorem adds_bump (id inst n : Nat) (h : Adds s t) : Adds s (bump id inst n t) := h

theorem adds_crossCl (cl : Nat) (out : Bool) (h : Adds s t) : Adds s (crossCl cl out t) := h

theorem adds_extTake (cl : Nat) (h : Adds s t) : Adds s (extTake cl t) := by
  unfold extTake
  extract_lets p now q t1 t2 t3
  have h1 : Adds s t1 := adds_setPipe _ _ h
  clear_value t1
  have h3 : Adds s t3 := adds_reachRood _ _ _ (adds_commitTo _ _ (adds_sampleTo _ _ (adds_crossCl _ _ h1)))
  exact adds_ite h3 (adds_bump _ _ _ h3)

theorem adds_touchCm (cl : Nat) (h : Adds s t) : Adds s (touchCm cl t) := by
  unfold touchCm
  exact adds_ite h (adds_ite h h)

/-! ## Memory behind an address (R125) -/

theorem adds_readLine (a : Nat) (fs : List LineFind) (h : Adds s t) : Adds s (readLine a fs t).2 :=
  adds_of_still (still_readLine _ _ _) (out_readLine _ _ _) h

theorem adds_unflip (a : Nat) (h : Adds s t) : Adds s (unflip a t) := adds_of_still (still_unflip _ _) (out_unflip _ _) h

theorem adds_dropOld (a : Nat) (p : LinePlace) (h : Adds s t) : Adds s (dropOld a p t) :=
  adds_of_still (still_dropOld _ _ _) (out_dropOld _ _ _) h

theorem adds_writeDpa (a : Nat) (bs : List Byte) (poison : List (Nat × Nat)) (h : Adds s t) : Adds s (writeDpa a bs poison t).2 := by
  unfold writeDpa
  split
  · exact adds_of_still (still_hbmWrite _ _ _ _) (out_hbmWrite _ _ _ _) h
  · split
    · exact h
    · exact adds_setMem _ (adds_extTake _ (adds_touchCm _ h))
  · exact h

theorem adds_readDpaQ (a : Nat) (fs : List LineFind) (e : Ecc) (h : Adds s t) : Adds s (readDpaQ a fs e t).2.2 := by
  unfold readDpaQ
  split
  · exact adds_readLine _ _ h
  · split
    · exact h
    · extract_lets t1 l t2
      have h2 : Adds s t2 := adds_reportCorr _ _ (adds_extTake _ (adds_touchCm _ h))
      split <;> exact h2
  · exact h

/-! ## Descriptors and works of the hub (R265, R274, R282) -/

theorem adds_compTo (src tag : Nat) (hq : Option Nat) (v : BitVec 64) (h : Adds s t) : Adds s (compTo src tag hq v t) := by
  unfold compTo
  have h1 : Adds s (hqDone hq t) := by
    unfold hqDone
    split <;> exact h
  exact adds_ite (adds_send _ h1) (adds_ite (adds_ite h1 h1) h1)

theorem adds_finishDesc (k : Nat) (d : HubDesc) (v : BitVec 64) (h : Adds s t) : Adds s (finishDesc k d v t) :=
  adds_compTo _ _ _ _ (adds_setFab _ h)

theorem adds_mputCheck (k : Nat) (h : Adds s t) : Adds s (mputCheck k t) := by
  unfold mputCheck
  split
  · exact h
  · refine adds_ite h ?_
    extract_lets st
    split
    · exact adds_finishDesc _ _ _ h
    · exact adds_sendComplete _ _ _ _ _ (adds_setFab _ h)

theorem adds_askDie (w : HubWork) (ep sub : Nat) (fields : List Nat) (pl : List Byte) (h : Adds s t) : Adds s (askDie w ep sub fields pl t) := by
  unfold askDie
  exact adds_send _ (adds_setFab _ h)

theorem adds_copySignals (k mask a v : Nat) (h : Adds s t) : Adds s (copySignals k mask a v t) := by
  unfold copySignals
  refine adds_foldl (fun _ _ h => adds_ite (adds_askDie _ _ _ _ _ h) ?_) _ h
  split <;> exact h

theorem adds_copiesStep (k : Nat) (h : Adds s t) : Adds s (copiesStep k t) := by
  unfold copiesStep
  split
  · exact h
  · refine adds_ite h ?_
    extract_lets mask t1
    have h1 : Adds s t1 := adds_ite (adds_copySignals _ _ _ _ (adds_setFab _ h)) h
    split
    · exact h1
    · exact adds_ite h1 h1

theorem adds_skipDest (k n : Nat) (h : Adds s t) : Adds s (skipDest k n t) := by
  unfold skipDest
  split <;> exact h

theorem adds_gotBytes (k n st : Nat) (h : Adds s t) : Adds s (gotBytes k n st t) := by
  unfold gotBytes
  split
  · exact h
  · exact adds_ite (adds_finishDesc _ _ _ h) h

theorem adds_recvComplete (p : FabPkt) (h : Adds s t) : Adds s (recvComplete p t) := by
  unfold recvComplete
  extract_lets isIt
  split
  · exact h
  · exact adds_ite (adds_mputCheck _ (adds_setFab _ h)) (adds_ite (adds_ite (adds_finishDesc _ _ _ h) h) (adds_finishDesc _ _ _ h))

theorem adds_dieWrite (ep pt a : Nat) (bs : List Byte) (mask : Nat) (h : Adds s t) : Adds s (dieWrite ep pt a bs mask t).2 := by
  unfold dieWrite
  split
  · exact h
  · extract_lets t1
    have h1 : Adds s t1 := adds_ite h h
    refine adds_foldl_of Prod.snd (fun q x h => ?_) _ h1
    split
    · exact h
    · split
      · exact h
      · exact adds_writeDpa _ _ _ h

theorem adds_recvReadData (p : FabPkt) (h : Adds s t) : Adds s (recvReadData p t) := by
  unfold recvReadData
  split
  · exact h
  · extract_lets a
    refine adds_ite (adds_ite (adds_askDie _ _ _ _ _ h) (adds_gotBytes _ _ _ h)) ?_
    exact adds_gotBytes _ _ _ (adds_dieWrite _ _ _ _ _ h)

theorem adds_answerFab (p : FabPkt) (h : Adds s t) : Adds s (answerFab p t) := by
  unfold answerFab
  exact adds_ite (adds_ite (adds_recvComplete _ h) (adds_recvReadData _ h)) (adds_sendFab _ h)

/-! ## Contexts of a sender (R281, R282) -/

theorem adds_modRx (k dseq : Nat) (f : RxDesc → RxDesc) (h : Adds s t) : Adds s (modRx k dseq f t) := by
  unfold modRx
  dsimp only
  split <;> exact h

theorem adds_readRange (ep a n : Nat) (fs : List LineFind) (e : Ecc) (h : Adds s t) : Adds s (readRange ep a n fs e t).2.2 := by
  unfold readRange readLines
  exact adds_reportBad _ _ (adds_foldl_of (fun x : List (Nat × LineOut) × List Nat × State => x.2.2) (fun _ _ => adds_readDpaQ _ _ _) _ h)

theorem adds_readStretch (pkg pt jobId dseq chan ep a n pkt npkt off : Nat) (h : Adds s t) :
    Adds s (readStretch pkg pt jobId dseq chan ep a n pkt npkt off t) := by
  unfold readStretch readDone
  refine adds_ite (adds_modRx _ _ _ h) (adds_ite (adds_modRx _ _ _ h) (adds_ite (adds_askDie _ _ _ _ _ h) (adds_ite (adds_modRx _ _ _ h) ?_)))
  exact adds_modRx _ _ _ (adds_answerFab _ (adds_readRange 12 a n [] {} h))

theorem adds_startReads (pkg pt jobId dseq : Nat) (r : RxDesc) (h : Adds s t) : Adds s (startReads pkg pt jobId dseq r t) := by
  unfold startReads
  exact adds_foldl (fun _ _ => adds_foldl (fun _ _ => adds_readStretch _ _ _ _ _ _ _ _ _ _ _) _) _ (adds_modRx _ _ _ h)

theorem adds_addWord (a v : Nat) (fs : List LineFind) (e : Ecc) (h : Adds s t) : Adds s (addWord a v fs e t).2 := by
  unfold addWord
  extract_lets sum l p
  split
  · have h1 := adds_readLine l fs h
    split
    next u e => rw [e] at h1; exact h1
    next u e => rw [e] at h1; exact adds_bump _ _ _ (adds_setMem _ (adds_unflip _ (adds_dropOld _ _ h1)))
  · split
    · exact h
    · exact adds_reportBad _ _ (adds_setMem _ (adds_reportCorr _ _ (adds_extTake _ (adds_touchCm _ h))))
  · exact h

theorem adds_markReturn (pt a : Nat) (h : Adds s t) : Adds s (markReturn pt a t) := by
  unfold markReturn
  exact adds_ite h (adds_ite h h)

theorem adds_ringOut (k : Nat) (h : Adds s t) : Adds s (ringOut k t) := h

theorem adds_signalAt (pt a v : Nat) (byHub : Bool) (fs : List LineFind) (e : Ecc) (h : Adds s t) : Adds s (signalAt pt a v byHub fs e t).2 := by
  unfold signalAt
  split
  · exact h
  · split
    · exact h
    · have h1 := adds_addWord a v fs e h
      split
      next ok u hu =>
      rw [hu] at h1
      split
      · exact h1
      · exact adds_markReturn _ _ (adds_ite (adds_foldl (fun _ _ => adds_ringOut _) _ h1) h1)

theorem adds_rxSignal (pkg pt jobId dseq : Nat) (q : Nat × Nat × Nat) (h : Adds s t) : Adds s (rxSignal pkg pt jobId dseq q t) := by
  unfold rxSignal
  extract_lets k t1 done
  have h1 : Adds s t1 := adds_modRx _ _ _ h
  refine adds_ite (adds_askDie _ _ _ _ _ h1) (adds_ite (adds_modRx _ _ _ h1) ?_)
  exact adds_modRx _ _ _ (adds_ite_of Prod.snd h1 (adds_signalAt pt q.2.1 q.2.2 true [] {} h1))

theorem adds_advanceOne (pkg pt jobId : Nat) (h : Adds s t) : Adds s (advanceOne pkg pt jobId t).2 := by
  unfold advanceOne
  extract_lets k c next
  have hn {t : State} (h : Adds s t) : Adds s (next t) := h
  split
  · exact h
  next r _ =>
    refine adds_ite_of Prod.snd (adds_ite_of Prod.snd (adds_startReads _ _ _ _ _ h) h) (adds_ite_of Prod.snd h ?_)
    split
    · extract_lets t1
      have h1 : Adds s t1 := by
        unfold t1
        split
        · exact h
        · exact adds_copiesStep _ (adds_setFab _ h)
      split
      · exact hn h1
      · exact adds_ite_of Prod.snd (adds_mputCheck _ (hn (adds_setFab _ h1))) h1
    · split
      · exact adds_ite_of Prod.snd (adds_rxSignal _ _ _ _ _ h) (adds_ite_of Prod.snd h (adds_answerFab _ (hn h)))
      · exact adds_answerFab _ (hn h)

theorem adds_advanceCtx (fuel pkg pt jobId : Nat) (h : Adds s t) : Adds s (advanceCtx fuel pkg pt jobId t) := by
  induction fuel generalizing t with
  | zero => exact h
  | succ n ih =>
    have h1 := adds_advanceOne pkg pt jobId h
    rw [advanceCtx]
    exact adds_ite (ih h1) h1

/-! ## Fences and torn jobs (R289, R299 to R305) -/

theorem adds_fenceEdges (h : Adds s t) : Adds s (fenceEdges t) := by
  unfold fenceEdges
  refine adds_foldl (fun q t h => adds_ite h ?_) _ h
  extract_lets t1 t2
  have h1 : Adds s t1 := by
    refine adds_foldl (fun w t h => adds_ite h ?_) _ h
    split
    · exact h
    · exact adds_skipDest _ _ (adds_setFab _ h)
  clear_value t1
  have h2 : Adds s t2 := by
    unfold t2
    split
    · exact h1
    · refine adds_ite h1 ?_
      split
      · exact h1
      · refine adds_foldl (fun e t h => ?_) _ h1
        dsimp only
        split
        · exact h
        · exact adds_skipDest _ _ (adds_setFab _ h)
  split
  · exact adds_mputCheck _ (adds_copiesStep _ h2)
  · exact adds_advanceCtx _ _ _ _ (adds_mputCheck _ h2)

theorem adds_applyFence (gen a1 mask : Nat) (h : Adds s t) : Adds s (applyFence gen a1 mask t) := by
  unfold applyFence adoptFence
  exact adds_ite h (adds_ite (adds_fenceEdges (adds_emit _ _ _ (adds_setFab _ h))) (adds_askBitmap _ (adds_fenceEdges (adds_emit _ _ _ (adds_setFab _ h)))))

theorem adds_clearCombs (pt : Nat) (fabric : Bool) (h : Adds s t) : Adds s (clearCombs pt fabric t) := h
theorem adds_setJob (pt : Nat) (j : Job) (h : Adds s t) : Adds s (setJob t pt j) := h

theorem adds_tornDown (pt : Nat) (h : Adds s t) : Adds s (tornDown pt t) := by
  unfold tornDown
  extract_lets j t1 t2 fab t3 t4
  have h2 : Adds s t2 := by
    unfold t2
    split
    · exact h
    · exact adds_foldl (fun _ _ => adds_tornDie _ _) _ h
  have h3 : Adds s t3 := h2
  have h4 : Adds s t4 := adds_stopPlan _ (adds_clearCombs _ _ h3)
  exact adds_ite h (adds_flushAll (adds_setFab _ (adds_jobBoundary _ (adds_setJob _ _ h4))))

theorem adds_writeAddr (pkg : Nat) (e : AddrEnt) (h : Adds s t) : Adds s (writeAddr pkg e t) := by
  unfold writeAddr
  exact adds_setFab _ (adds_ite (adds_foldl (fun _ _ => adds_drainPort _ _) _ (adds_ite (adds_setFab _ h) h)) (adds_ite (adds_setFab _ h) h))

theorem adds_jobSet (a : Nat → Nat) (h : Adds s t) : Adds s (jobSet a t).s := by
  unfold jobSet
  exact adds_ite_of WkOut.s h (adds_ite_of WkOut.s h (adds_ite_of WkOut.s h h))

theorem adds_activateJob (pt : Nat) (h : Adds s t) : Adds s (activateJob pt t) :=
  adds_clearCombs _ _ (adds_jobBoundary _ (adds_setJob _ _ h))

theorem adds_workerDo (op : Nat) (a : Nat → Nat) (pl : List Byte) (h : Adds s t) : Adds s (workerDo op a pl t).s := by
  unfold workerDo
  split
  · split
    · exact h
    · exact adds_writeAddr _ _ h
  · exact adds_ite_of WkOut.s h (adds_ite_of WkOut.s h h)
  · exact adds_ite_of WkOut.s h (adds_ite_of WkOut.s h h)
  · exact adds_jobSet _ h
  · split
    · exact h
    · exact adds_ite_of WkOut.s (adds_activateJob _ h) h
  · split
    · exact h
    · exact adds_tornDown _ h
  · exact adds_applyFence _ _ _ h
  · exact h
  · exact adds_ite_of WkOut.s h h
  · exact h
  · exact h

theorem adds_toMember (pkg op : Nat) (args : List Nat) (pl : List Byte) (serves : Nat) (h : Adds s t) :
    Adds s (toMember pkg op args pl serves t).2 := by
  unfold toMember
  exact adds_ite_of Prod.snd (adds_workerDo _ _ _ h) (adds_sendWorker _ _ _ _ _ h)

theorem adds_toPod (but : Option Nat) (op : Nat) (args : List Nat) (pl : List Byte) (h : Adds s t) : Adds s (toPod but op args pl t) := by
  unfold toPod
  exact adds_foldl (fun _ _ h => adds_ite h (adds_toMember _ _ _ _ _ h)) _ h

theorem adds_finishTicket (k status detail : Nat) (ws : List Word32) (h : Adds s t) : Adds s (finishTicket k status detail ws t) :=
  adds_of_still (still_finishTicket _ _ _ _ _) (out_finishTicket _ _ _ _ _) h

theorem adds_doRemoval (r : Nat × Option Nat × Option Nat) (h : Adds s t) : Adds s (doRemoval r t) := by
  unfold doRemoval
  extract_lets t1 entry e t2 pod t3
  have h1 : Adds s t1 := adds_nextEpoch _ h
  have h2 : Adds s t2 := adds_toPod _ _ _ _ h1
  have h3 : Adds s t3 := by
    unfold t3
    split
    · exact h2
    · exact adds_toPod _ _ _ _ h1
  split
  · exact h3
  · exact adds_finishTicket _ _ _ _ h3

theorem adds_checkRemovals (h : Adds s t) : Adds s (checkRemovals t) := by
  unfold checkRemovals
  exact adds_foldl (fun _ _ => adds_doRemoval _) _ (adds_setFab _ h)

theorem adds_jobTornNow (id missing : Nat) (h : Adds s t) : Adds s (jobTornNow id missing t) := by
  unfold jobTornNow
  split
  · exact h
  · split
    · exact h
    · extract_lets t1
      have h1 : Adds s t1 := h
      split
      extract_lets t2 t3
      have h2 : Adds s t2 := adds_foldl (fun _ _ => adds_finishTicket _ _ _ _) _ (adds_setFab _ h1)
      refine adds_checkRemovals ?_
      unfold t3
      split
      · exact adds_ite (adds_finishTicket _ _ _ _ h2) h2
      · exact h2

theorem adds_mgrTear (id cause : Nat) (h : Adds s t) : Adds s (mgrTear id cause t) := by
  unfold mgrTear
  split
  · exact h
  · refine adds_ite h ?_
    extract_lets live t1 t2
    have h2 : Adds s t2 := adds_foldl (fun _ _ => adds_toMember _ _ _ _ _) _ h
    split
    · exact adds_ite (adds_jobTornNow _ _ h2) h2
    · exact h2

theorem adds_dieDead (pkg ep cause : Nat) (h : Adds s t) : Adds s (dieDead pkg ep cause t) := by
  unfold dieDead tearThere
  exact adds_ite h (adds_foldl (fun _ _ => adds_mgrTear _ _) _ (adds_toPod _ _ _ _ h))

/-! ## The fence of a stack, and the end of a command (R207, log 3) -/

theorem adds_fenceStack (n cause : Nat) (h : Adds s t) : Adds s (fenceStack n cause t) := by
  unfold fenceStack
  refine adds_ite h ?_
  extract_lets rel t1 t2 die t3 t4 t5
  have h2 : Adds s t2 := h
  clear_value t2
  have h3 : Adds s t3 := h2
  have h4 : Adds s t4 := adds_dieDead _ _ _ h3
  refine adds_recompute ?_
  unfold t5
  split
  · exact h4
  · exact adds_ite h4 (adds_leaveStacks _ (adds_stopPlan _ h4))

theorem adds_isolationSettle (a s : State) : Adds s (isolationSettle a s) := by
  unfold isolationSettle
  extract_lets r
  have h : Adds s r := adds_foldl (fun _ _ h => adds_ite (adds_fenceStack _ _ h) h) _ (Adds.refl s)
  exact adds_ite (Adds.refl s) ⟨h.sends, h.mp2, rfl⟩

end Sys2Proof.Machine
end

section
/-! What the rows of down ports make of their sides (spec/06 R201 to R207). -/
namespace Sys2Proof.Machine

/-! ## Links and ports (R206) -/

theorem kept_freeBufs (k vc res sh : Nat) (s : State) : kept (freeBufs k vc res sh s) = kept s := rfl

theorem kept_moveTraffic (k : Nat) (s : State) : kept (moveTraffic k s) = kept s := by
  unfold moveTraffic
  split
  · rfl
  · dsimp only
    rw [kept_queueFlits, kept_setLink, foldl_keeps kept _ (fun _ _ => kept_freeBufs _ _ _ _ _)]

theorem kept_handOver (k : Nat) (s : State) : kept (handOver k s) = kept s := by
  unfold handOver
  dsimp only
  split
  · rfl
  · exact kept_moveTraffic k s

theorem kept_replayAll (k : Nat) (s : State) : kept (replayAll k s) = kept s := by
  unfold replayAll
  split
  · rfl
  · extract_lets l b r hit t1 t2
    have h2 : kept t2 = kept s := (foldl_keeps kept _ (fun _ _ => kept_putWire _ _ _ _ _ _ _) _ _).trans rfl
    clear_value t2 t1 hit
    cases hit with
    | none => exact h2
    | some f =>
      dsimp only
      rw [kept_handOver]
      split <;> exact h2

theorem kept_pumpAll (k : Nat) (s : State) : kept (pumpAll k s) = kept s := kept_pump 512 k s

theorem portSide_of_kept {s t : State} (h : kept t = kept s) (q r : Nat) : portSide t q r = portSide s q r :=
  portSide_of_ports (congrArg (fun s => s.xpt.ports) h) q r

theorem portSide_setSide (port side q r : Nat) (p : PortSide) (s : State) :
    portSide (setSide port side p s) q r = if q * 2 + r = port * 2 + side then p else portSide s q r :=
  mget_mset _ _ _ _ _

/-- Who carries a port's bundles changes; the state of a side does not. -/
theorem state_portSide_adopt (port q r : Nat) (s : State) : (portSide (adopt port s).2 q r).state = (portSide s q r).state := by
  unfold adopt
  split
  · exact congrArg _ (portSide_of_kept (foldl_keeps kept _ (fun _ _ => kept_moveTraffic _ _) _ _) q r)
  next p _ =>
    have step (k : Nat) (c : Prop) [Decidable c] (t : State) : kept (if c then pumpAll k (replayAll k t) else t) = kept t := by
      split
      · rw [kept_pumpAll, kept_replayAll]
      · rfl
    dsimp only
    rw [portSide_of_kept (foldl_keeps kept _ (fun _ _ => step _ _ _) _ _), portSide_setSide]
    split
    next e => unfold portSide; rw [e]
    · rfl

/-! ## A handshake begins (R203) -/

/-- What a side is when its handshake has begun. -/
def trainBegun (p : PortSide) : PortSide :=
  { p with state := 1, step := 1, own := none, peer := none, restart := false, cap := 3, init := false }

theorem portSide_beginTrain_self {port side : Nat} {s : State} (h : (portSide s port side).state ≠ 3) :
    portSide (beginTrain port side s) port side = trainBegun (portSide s port side) := by
  unfold beginTrain
  dsimp only
  rw [if_neg h, portSide_sendTrain_start, portSide_setSide_self]
  rfl

theorem portSide_beginTrain_ne {port side q r : Nat} (s : State) (h : q * 2 + r ≠ port * 2 + side) :
    portSide (beginTrain port side s) q r = portSide s q r := by
  unfold beginTrain
  dsimp only
  split
  · rfl
  · rw [portSide_sendTrain_ne _ _ _ h, portSide_setSide_ne _ _ h]

/-- A handshake keeps the count of those that have failed (R204). -/
theorem fails_beginTrain (port side : Nat) (s : State) : (portSide (beginTrain port side s) port side).fails = (portSide s port side).fails := by
  by_cases h : (portSide s port side).state = 3
  · unfold beginTrain
    dsimp only
    rw [if_pos h]
  · rw [portSide_beginTrain_self h]
    rfl

/-- A side that trains again begins a handshake in a new epoch. -/
theorem portSide_retrain {port side cause : Nat} {s : State} (h : (portSide s port side).state ≠ 3) (hs : side ≤ 1) (ho : portOn s port = true) :
    portSide (retrain port side cause s) port side = trainBegun { portSide s port side with localEp := (portSide s port side).localEp + 1 } := by
  have hc : ¬ ((portSide s port side).state = 3 ∨ 1 < side ∨ portOn s port = false) := by simp [h, hs, ho]
  unfold retrain
  dsimp only
  have e (p : PortSide) (src code : Nat) (args : List Nat) : portSide (emit src code args (setSide port side p s)) port side = p :=
    portSide_setSide_self port side p s
  rw [if_neg hc, portSide_beginTrain_self (by rw [e]; exact h), e]

/-- The START with which a handshake begins (R202). -/
theorem sent_beginTrain {port side : Nat} {s : State} {m : TrainMsg} (h : (portSide s port side).state ≠ 3)
    (hm : m = { flags := b2n (portSide s port side).init, epoch := (portSide s port side).localEp, echo := (portSide s port side).peerEp
                width := 3, cap := 0, spares := (portSide s port side).sparesUsed }) :
    Out.link port 16 [side, leNat (trainBytes 1 m ++ leBytes 4 (trainCrc 1 m).toNat)] ∈ (beginTrain port side s).out := by
  have e := sent_sendTrain port side 16 3 (setSide port side
    { portSide s port side with state := 1, step := 1, own := none, peer := none, restart := false, cap := 3 } s)
  have bytes : trainBytes 1 (trainMsg { portSide s port side with state := 1, step := 1, own := none, peer := none, restart := false, cap := 3 } 1 3)
      = trainBytes 1 m := by
    subst hm
    simp [trainMsg, trainBytes, b2n]
  unfold beginTrain
  dsimp only
  rw [if_neg h]
  rw [portSide_setSide_self] at e
  simpa only [trainCrc, Nat.reduceSub, bytes] using e

theorem sent_retrain {port side cause : Nat} {s : State} {m : TrainMsg} (h : (portSide s port side).state ≠ 3) (hs : side ≤ 1)
    (ho : portOn s port = true) (hm : m = { flags := b2n (portSide s port side).init, epoch := (portSide s port side).localEp + 1
                                            echo := (portSide s port side).peerEp, width := 3, cap := 0, spares := (portSide s port side).sparesUsed }) :
    Out.link port 16 [side, leNat (trainBytes 1 m ++ leBytes 4 (trainCrc 1 m).toNat)] ∈ (retrain port side cause s).out := by
  have hc : ¬ ((portSide s port side).state = 3 ∨ 1 < side ∨ portOn s port = false) := by simp [h, hs, ho]
  have e (p : PortSide) (src code : Nat) (args : List Nat) : portSide (emit src code args (setSide port side p s)) port side = p :=
    portSide_setSide_self port side p s
  unfold retrain
  dsimp only
  rw [if_neg hc]
  exact sent_beginTrain (by rw [e]; exact h) (by rw [e]; exact hm)

/-! ## The lane test, PROPOSE and CONFIRM (R203 to R205) -/

/-- A side that has no proposal of its peer waits for it. -/
theorem compareWidths_of_peer_none {port side : Nat} {s : State} (h : (portSide s port side).peer = none) : compareWidths port side s = s := by
  unfold compareWidths
  dsimp only
  rw [h]
  split
  next hb => exact absurd hb (by simp)
  · rfl

/-- Equal widths are confirmed. -/
theorem step_compareWidths_eq {port side a : Nat} {s : State} (ho : (portSide s port side).own = some a)
    (hp : (portSide s port side).peer = some a) (h : a ≠ 0) : (portSide (compareWidths port side s) port side).step = 4 := by
  unfold compareWidths
  dsimp only
  rw [ho, hp]
  dsimp only
  rw [if_pos rfl, if_neg h, portSide_sendTrain_other _ _ _ _ _ _ (by decide), portSide_setSide_self]

/-- Different widths begin the handshake again, with the lower of them as its cap. -/
theorem portSide_compareWidths_ne {port side a b : Nat} {s : State} (ho : (portSide s port side).own = some a)
    (hp : (portSide s port side).peer = some b) (h : a ≠ b) : portSide (compareWidths port side s) port side
      = { portSide s port side with step := 1, own := none, peer := none, restart := true, cap := lowerWidth a b, init := false } := by
  unfold compareWidths
  dsimp only
  rw [ho, hp]
  dsimp only
  rw [if_neg h, portSide_sendTrain_start, portSide_setSide_self]

/-- With every lane sound, a side proposes the full width. -/
theorem proposal_sound {failed : List (Nat × Nat)} {cap : Nat} (h : ∀ g, g < 8 → failed.getD g (0, 0) = (0, 0)) : proposal failed false cap = 3 := by
  have low : (List.range 4).all (fun g => decide ((failed.getD g (0, 0)).1 ≤ 4 - popN 4 (failed.getD g (0, 0)).2)) = true := by
    rw [List.all_eq_true]
    intro g hg
    rw [h g (by have := List.mem_range.mp hg; omega)]
    rfl
  have high : (List.range 4).all (fun g => decide ((failed.getD (g + 4) (0, 0)).1 ≤ 4 - popN 4 (failed.getD (g + 4) (0, 0)).2)) = true := by
    rw [List.all_eq_true]
    intro g hg
    rw [h (g + 4) (by have := List.mem_range.mp hg; omega)]
    rfl
  unfold proposal
  dsimp only
  rw [low, high]
  rfl

/-- The lane test is done: the side proposes what its lanes allow. -/
theorem portSide_portLaneTestDone {port side : Nat} {failed : List (Nat × Nat)} {s : State} (h1 : (portSide s port side).state = 1)
    (h2 : (portSide s port side).step = 2) (hp : (portSide s port side).peer = none) :
    (portSide (portLaneTestDoneEff port side failed s) port side).step = 3 ∧
    (portSide (portLaneTestDoneEff port side failed s) port side).own
      = some (proposal failed (portSide s port side).restart (portSide s port side).cap) := by
  have hc : ¬ ((portSide s port side).state ≠ 1 ∨ (portSide s port side).step ≠ 2) := by simp [h1, h2]
  unfold portLaneTestDoneEff
  dsimp only
  rw [if_neg hc, compareWidths_of_peer_none (by rw [portSide_sendTrain_other _ _ _ _ _ _ (by decide), portSide_setSide_self]; exact hp),
    portSide_sendTrain_other _ _ _ _ _ _ (by decide), portSide_setSide_self]
  exact ⟨rfl, rfl⟩

/-- A PROPOSE that is heard: it is noted, and compared where the side has proposed a width itself. -/
theorem proposeEff_heard {port side : Nat} {m : TrainMsg} {s : State} (hs : side ≤ 1) (h1 : (portSide s port side).state = 1)
    (h23 : (portSide s port side).step = 2 ∨ (portSide s port side).step = 3) (ht : trainStale (portSide s port side) 2 m = false) :
    proposeEff port side m s = (if (portSide s port side).step = 3 then compareWidths port side else id)
      (setSide port side { portSide s port side with peer := some m.width, drive := m.spares } s) := by
  have hc : ¬ ((portSide s port side).state ≠ 1 ∨ 1 < side ∨ ((portSide s port side).step ≠ 2 ∧ (portSide s port side).step ≠ 3) ∨
      trainStale (portSide s port side) 2 m = true) := by
    rcases h23 with h | h <;> simp [h1, hs, ht, h]
  unfold proposeEff
  dsimp only
  rw [if_neg hc]
  split <;> rfl

/-- A CONFIRM of the width that a side has proposed makes it ACTIVE. -/
theorem portSide_confirm {port side : Nat} {m : TrainMsg} {s : State} (hs : side ≤ 1) (h1 : (portSide s port side).state = 1)
    (h4 : (portSide s port side).step = 4) (ht : trainStale (portSide s port side) 3 m = false)
    (ho : (portSide s port side).own = some m.width) : portSide (confirmEff port side m s) port side
      = { portSide s port side with state := 2, step := 0, width := m.width, restart := false, cap := 3 } := by
  have hc : ¬ ((portSide s port side).state ≠ 1 ∨ 1 < side ∨ (portSide s port side).step ≠ 4 ∨ trainStale (portSide s port side) 3 m = true ∨
      (portSide s port side).own ≠ some m.width) := by simp [h1, hs, h4, ht, ho]
  have sent (b : Nat) (t : State) : kept (pumpAll (linkKey b false) (if (linkOf t (linkKey b false)).retry.isEmpty then t
      else replayAll (linkKey b false) t)) = kept t := by
    rw [kept_pumpAll]
    split
    · rfl
    · exact kept_replayAll _ _
  unfold confirmEff
  extract_lets p t1 t2
  have h2 : portSide t2 port side = { p with state := 2, step := 0, width := m.width, restart := false, cap := 3 } := by
    have e : t2.xpt.ports = t1.xpt.ports := by
      unfold t2
      split <;> rfl
    rw [portSide_of_ports e]
    exact portSide_setSide_self _ _ _ _
  rw [if_neg hc]
  split
  · rw [portSide_of_kept (foldl_keeps kept _ (fun t b => sent b t) _ _), h2]
  · exact h2

/-! ## Handshakes that fail (R204) -/

/-- A handshake that fails before the third begins again on both sides. -/
theorem portSide_trainFails_again {port side : Nat} {s : State} (hs : side ≤ 1) (h1 : (portSide s port side).state = 1)
    (hf : (portSide s port 0).fails < 2) :
    (portSide (trainFails port s) port 0).fails = (portSide s port 0).fails + 1 ∧ (portSide (trainFails port s) port side).state = 1 ∧
    (portSide (trainFails port s) port side).step = 1 := by
  unfold trainFails
  extract_lets n side0 t1
  have hn : n = (portSide s port 0).fails + 1 := rfl
  have h0 : portSide t1 port 0 = { portSide s port 0 with fails := min n 3 } := portSide_setSide_self _ _ _ _
  have hk : portSide t1 port 1 = portSide s port 1 := portSide_setSide_ne _ _ (by omega)
  rw [if_neg (by omega)]
  refine ⟨?_, ?_⟩
  · rw [portSide_beginTrain_ne _ (by omega), fails_beginTrain, h0]
    dsimp only
    omega
  · obtain rfl | rfl : side = 0 ∨ side = 1 := by omega
    · have hne : (portSide t1 port 0).state ≠ 3 := by
        rw [h0]
        exact h1 ▸ by decide
      rw [portSide_beginTrain_ne _ (by omega), portSide_beginTrain_self hne]
      exact ⟨rfl, rfl⟩
    · have hne : (portSide (beginTrain port 0 t1) port 1).state ≠ 3 := by
        rw [portSide_beginTrain_ne _ (by omega), hk, h1]
        decide
      rw [portSide_beginTrain_self hne]
      exact ⟨rfl, rfl⟩

/-- A port that is fenced is FENCED on both sides. -/
theorem state_fencePort {port side : Nat} (s : State) (hs : side ≤ 1) : (portSide (fencePort port s) port side).state = 3 := by
  unfold fencePort
  extract_lets held t1
  have h1 : (portSide t1 port side).state = 3 := by
    unfold t1
    rw [show List.range 2 = [0, 1] from rfl, List.foldl_cons, List.foldl_cons, List.foldl_nil]
    obtain rfl | rfl : side = 0 ∨ side = 1 := by omega
    · rw [portSide_setSide_ne _ _ (by omega), portSide_setSide_self]
    · rw [portSide_setSide_self]
  have h2 : (portSide (adopt port t1).2 port side).state = 3 := (state_portSide_adopt _ _ _ _).trans h1
  clear_value held
  cases held with
  | some q => exact (state_portSide_adopt _ _ _ _).trans h2
  | none => exact h2

theorem state_trainFails_third {port side : Nat} {s : State} (hs : side ≤ 1) (hf : 2 ≤ (portSide s port 0).fails) :
    (portSide (trainFails port s) port side).state = 3 := by
  unfold trainFails
  dsimp only
  rw [if_pos (by omega)]
  exact state_fencePort _ hs

end Sys2Proof.Machine
end

section
/-! What a command on the ports has sent and answered stands after its end, whatever the isolation of stacks comes to. -/
namespace Sys2Proof.Machine

theorem sends_closing_isolation (a s : State) : Sends (isolationSettle a s) (closing a s) := by
  have step (t : State) : Sends t (settle a (linkSettle a (gateSettle (engSettle a (staleWatch a (staleEnd t)))))) := by
    refine Sends.trans ?_ (sends_settle _ _)
    refine Sends.trans ?_ (.of_eq (out_linkSettle _ _))
    refine Sends.trans ?_ (.of_eq (out_gateSettle _))
    refine (Sends.of_eq (out_staleEnd t)).trans (Sends.trans (t := staleWatch a (staleEnd t)) (.of_eq rfl) (sends_engSettle _ _))
  have pending (t : State) (p : List Instr) : Sends t { t with pending := p } := .of_eq rfl
  unfold closing
  exact (step _).trans (pending _ _)

/-- Closing takes back nothing that a command has sent. -/
theorem sends_closing_always (a s : State) : Sends s (closing a s) := (adds_isolationSettle a s).sends.trans (sends_closing_isolation a s)

theorem mp2_closing (a s : State) : (closing a s).mp2 = s.mp2 :=
  (still_mp2 (still_closing_isolation a s)).trans (adds_isolationSettle a s).mp2

/-- An answer stands after closing. -/
theorem Answered.closing_always {ch : Chan} {ws : List Word32} {s t : State} (a : State) (h : Answered ch ws s t) :
    Answered ch ws s (Machine.closing a t) := by
  have full := congrArg HostPort.m2hFull (closing_keeps_hp a t)
  have words := congrArg HostPort.m2hMw (closing_keeps_hp a t)
  have wait := congrArg HostPort.m2hWait (closing_keeps_hp a t)
  dsimp only at full words wait
  exact h.mono full words wait (by rw [mp2_closing]) (sends_closing_always a t)

/-! ## Commands on ports (R369) -/

theorem ports_closeCmd (op : Nat) (r : Req) (st d : Nat) (ws : List Word32) (s : State) : (closeCmd op r st d ws [] s).xpt.ports = s.xpt.ports := by
  have answered : (answerPl op r st d 0 ws [] s).xpt.ports = s.xpt.ports := by
    unfold answerPl deliver toHost
    cases r.chan with
    | pcie => dsimp only; split <;> rfl
    | oob p q => rfl
    | smbus => rfl
    | fm p q => exact (adds_send _ (adds_sendMgmt _ _ (Adds.refl s))).ports
  exact answered

/-- Outside recovery, a command that passes its first check has the row of the table of commands. -/
theorem specNow_of_reaches {op : Nat} {r : Req} {s : State} {c : CmdSpec} (hr : Reaches op r s) (hn : rcvSpec op = none)
    (hc : cmdSpec op = some c) : specNow s op = some c := by
  obtain ⟨-, -, check, -, -⟩ := hr
  unfold firstCheck specNow at check
  unfold specNow
  cases h : s.pkg.recovery with
  | false => exact hc
  | true => simp [h, hn] at check

/-- The arguments of a command name a port. -/
theorem withPort_of_port {s : State} {r : Req} {st p : Nat} (f : Nat → CmdOut) (hst : st = bitsN (argN r 0) 0 4) (hp : p = bitsN (argN r 0) 8 4)
    (h12 : p < 12) (hs : st < stacksOf s.pkg.part) : withPort s r f = f (st * 12 + p) := by
  have h : stacksOf s.pkg.part ≤ 12 := by
    unfold stacksOf
    split <;> omega
  subst hst hp
  unfold withPort
  dsimp only
  rw [if_neg (by omega), if_neg (by omega)]

/-- A command that does not wait and whose body ends well: its effect, the end of its two phases, and the answer. -/
theorem runCmd_ok {op : Nat} {r : Req} {body : State → Nat → CmdOut} {s s' : State} {ws : List Word32} {c : CmdSpec} (hr : Reaches op r s)
    (hc : specNow s op = some c) (hw : c.waits = false) (hb : body (beginCmd op r s) 0 = .ok s' ws) :
    runCmd op r body s = closeCmd op r stOK 0 ws [] (endSites (entryOf op r s) true s') := by
  rw [runCmd_now hr hc hw, hb]

/-- A state with the package's settings and the host's registers of another. -/
structure SameHost (s t : State) : Prop where
  pkg : t.pkg = s.pkg
  hp : t.hp = s.hp

theorem SameHost.trans {s t u : State} (h : SameHost s t) (h' : SameHost t u) : SameHost s u := ⟨h'.pkg.trans h.pkg, h'.hp.trans h.hp⟩

theorem sameHost_beginCmd (op : Nat) (r : Req) (s : State) : SameHost s (beginCmd op r s) := by
  obtain ⟨o, j, h⟩ := beginCmd_frame op r s
  rw [h]
  exact ⟨rfl, rfl⟩

theorem xpt_beginCmd (op : Nat) (r : Req) (s : State) : (beginCmd op r s).xpt = s.xpt := by
  obtain ⟨o, j, h⟩ := beginCmd_frame op r s
  rw [h]

theorem sameHost_endSites (e : Option JEntry) (b : Bool) (s : State) : SameHost s (endSites e b s) := by
  obtain ⟨o, held, h⟩ := endSites_frame e b s
  rw [h]
  exact ⟨rfl, rfl⟩

theorem xpt_endSites (e : Option JEntry) (b : Bool) (s : State) : (endSites e b s).xpt = s.xpt := by
  obtain ⟨o, held, h⟩ := endSites_frame e b s
  rw [h]

theorem sameHost_sendTrain (port side kind w : Nat) (s : State) : SameHost s (sendTrain port side kind w s) := by
  unfold sendTrain
  dsimp only
  split <;> exact ⟨rfl, rfl⟩

theorem sameHost_retrain (port side cause : Nat) (s : State) : SameHost s (retrain port side cause s) := by
  unfold retrain beginTrain
  dsimp only
  split
  · exact ⟨rfl, rfl⟩
  · split
    · exact ⟨rfl, rfl⟩
    · exact ⟨(sameHost_sendTrain _ _ _ _ _).pkg, (sameHost_sendTrain _ _ _ _ _).hp⟩

/-- A command that ends well is answered where its body leaves the settings and the host's registers as they are. -/
theorem answeredOk_of_body {op : Nat} {r : Req} {ws : List Word32} {s s' : State} (e : Option JEntry) (h : SameHost s s') :
    AnsweredOk op r ws s (closeCmd op r stOK 0 ws [] (endSites e true s')) := by
  obtain ⟨hpkg, hhp⟩ := h.trans (sameHost_endSites e true s')
  exact answered_closeCmd op r stOK 0 ws s _ (by rw [hpkg]) (by rw [hhp]) (by rw [hhp])

theorem portWord_of_ports {s t : State} (h : t.xpt.ports = s.xpt.ports) (port : Nat) : portWord t port = portWord s port := by
  unfold portWord
  rw [portSide_of_ports h]

/-- What is read of a port is answered. -/
theorem leaves_portStatus {r : Req} {st p : Nat} {s : State} (hr : Reaches 0x0402 r s) (hst : st = bitsN (argN r 0) 0 4)
    (hp : p = bitsN (argN r 0) 8 4) (h12 : p < 12) (hs : st < stacksOf s.pkg.part) :
    Leaves (.portStatus r) s (AnsweredOk 0x0402 r (wordsOf 2 (portWord s (st * 12 + p))) s) := by
  have begun := sameHost_beginCmd 0x0402 r s
  refine leaves_runEff (f := portStatusEff r) rfl (Answered.closing_always s ?_)
  unfold portStatusEff
  rw [runCmd_ok (s' := beginCmd 0x0402 r s) (ws := wordsOf 2 (portWord s (st * 12 + p))) hr (specNow_of_reaches hr rfl rfl) rfl]
  · exact answeredOk_of_body _ begun
  · rw [withPort_of_port _ hst hp h12 (begun.pkg ▸ hs), portWord_of_ports (congrArg Xpt.ports (xpt_beginCmd _ _ _))]

/-- A port that is told to train again does, and the command is answered. -/
theorem leaves_portRetrain {r : Req} {st p : Nat} {s : State} (hr : Reaches 0x0403 r s) (hst : st = bitsN (argN r 0) 0 4)
    (hp : p = bitsN (argN r 0) 8 4) (h12 : p < 12) (hs : st < stacksOf s.pkg.part) (hok : retrainRefused s (st * 12 + p) = false)
    (ho : portOn s (st * 12 + p) = true) :
    Leaves (.portRetrain r) s (fun t => AnsweredOk 0x0403 r [] s t ∧
      portSide t (st * 12 + p) 0 = trainBegun { portSide s (st * 12 + p) 0 with localEp := (portSide s (st * 12 + p) 0).localEp + 1 }) := by
  have begun := sameHost_beginCmd 0x0403 r s
  have side : portSide (beginCmd 0x0403 r s) (st * 12 + p) 0 = portSide s (st * 12 + p) 0 :=
    portSide_of_ports (congrArg Xpt.ports (xpt_beginCmd _ _ _)) _ _
  have run : portRetrainEff r s
      = closeCmd 0x0403 r stOK 0 [] [] (endSites (entryOf 0x0403 r s) true (retrain (st * 12 + p) 0 3 (beginCmd 0x0403 r s))) := by
    unfold portRetrainEff
    refine runCmd_ok hr (specNow_of_reaches hr rfl rfl) rfl ?_
    rw [withPort_of_port _ hst hp h12 (begun.pkg ▸ hs), retrainRefused, side]
    exact if_neg (by rw [← retrainRefused, hok]; decide)
  have h3 : (portSide s (st * 12 + p) 0).state ≠ 3 := by
    intro h
    simp [retrainRefused, h] at hok
  refine leaves_runEff (f := portRetrainEff r) rfl ⟨Answered.closing_always s ?_, ?_⟩
  · rw [run]
    exact answeredOk_of_body _ (begun.trans (sameHost_retrain _ _ _ _))
  · have on : portOn (beginCmd 0x0403 r s) (st * 12 + p) = true := by
      unfold portOn
      rw [begun.pkg]
      exact ho
    rw [portSide_closing, run, portSide_of_ports (ports_closeCmd _ _ _ _ _ _), portSide_of_ports (congrArg Xpt.ports (xpt_endSites _ _ _)),
      portSide_retrain (by rw [side]; exact h3) (by decide) on, side]

/-! ## The rows (R201 to R206) -/

theorem leaves_portPartialReset {port side : Nat} {s : State} (hs : side ≤ 1) (h3 : (portSide s port side).state ≠ 3) (ho : portOn s port = true) :
    Leaves (.portPartialReset port side) s (fun t =>
      portSide t port side = trainBegun { portSide s port side with localEp := (portSide s port side).localEp + 1 } ∧
      ∀ (p : PortSide) (m : TrainMsg), p = portSide s port side →
        m = { flags := b2n p.init, epoch := p.localEp + 1, echo := p.peerEp, width := 3, cap := 0, spares := p.sparesUsed } →
        Out.link port 16 [side, leNat (trainBytes 1 m ++ leBytes 4 (trainCrc 1 m).toNat)] ∈ t.out) := by
  refine leaves_runEff (f := portPartialResetEff port side) rfl ⟨?_, fun p m hp hm => sends_closing_always _ _ _ ?_⟩
  · rw [portSide_closing]
    exact portSide_retrain h3 hs ho
  · subst hp
    exact sent_retrain h3 hs ho hm

theorem leaves_startRepeat {port side : Nat} {s : State} (h1 : (portSide s port side).state = 1) (hstep : (portSide s port side).step = 1)
    (hs : side ≤ 1) : Leaves (.startRepeat port side) s (fun t => portSide t port side = { portSide s port side with init := false } ∧
      (∀ (m : TrainMsg), m = trainMsg (portSide s port side) 1 (portSide s port side).cap →
        Out.link port 16 [side, leNat (trainBytes 1 m ++ leBytes 4 m.crc.toNat)] ∈ t.out) ∧
      (∀ q r, r ≤ 1 → (q, r) ≠ (port, side) → portSide t q r = portSide s q r)) := by
  have e : startRepeatEff port side s = sendTrain port side 16 (portSide s port side).cap s := if_pos ⟨h1, hstep⟩
  refine leaves_runEff (f := startRepeatEff port side) rfl ⟨?_, fun m hm => sends_closing_always _ _ _ ?_, fun q r hr hne => ?_⟩
  · rw [portSide_closing, e, portSide_sendTrain_start]
  · rw [e, hm]
    exact sent_sendTrain port side 16 _ s
  · rw [portSide_closing, e, portSide_sendTrain_ne _ _ _ (sideKey_ne hs hr hne)]

theorem leaves_propose_noted {port side : Nat} {m : TrainMsg} {s : State} (hs : side ≤ 1) (h1 : (portSide s port side).state = 1)
    (ht : trainStale (portSide s port side) 2 m = false) (h2 : (portSide s port side).step = 2) :
    Leaves (.propose port side m) s (fun t => portSide t port side = { portSide s port side with peer := some m.width, drive := m.spares }) := by
  refine leaves_runEff (f := proposeEff port side m) rfl ?_
  rw [portSide_closing, proposeEff_heard hs h1 (.inl h2) ht, if_neg (by omega)]
  exact portSide_setSide_self _ _ _ _

theorem leaves_propose_equal {port side : Nat} {m : TrainMsg} {s : State} (hs : side ≤ 1) (h1 : (portSide s port side).state = 1)
    (ht : trainStale (portSide s port side) 2 m = false) (h3 : (portSide s port side).step = 3) (ho : (portSide s port side).own = some m.width)
    (h0 : m.width ≠ 0) : Leaves (.propose port side m) s (fun t => (portSide t port side).step = 4) := by
  refine leaves_runEff (f := proposeEff port side m) rfl ?_
  rw [portSide_closing, proposeEff_heard hs h1 (.inr h3) ht, if_pos h3]
  exact step_compareWidths_eq (by rw [portSide_setSide_self]; exact ho) (by rw [portSide_setSide_self]) h0

theorem leaves_propose_unequal {port side a : Nat} {m : TrainMsg} {s : State} (hs : side ≤ 1) (h1 : (portSide s port side).state = 1)
    (ht : trainStale (portSide s port side) 2 m = false) (h3 : (portSide s port side).step = 3) (ho : (portSide s port side).own = some a)
    (hne : a ≠ m.width) : Leaves (.propose port side m) s (fun t =>
      (portSide t port side).step = 1 ∧ (portSide t port side).restart = true ∧ (portSide t port side).cap = lowerWidth a m.width) := by
  refine leaves_runEff (f := proposeEff port side m) rfl ?_
  rw [portSide_closing, proposeEff_heard hs h1 (.inr h3) ht, if_pos h3,
    portSide_compareWidths_ne (by rw [portSide_setSide_self]; exact ho) (by rw [portSide_setSide_self]) hne]
  exact ⟨rfl, rfl, rfl⟩

theorem leaves_portLaneTestDone {port side : Nat} {failed : List (Nat × Nat)} {s : State} (h1 : (portSide s port side).state = 1)
    (h2 : (portSide s port side).step = 2) (hp : (portSide s port side).peer = none) :
    Leaves (.portLaneTestDone port side failed) s (fun t => (portSide t port side).step = 3 ∧
      (portSide t port side).own = some (proposal failed (portSide s port side).restart (portSide s port side).cap)) := by
  refine leaves_runEff (f := portLaneTestDoneEff port side failed) rfl ?_
  rw [portSide_closing]
  exact portSide_portLaneTestDone h1 h2 hp

theorem leaves_confirm {port side : Nat} {m : TrainMsg} {s : State} (hs : side ≤ 1) (h1 : (portSide s port side).state = 1)
    (h4 : (portSide s port side).step = 4) (ht : trainStale (portSide s port side) 3 m = false) (ho : (portSide s port side).own = some m.width) :
    Leaves (.confirm port side m) s (fun t =>
      (portSide t port side).state = 2 ∧ (portSide t port side).width = m.width ∧ (portSide t port side).step = 0) := by
  refine leaves_runEff (f := confirmEff port side m) rfl ?_
  rw [portSide_closing, portSide_confirm hs h1 h4 ht ho]
  exact ⟨rfl, rfl, rfl⟩

/-- A handshake that has not become ACTIVE in time has failed. -/
theorem handshakeTimeoutEff_training {port side : Nat} {s : State} (hs : side ≤ 1) (h1 : (portSide s port side).state = 1)
    (h0 : (portSide s port side).step ≠ 0) : handshakeTimeoutEff port side s = trainFails port s := if_pos ⟨h1, h0, hs⟩

theorem leaves_handshakeTimeout_again {port side : Nat} {s : State} (hs : side ≤ 1) (h1 : (portSide s port side).state = 1)
    (h0 : (portSide s port side).step ≠ 0) (hf : (portSide s port 0).fails < 2) : Leaves (.handshakeTimeout port side) s (fun t =>
      (portSide t port 0).fails = (portSide s port 0).fails + 1 ∧ (portSide t port side).state = 1 ∧ (portSide t port side).step = 1) := by
  refine leaves_runEff (f := handshakeTimeoutEff port side) rfl ?_
  rw [portSide_closing, portSide_closing, handshakeTimeoutEff_training hs h1 h0]
  exact portSide_trainFails_again hs h1 hf

theorem leaves_handshakeTimeout_third {port side : Nat} {s : State} (hs : side ≤ 1) (h1 : (portSide s port side).state = 1)
    (h0 : (portSide s port side).step ≠ 0) (hf : 2 ≤ (portSide s port 0).fails) : Leaves (.handshakeTimeout port side) s (fun t =>
      (portSide t port 0).state = 3 ∧ (portSide t port 1).state = 3) := by
  refine leaves_runEff (f := handshakeTimeoutEff port side) rfl ?_
  rw [portSide_closing, portSide_closing, handshakeTimeoutEff_training hs h1 h0]
  exact ⟨state_trainFails_third (by decide) hf, state_trainFails_third (by decide) hf⟩

theorem leaves_portFailCountReset {port : Nat} {s : State} (h : (portSide s port 0).state = 2) :
    Leaves (.portFailCountReset port) s (fun t => portSide t port 0 = { portSide s port 0 with fails := 0 }) := by
  have e : portFailCountResetEff port s = setSide port 0 { portSide s port 0 with fails := 0 } s := if_pos h
  refine leaves_runEff (f := portFailCountResetEff port) rfl ?_
  rw [portSide_closing, e, portSide_setSide_self]

theorem leaves_laneMonitorFailure {port side : Nat} {s : State} (hs : side ≤ 1) (h : (portSide s port side).state = 2) (ho : portOn s port = true) :
    Leaves (.laneMonitorFailure port side) s (fun t =>
      portSide t port side = trainBegun { portSide s port side with localEp := (portSide s port side).localEp + 1 }) := by
  have e : laneMonitorFailureEff port side s = retrain port side 2 s := if_pos h
  refine leaves_runEff (f := laneMonitorFailureEff port side) rfl ?_
  rw [portSide_closing, e]
  exact portSide_retrain (by omega) hs ho

/-- What a command leaves may be weakened. -/
theorem Leaves.imp {c : Instr} {s : State} {P Q : State → Prop} (h : Leaves c s P) (f : ∀ t, P t → Q t) : Leaves c s Q := by
  obtain ⟨t, ht, hp⟩ := h
  exact ⟨t, ht, f t hp⟩

end Sys2Proof.Machine

open Sys2Proof Sys2Proof.Machine

/-- Settles O43, row by row: each row is what its operation makes of the side, which closing keeps; what it has sent stays sent although stacks
that no port reaches any more may be fenced at its end. -/
theorem portRowsComplete : Obligations.PortRowsComplete := by
  unfold Obligations.PortRowsComplete
  refine ⟨?reset, fun _ _ _ _ => leaves_start_taken, fun _ _ _ _ => leaves_start_stale, fun _ _ _ => leaves_startRepeat, ?laneTest, ?propose,
    fun _ _ _ _ hs h1 h4 ht ho => leaves_confirm hs h1 h4 ht ho,
    fun _ _ _ hs h1 h0 => ⟨leaves_handshakeTimeout_again hs h1 h0, leaves_handshakeTimeout_third hs h1 h0⟩,
    fun _ _ => leaves_portFailCountReset, ?monitor, fun _ _ _ _ => leaves_portStatus, ?retrain⟩
  case reset =>
    intro port side s hs h3 ho
    refine (leaves_portPartialReset hs h3 ho).imp fun t ⟨side, sent⟩ => ?_
    rw [side]
    exact ⟨rfl, rfl, rfl, sent, rfl⟩
  case laneTest =>
    intro port side failed s h1 h2 hp
    refine (leaves_portLaneTestDone h1 h2 hp).imp fun t ⟨step, own⟩ => ⟨step, own, fun sound fresh => ?_⟩
    rw [own, fresh, proposal_sound sound]
  case propose =>
    intro port side m s hs h1 ht
    refine ⟨fun h2 => (leaves_propose_noted hs h1 ht h2).imp fun t noted => ?_, leaves_propose_equal hs h1 ht, fun _ => leaves_propose_unequal hs h1 ht⟩
    rw [noted]
    exact ⟨rfl, rfl, h2⟩
  case monitor =>
    intro port side s hs h ho
    refine (leaves_laneMonitorFailure hs h ho).imp fun t side => ?_
    rw [side]
    exact ⟨rfl, rfl⟩
  case retrain =>
    intro r st p s hr hst hp h12 hs hok ho
    refine (leaves_portRetrain hr hst hp h12 hs hok ho).imp fun t ⟨answered, side⟩ => ⟨answered, ?_⟩
    rw [side]
    exact ⟨rfl, rfl⟩
end
